-- ==== Sys2Proof/Word.lean ====
section
/-! DEFINITION. The machine's words and their plainest arithmetic (R2, R13). -/

namespace Sys2Proof

/-- A scalar register, a command word quarter, a stamp. -/
abbrev Word := BitVec 64

/-- A byte of memory. -/
abbrev Byte := BitVec 8

/-- A tile row of 64 bytes (R13); byte `k` is bits [8k+7:8k]. -/
abbrev Row := BitVec 512

/-- The flag register's six bits (R77): SAT NV DZ OF UF NX. -/
abbrev Flags := BitVec 6

/-- Bits [hi:lo] of a word as a number. -/
def Word.fld (v : Word) (hi lo : Nat) : Nat := v.toNat / 2 ^ lo % 2 ^ (hi + 1 - lo)

/-- A number as a word, modulo 2^64. -/
def Word.of (n : Nat) : Word := BitVec.ofNat 64 n

end Sys2Proof
end

