-- ==== Sys2Proof/Kinds.lean ====
section
/-! DEFINITION. The kinds of item that rows of the opcode table name beside numbers, and the steps that other
agents have pending. -/

namespace Sys2Proof

/-- What an access asks of a page (R116, R258). -/
inductive Access where
  | load
  | store
  /-- a load and a store at once (R258, R265) -/
  | both
  | fetch
deriving DecidableEq, Repr

/-- The classes of a record (R45); PROM records enter from nowhere (R47). -/
inductive MsgClass where
  | req
  | rpl
  | prom
  | sys
deriving DecidableEq, Repr

/-- The firmware notes (R419, R421): FROZEN, COLBUSY, BKFULL, MCHK, THERM, and a supervisor's request forwarded to the host. -/
inductive FwKind where
  | frozen
  | colbusy
  | bkfull
  | mchk
  | therm
  | host
deriving DecidableEq, Repr

/-- The kinds of machine-check (R408). -/
inductive CheckKind where
  | chkmc
  | inbox
  | sendQueue
  | engineQueue
  | flit
  | linkDown
deriving DecidableEq, Repr

/-- A register written by REGISTER_WRITE: a CSR by number (R90), a VF page register (R418), a PF register
(R419), a route entry of a function (R416), or a threshold of the throttle, to which R158 gives no CSR number: levels 1 to 3
entered, then left. -/
inductive DevReg where
  | csr (n : BitVec 12)
  | vf (fn : Nat) (offset : Nat)
  | pf (offset : Nat)
  | route (fn entry : Nat)
  | throttle (i : Fin 6)
deriving DecidableEq, Repr

/-- What a fabric port takes from a peer device (R423). -/
inductive Frame where
  | message (cluster slot : Nat) (cseq : BitVec 8) (src : BitVec 12) (r : List (BitVec 64))
  | promise (cluster slot : Nat) (cseq : BitVec 8) (v : BitVec 64)
  | ask (cluster out : Nat)
deriving DecidableEq, Repr

/-- What a `tlfree` asks of a cluster (R196): the core that asks, and the id of the timeline. -/
structure TlFree where
  core : Nat
  id : BitVec 16
deriving DecidableEq, Repr

/-- A declared timeline of the launch table (R55, R57). -/
structure LaunchTimeline where
  cluster : Nat
  slot : Nat
  handler : BitVec 48
  openPort : Bool
deriving DecidableEq, Repr

/-- A declared channel of the launch table (R55, R57, R176); `source` is none for the host or another device, else the
sender's context cluster, its timeline slot and its out-slot. With `dev` the other end is on another device (R423): the
device, and the cluster and the slot there. -/
structure LaunchChannel where
  source : Option (Nat × Nat × Nat)
  cluster : Nat
  slot : Nat
  inSlot : Nat
  rank : BitVec 4
  look : BitVec 32
  quantum : BitVec 32
  bulk : Bool
  dev : Option (Nat × Nat × Nat) := none
deriving DecidableEq, Repr

/-- What firmware is given to create a context (R57, R362): rectangle, descriptor fields, the section
images and page tables the loader has placed, the timelines and the channels. -/
structure Launch where
  row : Nat
  col : Nat
  height : Nat
  width : Nat
  ptroot : BitVec 64
  ctrb : BitVec 64
  catbase : BitVec 64
  tvec : BitVec 64
  suph : BitVec 64
  supcl : BitVec 64
  lopen : BitVec 64
  oqbase : BitVec 64
  oqcap : BitVec 64
  dlbase : BitVec 64
  dlcap : BitVec 64
  save : BitVec 64
  bkcap : Nat
  image : List (Nat × BitVec 8)
  timelines : List LaunchTimeline
  channels : List LaunchChannel
deriving DecidableEq, Repr

/-- A step that some agent has pending: a row of the opcode table that is no core word, with the names it
carries, or the command at the head of a queue. -/
inductive Event where
  | command (core : Nat) (cw : BitVec 256)
  | tendComplete (core : Nat)
  | yieldComplete (core : Nat)
  | stRelStoreLeaves (core : Nat) (seq : Nat)
  | caddAdditionSent (core : Nat) (seq : Nat)
  | tlnewAtCluster (core : Nat) (seq : Nat)
  | tlnewResult (core : Nat) (seq : Nat)
  | tlfreeArrival (cluster : Nat) (ask : TlFree)
  | sendInject (core : Nat)
  | chopenAtTarget (core : Nat) (seq : Nat)
  | chopenResult (core : Nat) (seq : Nat)
  | tsubRecordWrite (core : Nat) (seq : Nat)
  | krelSent (core : Nat) (seq : Nat)
  | barArrivalSent (core : Nat) (seq : Nat)
  | pushEntersQueue (core : Nat) (seq : Nat)
  | vectorUnitStart (cluster : Nat)
  | rowWrite (core : Nat)
  | tlbiInvalidate (core : Nat) (unit : Nat) (index : Nat) (all : Bool) (va : BitVec 64)
  | qreqWrite (ctx : Nat) (v : BitVec 64)
  | oqcapWrite (ctx : Nat) (v : BitVec 64)
  | trapEntry (core : Nat)
  | watchdog (core : Nat)
  | translationWalk (core : Nat) (va : BitVec 64) (kind : Access)
  | bankLoad (id : Nat)
  | bankStore (id : Nat)
  | rowLoadRequest (id : Nat)
  | rowStoreRequest (id : Nat)
  | scaleSlotWrite (id : Nat)
  | amoAtBank (id : Nat)
  | casAtBank (id : Nat)
  | counterAddAtBank (id : Nat)
  | daddAtBank (id : Nat)
  | dsealAtBank (id : Nat)
  | loadResponse (id : Nat)
  | storeAck (id : Nat)
  | rowLoadResponse (id : Nat)
  | flitInject (cluster : Nat)
  | flitArrival (router : Nat)
  | receiptArrival (src : Nat) (mtag : Nat)
  | nakArrival (src : Nat) (mtag : Nat) (mem : Bool)
  | injectionStop (cluster : Nat)
  | throttleWindow (router : Nat)
  | bulkDeferExpiry (cluster : Nat) (tag : Nat)
  | overflowWrite (cluster : Nat)
  | recall (cluster : Nat) (cls : MsgClass)
  | ovminRecomputeDone (cluster : Nat) (slot : Nat)
  | linkReplay (link : Nat) (up : Bool) (seqno : BitVec 64)
  | retrainEnd (link : Nat) (ok : Bool)
  | pcieCompletionTimeout (id : Nat)
  | promiseArrival (cluster : Nat) (slot : Nat) (cseq : BitVec 8) (v : BitVec 64)
  | transit (cluster : Nat) (slot : Nat)
  | promiseSend (cluster : Nat) (out : Nat)
  | askSend (cluster : Nat) (slot : Nat)
  | askArrival (cluster : Nat) (out : Nat)
  | tokenStart (ctx : Nat)
  | surveyVisit (ctx : Nat)
  | survstall (ctx : Nat)
  | eventArrival (cluster : Nat) (slot : Nat) (cseq : BitVec 8) (src : BitVec 12) (stamp : BitVec 64) (p0 : BitVec 64)
  | taskEntry (cluster : Nat)
  | deskKreq (slice : Nat) (ctx : Nat) (cluster : Nat) (tag : Nat) (key : BitVec 16)
  | kgrantArrival (cluster : Nat) (tag : Nat) (key : BitVec 16)
  | krefuseArrival (cluster : Nat) (tag : Nat) (key : BitVec 16)
  | keyRetry (cluster : Nat) (tag : Nat)
  | deskKrel (slice : Nat) (ctx : Nat) (cluster : Nat) (tag : Nat) (key : BitVec 16)
  | deskKcancel (slice : Nat) (ctx : Nat) (cluster : Nat) (tag : Nat) (key : BitVec 16)
  | krunAtDesk (slice : Nat) (ctx : Nat) (cluster : Nat) (tag : Nat) (key : BitVec 16)
  | kqueryAtDesk (core : Nat) (seq : Nat)
  | kstatArrival (core : Nat) (seq : Nat)
  | wregAtSlice (cluster : Nat) (tag : Nat) (cond : Nat)
  | wmetArrival (cluster : Nat) (tag : Nat) (cond : Nat)
  | wrefuseArrival (cluster : Nat) (tag : Nat) (cond : Nat)
  | watchPoll (cluster : Nat) (tag : Nat) (cond : Nat)
  | wcancelAtSlice (slice : Nat) (cluster : Nat) (tag : Nat) (cond : Nat)
  | dwait (cluster : Nat) (tag : Nat)
  | dispatch (cluster : Nat)
  | priorityPromotion (cluster : Nat) (tag : Nat)
  | quadHoldRequest (cluster : Nat) (tag : Nat)
  | quadGangStart (quad : Nat)
  | barrierArrival (core : Nat)
  | barrierExit (core : Nat)
  | barrierWake (core : Nat)
  | slwinWrite (v : BitVec 64)
  | slwinSwitchDone (slice : Nat) (win : BitVec 2)
  | slcolsWrite (v : BitVec 64)
  | slcolsSwitch (cols : BitVec 4)
  | patrolScrub (slice : Nat) (addr : Nat)
  | leaseGrant (cluster : Nat)
  | releaseMarkerHead (core : Nat)
  | waithRecheck (core : Nat) (q : BitVec 2)
  | engineCommandComplete (core : Nat) (q : BitVec 2) (ser : BitVec 16)
  | sighAnswer (core : Nat) (q : BitVec 2) (ser : BitVec 16)
  | scalingExchange (core : Nat) (ser : BitVec 16)
  | mcastTransfer (id : Nat)
  | drainAddition (core : Nat) (ser : BitVec 16)
  | freezeGraceEnd (ctx : Nat)
  | freezeDone (ctx : Nat)
  | thawDone (ctx : Nat)
  | pagePreserve (ctx : Nat) (page : Nat)
  | archiveStart (ctx : Nat)
  | archivePage (ctx : Nat) (page : Nat)
  | checkpointComplete (ctx : Nat)
  | nlctlWrite (v : BitVec 64)
  | lnkstWrite (v : BitVec 64)
  | cnrectWrite (v : BitVec 64)
  | cnctlFence (rect : Nat) (on : Bool)
  | cnctlReset (rect : Nat)
  | containmentResetDone (rect : Nat)
  | registerWrite (r : DevReg) (v : BitVec 64)
  | hostPostWrite (fn : Nat) (entry : Nat) (link : Nat) (r : List (BitVec 64))
  | hostPromise (fn : Nat) (entry : Nat) (link : Nat) (v : BitVec 64)
  | hostReplyWrite (core : Nat)
  | rrheadWrite (fn : Nat) (v : BitVec 64)
  | vfbindWrite (fn : Nat) (v : BitVec 64)
  | domidWrite (v : BitVec 64)
  | firmwareRequestTake (ctx : Nat)
  | reductionDescriptorWrite (ws : List (BitVec 64))
  | reductionContribution (window : Nat) (device : Nat) (offset : Nat) (size : Nat) (gen : BitVec 2) (data : BitVec 512)
  | fabricFrameArrival (port : Nat) (frame : Frame)
  | thermalTrip
  | thermalRecover
  | perstRelease
  | contextCreate (ctx : Nat) (l : Launch)
  | pcieCompletionArrival (id : Nat) (status : BitVec 4)
deriving DecidableEq, Repr

end Sys2Proof
end

