-- ==== Sys2Proof/Config.lean ====
section
/-! DEFINITION. What is fixed for the device, and the free values: constants with no body, which no proof can
evaluate. A free value is applied to the counter `fresh` of the state, which every draw advances (log 2). -/

namespace Sys2Proof.Config

/-- A word the spec leaves open. -/
opaque freeWord : Nat → Word

/-- The 64 bytes of a firmware note that is of a kind and names the values given: the spec lays out no field of one (log 2). -/
opaque noteBytes : FwKind → List Nat → Row

/-- The cause code of a kind of machine-check: R408 and R409 number none (log 2). -/
opaque checkCode : CheckKind → Word

/-- How many cycles an answer is on its way to its core: the spec does not fix which of two values a word without W reads
before it (R31), nor how long a memory takes (log 7). -/
opaque latency : Nat → Nat

/-- Whether a device id belongs to the load-store domain (R113, R422): fixed by the machine's cabling (log 5). -/
opaque inDomain : Nat → Bool

/-- Where a management core begins once PERST# is released: R425 gives no address (log 8). -/
opaque bootPc : Nat → Word

/-- A word of the on-package flash, from which the management cores run: the spec gives no program of theirs (R425, log 8). -/
opaque flash : Word → BitVec 32

end Sys2Proof.Config
end

