-- ==== Sys2Proof/Machine/Map.lean ====
section
/-! DEFINITION. A sparse map: pairs of a number and a value, keys strictly rising. It holds every collection
of the machine that a number names (cores, clusters, slots, rows). A key that is not listed has the value the
reader supplies: the value at reset. -/

namespace Sys2Proof

/-- Pairs of a key and a value, keys strictly rising. -/
abbrev Map (α : Type) := List (Nat × α)

/-- The value under `k`, or `d` when nothing is listed there. -/
def Map.get {α : Type} (m : Map α) (k : Nat) (d : α) : α :=
  match m with
  | [] => d
  | (j, v) :: t => if j = k then v else Map.get t k d

/-- Whether `k` is listed. -/
def Map.has {α : Type} (m : Map α) (k : Nat) : Bool :=
  match m with
  | [] => false
  | (j, _) :: t => j = k || Map.has t k

/-- The value under `k`, if listed. -/
def Map.find {α : Type} (m : Map α) (k : Nat) : Option α :=
  match m with
  | [] => none
  | (j, v) :: t => if j = k then some v else Map.find t k

/-- `v` under `k`. -/
def Map.set {α : Type} (m : Map α) (k : Nat) (v : α) : Map α :=
  match m with
  | [] => [(k, v)]
  | (j, u) :: t => if k < j then (k, v) :: (j, u) :: t else if k = j then (k, v) :: t else (j, u) :: Map.set t k v

/-- Nothing listed under `k`. -/
def Map.erase {α : Type} (m : Map α) (k : Nat) : Map α :=
  match m with
  | [] => []
  | (j, u) :: t => if j = k then Map.erase t k else (j, u) :: Map.erase t k

/-- A value entered, or its key taken out when the value is what an unlisted key has. -/
def Map.put {α : Type} [DecidableEq α] (m : Map α) (k : Nat) (v dflt : α) : Map α := if v = dflt then m.erase k else m.set k v

/-- The keys listed. -/
def Map.keys {α : Type} (m : Map α) : List Nat := m.map Prod.fst

/-- The values listed. -/
def Map.vals {α : Type} (m : Map α) : List α := m.map Prod.snd

/-- Keys strictly rising from `lo` on. -/
def Map.risesFrom {α : Type} (lo : Nat) (m : Map α) : Bool :=
  match m with
  | [] => true
  | (j, _) :: t => lo ≤ j && Map.risesFrom (j + 1) t

end Sys2Proof
end

