-- ==== Sys2Proof/Machine/State.lean ====
section
/-! DEFINITION. The machine's state, all of it plain data, and the machine right after reset. Every value a field
is given here is its value at reset; a unit that a map does not list has exactly that state. -/

namespace Sys2Proof.Machine

open Sys2Proof

/-- Why the machine stops. The spec stops it nowhere: every fault it names is a trap, a completion, a note or a
refusal of a record, and each is a next state. -/
inductive Fault where
  /-- Raised by no definition: the spec leaves no access without an outcome. Safe. -/
  | none
deriving DecidableEq, Repr

/-- Why an instruction has no meaning. -/
inductive Refusal where
  /-- Raised by the arm of an instruction not modelled yet, under its mnemonic. Safe: the run ends. -/
  | notModelled (mnemonic : String)
deriving DecidableEq, Repr

/-- What a step answers. -/
abbrev Result (σ : Type) := Host.Outcome σ Fault Refusal

/-- A task record: eight words (R45). -/
abbrev Rec := Vector Word 8

/-- The privilege modes (R361). -/
inductive Mode where
  | task
  | supervisor
  | firmware
deriving DecidableEq, Repr

/-! ### A core -/

/-- A trap to be taken: cause code, DEF, SC, `tval` and the parts of `tinfo` (R365, R366), and the address X of
the word at which it is taken. -/
structure Trap where
  code : BitVec 8
  pc : Word
  tval : Word := 0
  sc : Bool := false
  df : Bool := false
  iaddr : Option Word := none
  why : BitVec 4 := 0
  lvl : BitVec 2 := 0
  stp : BitVec 8 := 0
  row : BitVec 6 := 0
  recf : Bool := false
deriving DecidableEq, Repr

/-- What a core is doing. -/
inductive Run where
  /-- no task; the dispatcher may start one -/
  | free
  /-- held for a gang (R211, R237) -/
  | held
  /-- a task runs -/
  | running
  /-- a trap waits for the core's outstanding results (R368) -/
  | trapping (t : Trap)
  /-- `tend` waits (R107): the deferred signal's physical address and amount -/
  | ending (signal : Option (Nat × Word)) (inTrap : Bool)
  /-- a gang member has made its signal and waits for its arrivals to be counted, then ends (R239) -/
  | exiting
  /-- `yield` waits (R109): the continuation's record, and whether the task has a timeline -/
  | yielding (r : Rec) (timed : Bool)
  /-- the keys are released and the continuation waits for a place (R109, R153) -/
  | leaving (r : Rec) (timed : Bool)
  /-- parked in `barw` or `bar` until PEND is 0; the address of the next word (R244) -/
  | parked (next : Word)
  /-- `tlbi` waits for the acknowledgements (R375); the address of the next word -/
  | flushing (next : Word)
  /-- stopped between two words by a freeze (R381) or by a containment fence -/
  | stopped
deriving DecidableEq, Repr

/-- Where an outstanding result goes. -/
inductive Dest where
  | none
  /-- `n` low bytes to a register, sign-extended or not -/
  | reg (d : BitVec 5) (n : Nat) (signed : Bool)
  /-- a tile row (R139) -/
  | row (tile : BitVec 3) (row : BitVec 6)
deriving DecidableEq, Repr

/-- A result outstanding from a word (R30): the word's address, the effective address of the access, where the
result goes, and the observer mask of an `ld.acq` that holds later words (R130). -/
structure OutRes where
  iaddr : Word
  ea : Word := 0
  dest : Dest := .none
  acq : BitVec 5 := 0
  /-- load entries of R126 it holds -/
  load : Nat := 0
  /-- failed rows or words: row, status, failed address (R139, R315) -/
  bad : List (Nat × BitVec 4 × Word) := []
deriving DecidableEq, Repr

/-- A fault detected when a result returned (R32): the sequence number of the word that issued the access. -/
structure Deferred where
  seq : Nat
  t : Trap
deriving DecidableEq, Repr

/-- What a word has issued and the core has not yet let go (R130, R132, R197, R224, R227, R228, R243, R312). -/
inductive Held where
  /-- a store, atomic or counter request by its number -/
  | request (id : Nat)
  /-- the addition of a `cadd` -/
  | addition (id : Nat)
  /-- a submitted record (R227), by its inbox number -/
  | submit (item : Nat)
  /-- the release of a key (R228) -/
  | key (k : BitVec 16)
  /-- an arrival at the barrier (R243) -/
  | arrival
  /-- a pushed command or marker (R312) -/
  | push (q : BitVec 2)
deriving DecidableEq, Repr

/-- An entry of `held`: what waits, the sequence number below which every load has returned and every store is performed before it
leaves, and the observer mask for whose classes that is (R52, R125). -/
structure HeldEntry where
  what : Held
  bound : Nat
  mask : BitVec 5 := 31
  /-- the bounds of the `fence.rel` words before it, by class (R132) -/
  fence : Vector Nat 5 := Vector.replicate 5 0
deriving DecidableEq, Repr

/-- A message in a core's send queue (R197). -/
structure SendEntry where
  r : Rec
  /-- flit kind (R144) -/
  fk : Nat
  /-- target cluster -/
  cl : Nat
  /-- the core a `post` or `reply` is bound to -/
  core : Option Nat := none
  cslot : BitVec 7 := 0
  /-- full sequence number on a ranked channel; open-port CSEQ otherwise -/
  cseq : Nat := 0
  /-- the out-slot of a ranked channel -/
  out : Option Nat := none
  /-- release bound, and those of the `fence.rel` words before it, by class (R132) -/
  bound : Nat
  fence : Vector Nat 5 := Vector.replicate 5 0
  /-- untimed (R198, R199) -/
  untimed : Bool := false
  /-- the host takes it (R420) -/
  host : Bool := false
  /-- its observer mask, and its MTAG (R152, R383) -/
  mask : BitVec 5 := 0
  mtag : BitVec 8 := 0
  /-- it has an uncorrectable error, or a single-bit one, set by the environment (R403, R408) -/
  err : Bool := false
  soft : Bool := false
deriving DecidableEq, Repr

/-- What a row instruction does (R290 to R301). -/
inductive RowKind where
  /-- the family of R290, by its function code -/
  | arith (fn : Nat)
  | fma
  | cvt (dst : BitVec 4) (part : Nat)
  | qnt (part : Nat)
  | dq (part : Nat)
  /-- R296: 0 vrcp, 1 vrsq, 4 vexp2, 5 vlog2 -/
  | special (fn : Nat)
  | refine (half : Bool)
  /-- R298: 0 sum, 1 min, 2 max, 3 amax -/
  | red (fn : Nat)
  | scan
  | perm
  | ins
  | ext
  | bcast (j : Nat)
  | neur
deriving DecidableEq, Repr

/-- A row instruction in a core's vector queue (R282): what it does, its type, tiles and row; `frm`, the tag and
geometry of ta and the neuron CSRs at issue; its word, the word's address and its sequence number. -/
structure RowOp where
  kind : RowKind
  ty : BitVec 4
  d : BitVec 3
  a : BitVec 3
  b : BitVec 3 := 0
  row : BitVec 6
  frm : BitVec 3 := 0
  tag : BitVec 4 := 0
  geo : Bool := false
  np0 : Word := 0
  np1 : Word := 0
  np2 : Word := 0
  word : BitVec 32 := 0
  iaddr : Word := 0
  seq : Nat := 0
deriving DecidableEq, Repr

/-- A row instruction that has started: the rows, sidecars and CSR values it will write (R284). -/
structure RowRun where
  op : RowOp
  rows : List (Nat × Row) := []
  /-- it writes part of its row and leaves an uncorrectable error in it -/
  part : Bool := false
  side : List (Nat × BitVec 160) := []
  flags : Flags := 0
  /-- the spikes of `vneur` (R301) -/
  spk : Option Word := none
  /-- the writing fails: CHECK (true) or POISON with a row (R302, R303) -/
  fail : Option (Bool × BitVec 6) := none
  due : Nat := 0
deriving DecidableEq, Repr

/-- A translation held by a TLB (R119): context, virtual page, leaf words 0 and 1 and level. -/
structure TlbEntry where
  ctx : Nat
  /-- virtual address divided by 64 KiB -/
  vpn : Nat
  w0 : Word
  w1 : Word
  lvl : Nat
deriving DecidableEq, Repr

/-- How far a command of an engine queue has come (R40 to R44, R312). -/
inductive QStage where
  /-- queued; not yet examined at the head -/
  | queued
  /-- at the head, waiting on its counter -/
  | hold
  /-- at the head, its counter condition met -/
  | armed
  /-- the array takes it (R319) -/
  | granted
  | running
  /-- complete; its ordered addition waits for earlier ones (R41) -/
  | complete
  /-- its addition is under way -/
  | adding
  /-- its element is ready and waits for its place in the queue's order -/
  | done
deriving DecidableEq, Repr

/-- An entry of an engine queue (R40, R44, R312): the command word, its serial, the `ctrbase`, mode and context
captured at the push, the pushing task's epoch and issuer, and the push's sequence number; or a release marker
(R311). -/
structure QEntry where
  cw : BitVec 256 := 0
  ser : BitVec 16 := 0
  ctrb : Word := 0
  mode : Mode := .task
  ctx : Nat := 0
  epoch : Nat := 0
  issuer : BitVec 16 := 0
  /-- the tick of the pushing task (R390) -/
  tick : Nat := 0
  seq : Nat := 0
  marker : Bool := false
  /-- its words are known (R315) -/
  known : Bool := true
  /-- it was pushed by `pushm`, whose reads are request `seq` (R315, R335) -/
  multi : Bool := false
  /-- its record has an uncorrectable error, or a single-bit one, set by the environment (R403, R408) -/
  err : Bool := false
  soft : Bool := false
  /-- it has entered the queue: its release condition holds (R318) -/
  entered : Bool := false
  stage : QStage := .queued
  waitPa : Option Nat := none
  sigPa : Option Nat := none
  /-- result element -/
  elem : Word := 0
  /-- bytes to be written at completion: address, number, value; then scale slots: group, slot mask, group word (R138) -/
  writes : List (Nat × Nat × Nat) := []
  slotWrites : List (Nat × Nat × Nat) := []
  /-- what it reads from memory, address and number of bytes: its requests leave when it starts (R163) -/
  reads : List (Nat × Nat) := []
  /-- a number of its own once it runs; requests, transfers or exchanges still open; the rows discarded so far, as row and
  destination, and the rows sent; the drain counter; the scale word of a `wstq` whose exchange is made; the layout record
  as it read at its start (R341, R349, R352, R359) -/
  uid : Nat := 0
  openWork : Nat := 0
  dropped : List (Nat × Nat) := []
  layout : Row := 0
  rows : Nat := 0
  drain : Option Nat := none
  xd : Option (BitVec 20) := none
  /-- cycle of its completion once it runs -/
  due : Nat := 0
deriving DecidableEq, Repr

/-- One engine queue of a core and its result FIFO (R13, R312). -/
structure Queue where
  entries : List QEntry := []
  fifo : List Word := []
  /-- serial of the next command -/
  serial : BitVec 16 := 0
  /-- sequence numbers of `pop` words that wait, oldest first (R316) -/
  pops : List Nat := []
deriving DecidableEq, Repr

/-- A tile's descriptor (R279). -/
structure TileDesc where
  geo : Bool := false
  tag : BitVec 4 := 0
deriving DecidableEq, Repr

/-- One core (R13, R84, R88, R89, R364). -/
structure Core where
  regs : Vector Word 32 := Vector.replicate 32 0
  pc : Word := 0
  run : Run := .free
  mode : Mode := .task
  intrap : Bool := false
  pmode : BitVec 2 := 0
  fpen : BitVec 6 := 0
  ctx : Nat := 0
  /-- word 0 of the record that started the task -/
  head : Word := 0
  now : Word := 0
  /-- the running term (R183, R200) -/
  term : Word := 0
  tl : BitVec 16 := 0
  src : BitVec 12 := 0
  chan : BitVec 12 := 0
  gang : BitVec 16 := 0
  issuer : BitVec 16 := 0
  keyList : List (BitVec 16) := []
  keys : BitVec 4 := 0
  fflags : Flags := 0
  frm : BitVec 3 := 0
  ctrbase : Word := 0
  nparam0 : Word := 0
  nparam1 : Word := 0
  nparam2 : Word := 0
  nparam3 : Word := 0
  spk : Word := 0
  cause : Word := 0
  epc : Word := 0
  tval : Word := 0
  tinfo : Word := 0
  tinfoh : Word := 0
  scratch : Word := 0
  /-- `budget` when it was last set, the cycle it was set, the saved remainder, and whether WDOG was nonzero -/
  budget : Nat := 0
  budgetAt : Nat := 0
  savedBudget : Nat := 0
  wdogOn : Bool := false
  caddn : BitVec 16 := 0
  pend : Nat := 0
  /-- the `bar` word that has arrived and still waits, and the one of the task that a trap has interrupted (R243) -/
  arrived : Option Word := none
  arrivedSaved : Option Word := none
  openCount : BitVec 6 := 0
  entryTag : Nat := 0
  entryCluster : Nat := 0
  /-- base address and inbox number of an INLINE record (R213) -/
  inline : Option (Word × Nat) := none
  rows : Map Row := []
  side : Map (BitVec 160) := []
  desc : Vector TileDesc 8 := Vector.replicate 8 {}
  /-- 8-byte words of tile rows and sidecar slots with an uncorrectable error, by row times 8 plus the word or slot (R303,
  R326), set by the environment (R403) -/
  badRows : List Nat := []
  badSide : List Nat := []
  /-- the same with a single-bit error (R403) -/
  softRows : List Nat := []
  softSide : List Nat := []
  /-- scalar registers, and 32 plus the number of a CSR, with an uncorrectable and with a single-bit error, set by the
  environment (R403) -/
  badRegs : List Nat := []
  softRegs : List Nat := []
  sendQ : List SendEntry := []
  mtag : BitVec 8 := 0
  unreceipted : List (BitVec 8) := []
  /-- sequence number of the next word that needs one -/
  seq : Nat := 0
  outs : Map OutRes := []
  /-- stores not yet performed for cores: the entries of R126 each holds; and those performed for cores, with the observer classes that
  they are not yet performed for (R125) -/
  stores : Map Nat := []
  lags : Map (BitVec 5) := []
  held : Map HeldEntry := []
  deferred : List Deferred := []
  /-- the bound of the latest `fence.rel`, and of the latest that names each class (R132) -/
  relFence : Nat := 0
  relAll : Vector Nat 5 := Vector.replicate 5 0
  rowQ : List RowOp := []
  rowRun : List RowRun := []
  qm : Queue := {}
  qw : Queue := {}
  qb : Queue := {}
  epoch : Nat := 0
  /-- checker mismatches to come, set by the environment (R86, R302) -/
  upset : Nat := 0
  rowUpset : Nat := 0
  /-- the word at `pc` has mismatched once and is executed once more (R86) -/
  retry : Bool := false
  tlbiLeft : Nat := 0
  tlb : List TlbEntry := []
  /-- cycle before which no word issues (R85) -/
  ready : Nat := 0
  /-- the next number of a request to each memory target (R163) -/
  mseqs : Map Nat := []
  /-- the `gang` of each arrival under way to a barrier entry, oldest first (R241) -/
  arrivals : List (BitVec 16) := []
deriving DecidableEq, Repr

/-! ### A cluster -/

/-- The states of a timeline slot (R170). -/
inductive TlState where
  | free
  | idle
  | wait
  | head
  | run
  | dying
  | retired
deriving DecidableEq, Repr

/-- A timeline slot (R170); `blocked` is the cycle since which its candidate `who` has been blocked (R187),
`ovmin` its overflow-minimum register and `recomp` that it is being recomputed (R153, R154). -/
structure Timeline where
  defh : Word := 0
  intake : Word := 0
  last : Word := 0
  evdrop : BitVec 16 := 0
  opn : Bool := false
  st : TlState := .free
  gen : BitVec 2 := 0
  blocked : Option Nat := none
  who : Option Nat := none
  ovmin : Word := 0xFFFFFFFFFFFFFFFF
  recomp : Bool := false
deriving DecidableEq, Repr

/-- An in-slot (R174): `st` 0 free, 1 open, 2 orphaned. The sender of a host or fabric channel is 0x3FF. -/
structure InSlot where
  h : Word := 0
  pseq : Nat := 0
  e : Nat := 0
  pval : Word := 0xFFFFFFFFFFFFFFFF
  v : Bool := false
  st : Nat := 0
  bulk : Bool := false
  rank : Nat := 0
  tls : Nat := 0
  scl : Nat := 0
  sout : Nat := 0
  /-- cycle of the last ask, none before the first (ATIM), and the cycle since which it has blocked the candidate (R186) -/
  asked : Option Nat := none
  since : Option Nat := none
  /-- the promise of END has been applied (R179) -/
  ended : Bool := false
  /-- numbers of events dropped and of dead letters that E has not reached (R194, R196) -/
  gaps : List Nat := []
  /-- generation of the timeline it was opened to (R196) -/
  gen : BitVec 2 := 0
deriving DecidableEq, Repr

/-- An out-slot (R175): `st` 0 free, 1 opening, 2 open, 3 closing. -/
structure OutSlot where
  v : Bool := false
  st : Nat := 0
  bulk : Bool := false
  askp : Bool := false
  rank : Nat := 0
  own : Nat := 0
  dcl : Nat := 0
  din : Nat := 0
  q : Nat := 0
  l : Nat := 0
  old : Nat := 0
  nxt : Nat := 0
  lastp : Word := 0
  /-- sequence numbers receipted out of order -/
  acked : List Nat := []
deriving DecidableEq, Repr

/-- How far a record in a message unit has come. -/
inductive ItemState where
  | filling
  /-- complete, its number ahead of E (R178) -/
  | gated
  /-- counted, or an untimed record that waits for an entry -/
  | pending
  /-- in a task entry -/
  | entered
  /-- its handler runs from the slot (R213) -/
  | inlined
  /-- a submitted record whose release condition does not yet hold (R227) -/
  | submitting
deriving DecidableEq, Repr

/-- A record in an inbox slot, a divert entry or the event store (R151 to R156, R194). -/
structure Item where
  /-- 0 REQ, 1 RPL, 3 SYS -/
  cls : Nat := 0
  ev : Bool := false
  divert : Bool := false
  src : Nat := 0
  mtag : BitVec 8 := 0
  mask : BitVec 4 := 0
  r : Rec := Vector.replicate 8 0
  st : ItemState := .filling
  /-- the timeline slot and generation addressed, none when untimed -/
  tl : Option (Nat × BitVec 2) := none
  inSlot : Nat := 0
  rank : Nat := 15
  seq : Nat := 0
  /-- order of completion -/
  order : Nat := 0
  core : Option Nat := none
  ctx : Nat := 0
  /-- it is the continuation that a trap handler's `yield` wrote: it runs in task mode (R110) -/
  inTask : Bool := false
  /-- it came by a channel declared bulk (R159) -/
  bulk : Bool := false
  /-- it has an uncorrectable error, or a single-bit one, set by the environment (R403, R408) -/
  err : Bool := false
  soft : Bool := false
deriving DecidableEq, Repr

/-- The phases of a task entry (R207). -/
inductive Phase where
  | acq
  | cond
  | ready
  /-- chosen as a GANG16 and waiting for the quad (R237) -/
  | quad
deriving DecidableEq, Repr

/-- A task entry (R206, R207). -/
structure TEntry where
  item : Nat
  ctx : Nat
  phase : Phase := .acq
  keys : List (BitVec 16) := []
  granted : Nat := 0
  tries : Nat := 0
  /-- its request was refused, and is made again in this cycle (R217) -/
  retryAt : Option Nat := none
  met : BitVec 2 := 0
  poll : BitVec 2 := 0
  /-- the counter of each condition once it is registered, by physical address (R221) -/
  watch : Vector (Option Nat) 2 := Vector.replicate 2 none
  /-- cycle of entry into ACQ or COND with a key held -/
  since : Option Nat := none
  noted : Bool := false
  ready : Nat := 0
  /-- cycles deferred as bulk, and since when -/
  defd : Nat := 0
  defAt : Option Nat := none
  order : Nat := 0
deriving DecidableEq, Repr

/-- A barrier entry (R240). -/
structure Barrier where
  v : Bool := false
  ph : Bool := false
  shape : Nat := 0
  exit : BitVec 16 := 0
  nxt : BitVec 16 := 0
  arr : BitVec 16 := 0
  nph : BitVec 32 := 0
  wt : BitVec 16 := 0
deriving DecidableEq, Repr

/-- An accumulator's state word (R310): valid, owner core, type, overflow and release marks. -/
structure AccDesc where
  v : Bool := false
  ocore : Nat := 0
  aty : BitVec 4 := 0
  ovf : Bool := false
  rel : Bool := false
deriving DecidableEq, Repr

/-- A flit (R143): AGE and SUB are `age` in cycles; the payload is that of R146, R178, R189, R226 and R351. -/
structure Flit where
  age : Nat := 0
  src : Nat
  dr : Nat
  dp : Nat
  fk : Nat
  fi : Nat := 0
  cslot : BitVec 7 := 0
  cseq : BitVec 8 := 0
  mtag : BitVec 8 := 0
  ctx : Nat := 0
  pay : BitVec 128 := 0
  /-- whether a message is untimed, and the core it is bound to, which the layout of R143 does not place -/
  untimed : Bool := false
  core : Option Nat := none
  /-- the sender as `src` names it, for a message from outside the device and for a note (R89, R363) -/
  sender : Option Nat := none
  /-- MSEQ, or DOP of a DESK flit, and ERRS (R143, R146, R226) -/
  mseq : BitVec 6 := 0
  errs : Bool := false
  /-- the request an MREQ or MRSP flit belongs to, or the transfer of an MCAST flit, by the model's number -/
  req : Option Nat := none
  /-- what a DESK, SURV or NAK flit does where it is ejected -/
  ev : Option Event := none
  /-- the device a flit on a channel to another device is bound for (R423) -/
  abroad : Option Nat := none
  /-- it has an uncorrectable error, or a single-bit one, set by the environment (R403, R408) -/
  err : Bool := false
  soft : Bool := false
  /-- input port, the cycle it is presented, and whether it stands in the receive stage of a bridge link (R162) -/
  port : Nat := 0
  due : Nat := 0
  kept : Bool := false
deriving DecidableEq, Repr

/-- A message injected and not yet receipted (R152, R157, R178). -/
structure OpenSend where
  src : Nat
  mtag : BitVec 8
  /-- owning core of an MTAG of R152 -/
  core : Option Nat
  out : Option Nat
  seq : Nat
  /-- the cycle its first flit was injected in (R157) -/
  at_ : Option Nat
  ctx : Nat
deriving DecidableEq, Repr

/-- One cluster (R12). -/
structure Cluster where
  ctx : Option Nat := none
  tls : Map Timeline := []
  ins : Map InSlot := []
  outs : Map OutSlot := []
  inbox : Map Item := []
  entries : Map TEntry := []
  /-- source last served by the dispatcher: 0-15 timelines, 16 untimed (R209) -/
  rr : Nat := 16
  /-- tag of the GANG4 whose hold is in force (R211) -/
  gang4 : Option Nat := none
  barrier : Barrier := {}
  /-- accumulator rows of 64 elements of 4 bytes: accumulator times 64 plus the row (R310) -/
  acc : Map (BitVec 2048) := []
  accd : Vector AccDesc 4 := Vector.replicate 4 {}
  badAcc : List Nat := []
  softAcc : List Nat := []
  sumUpset : Nat := 0
  lease : Option Nat := none
  leaseCount : Nat := 0
  leaseLast : Nat := 3
  leaseAt : Nat := 0
  /-- cycle of the last start of the array, and the cycle from which the next may come (R307, R319) -/
  accBegun : Nat := 0
  /-- the core last served by the vector unit, and the cycle from which the unit may start -/
  vecLast : Nat := 3
  vecAt : Nat := 0
  /-- the core whose command the bulk sequencer took last (R274) -/
  bulkLast : Nat := 3
  tlb : List TlbEntry := []
  ccache : List (Nat × Nat × Row) := []
  inject : List Flit := []
  stop : Bool := false
  /-- cycle before which the throttle lets no flit in (R158) -/
  injAt : Nat := 0
  openSends : List OpenSend := []
  umtag : BitVec 8 := 0
deriving DecidableEq, Repr

/-! ### Routers, walkers, slices -/

/-- A night-log entry of 32 bytes (R409): four words. -/
abbrev LogEntry := Vector Word 4

/-- CNT, BLK and MSENT of an interface for a context (R188), and its `mer`. -/
structure Surv where
  cnt : Int := 0
  blk : Bool := false
  msent : Word := 0xFFFFFFFFFFFFFFFF
  /-- `mer` as this interface last set it (R190) -/
  mer : Word := 0
deriving DecidableEq, Repr

/-- One router (R141, R158, R409); keys 192, 193 are the PCIe links and 194 to 217 the fabric ports, which keep
survey counts alone. -/
structure Router where
  level : Nat := 0
  left : Nat := 0
  deflected : Nat := 0
  frac : Nat := 0
  winAt : Nat := 0
  flits : List Flit := []
  log : Map LogEntry := []
  logHead : Nat := 0
  logWrap : Bool := false
  surv : Map Surv := []
  /-- the quad barrier entry and quad holds of a compute router (R237, R240): (cluster, tag) in order -/
  barrier : Barrier := {}
  holds : List (Nat × Nat) := []
  quadHeld : Bool := false
deriving DecidableEq, Repr

/-- A record held by a walker's catalogue cache (R339, R341): whose it is, by handle, and its virtual and physical address. -/
structure CatCopy where
  va : Word := 0
  ctx : Nat
  handle : Nat
  pa : Nat
  row : Row
deriving DecidableEq, Repr

/-- One walker (R339, R351): its TLB, its catalogue cache, the generation accepted for each group id, its count of discards, and the
core whose command it started last. -/
structure Walker where
  tlb : List TlbEntry := []
  records : List CatCopy := []
  accept : Map (BitVec 2) := []
  mcdrop : Nat := 0
  last : Nat := 15
  /-- the number of its next request to each target (R163) -/
  mseqs : Map Nat := []
  /-- flits that wait for a local port (R141) -/
  inject : List Flit := []
deriving DecidableEq, Repr

/-- A key entry of a reserve desk (R218) with its hold queue in order: (cluster, tag) of each request. -/
structure KeyEntry where
  ctx : Nat
  key : BitVec 16
  hcl : Nat
  htag : Nat
  hrun : Bool := false
  park : Bool := false
  queue : List (Nat × Nat) := []
deriving DecidableEq, Repr

/-- A watch (R222), and the context whose condition it is. -/
structure Watch where
  ctx : Nat
  pa : Nat
  target : BitVec 32
  handle : BitVec 16
  cluster : Nat
  tag : Nat
  cond : Nat
deriving DecidableEq, Repr

/-- A holding line of deterministic addition (R268): context, word, width, type, spilled, poisoned, contributions,
flags, and the entries (issuer index, value) in drain order. -/
structure HoldLine where
  ctx : Nat
  pa : Nat
  wd : Nat
  ty : BitVec 4
  sp : Bool := false
  pois : Bool := false
  ncon : Nat := 0
  flags : Flags := 0
  entries : List (Nat × Nat) := []
  /-- it has one of the bank's holding lines (R269, R273) -/
  holds : Bool := true
deriving DecidableEq, Repr

/-- One bank slice (R14, R253, R254). -/
structure Slice where
  win : Nat := 0
  keys : List KeyEntry := []
  watches : List Watch := []
  lines : List HoldLine := []
  spills : BitVec 32 := 0
  /-- flits that wait for its local port, and the cycle before which the throttle lets none in (R141, R158) -/
  inject : List Flit := []
  injAt : Nat := 0
deriving DecidableEq, Repr

/-! ### Requests in flight -/

/-- What a memory request asks (R146): OPC 0 to 9. -/
inductive ReqKind where
  | load
  | store
  | amo (fn : BitVec 4) (w32 : Bool)
  | cas (w32 : Bool)
  | rowLoad
  | rowStore
  | cadd
  | dadd (ty : BitVec 4)
  | dseal
  /-- the slots written (R138) -/
  | scale (slots : BitVec 3)
  /-- 32 bytes of a command word (R315): the queue -/
  | cmd (q : BitVec 2)
  /-- a scale group of a tile load, an ordinary 8-byte load of its own (R146) -/
  | group
  /-- at most a line read, or written, for a command of a core's queue, by its number; a write of scale words names the slots (R138, R163) -/
  | engRead (core q uid : Nat)
  | engWrite (core q uid : Nat) (slots : Option (BitVec 3))
deriving DecidableEq, Repr

/-- A scale word of a row (R137): its sidecar slot, the group's physical and virtual address, its slot in the
group. -/
structure GroupRef where
  j : Nat
  pa : Nat
  va : Word
  slot : Nat
  /-- its page is a K page (R124) -/
  kpage : Bool := false
deriving DecidableEq, Repr

/-- A memory request of a core or an engine, which is its source (R145): where it stands (0 held, 1 on its way, 2 answered, 3 back at its core and waiting for the
other accesses of its row), how many of its flits, or of its response's, have still to arrive, its number among the core's
requests to its target (R163), its bytes, operands, answer and status (R146, R427), and the cycle in which its first flit
was injected (R157). -/
structure MReq where
  core : Nat
  seq : Nat
  kind : ReqKind
  pa : Nat
  bytes : Nat := 8
  data : Word := 0
  data2 : Word := 0
  row : Row := 0
  /-- where a row's scale words lie (R137) -/
  groups : List GroupRef := []
  /-- the address a failure of it is reported at (R139) -/
  badAt : Word := 0
  stage : Nat := 0
  left : Nat := 0
  mseq : Nat := 0
  status : BitVec 4 := 0
  bad : Bool := false
  ctx : Nat := 0
  issuer : BitVec 16 := 0
  dest : Dest := .none
  at_ : Option Nat := none
  /-- the cluster through whose port a walker's request left (R141, R157) -/
  via : Option Nat := none
  /-- the tick of its task (R390) -/
  tick : Nat := 0
  kpage : Bool := false
deriving DecidableEq, Repr

/-- A request of the message unit with a result (R195, R202): what was asked and the answer. -/
inductive Ask where
  | tlnew (a b : Word)
  | chopen (out : Nat) (a b : Word) (adv : Word)
  | kquery (key : BitVec 16)
deriving DecidableEq, Repr

/-- An asynchronous query of a core. -/
structure Query where
  core : Nat
  seq : Nat
  what : Ask
  answer : Option Word := none
  d : BitVec 5
  ctx : Nat
  now : Word := 0
  code : Nat := 0
  din : Nat := 0
deriving DecidableEq, Repr

/-- A multicast transfer on its way (R351): the receiving compute router, the command it belongs to, what it writes,
its group id and generation. -/
structure Mcast where
  dst : Nat
  core : Nat
  uid : Nat
  ctx : Nat
  /-- the row of the command and the place of its destination in the list, which DROPS counts (R349) -/
  row : Nat
  port : Nat
  pa : Nat
  n : Nat
  v : Nat
  gid : Nat
  gen : BitVec 2
  /-- it is a scale row and travels in 2 flits; the flits of it still to arrive, and whether a fence has refused it (R351, R360) -/
  half : Bool := false
  left : Nat := 0
  refused : Bool := false
  /-- it belongs to a group and counts at its destination (G of R351); a `wload` or `wgather` writes with G 0 -/
  grouped : Bool := true
deriving DecidableEq, Repr

/-- A store that has reached its home, a request's number, and that is not yet performed for every class (R125, R396): its core and
sequence number, where it wrote, the bytes that stood there, and the classes it is not yet performed for. -/
structure Lag where
  id : Nat
  core : Nat
  seq : Nat
  pa : Nat
  n : Nat
  old : Nat
  mask : BitVec 5 := 30
deriving DecidableEq, Repr

/-- A bridge link (R405, R411). -/
structure Link where
  rate : Nat := 0
  down : Bool := false
  retrain : Bool := false
  forced : Bool := false
  replays : Nat := 0
  winAt : Nat := 0
  tries : Nat := 0
  /-- the cycle until which the upward and the downward direction replays (R161) -/
  upTill : Nat := 0
  downTill : Nat := 0
  /-- the cycle in which the retraining under way ends (R405); the flits of the replay buffer that wait for it, oldest first,
  each with the router it is bound for and the cycle it was held in (R161) -/
  trainAt : Nat := 0
  buffer : List (Nat × Flit × Nat) := []
deriving DecidableEq, Repr

/-! ### Contexts -/

/-- The life of a context (R377). -/
inductive CtxState where
  | empty
  | running
  | freezing
  | frozen
  | thawing
deriving DecidableEq, Repr

/-- A record in the overflow queue: position, cluster and the item it was (R153, R156). -/
structure OvRec where
  pos : Nat
  cluster : Nat
  item : Item
  order : Nat
deriving DecidableEq, Repr

/-- An entry of a backing inbox: a message, or a one-flit entry as the step that applies it at thaw (R378, R384). -/
inductive BackEntry where
  | message (cluster : Nat) (m : Item)
  | flit (e : Event)
deriving DecidableEq, Repr

/-- A declared page of a checkpoint: its virtual and physical address and the address of its leaf (R388, R389). -/
structure CkPage where
  va : Nat
  pa : Nat
  leaf : Nat
deriving DecidableEq, Repr

/-- A checkpoint in progress (R388 to R392): its tick and number, the declared pages, the pages of the archive (the index
first) and its capacity, the free shadow pages, the pages preserved (page number, shadow page) and archived, whether the
archive engine runs, the page it takes next, and the images written. -/
structure Ckpt where
  t : Nat
  number : Word
  pages : List CkPage
  arch : List Nat
  acap : Nat
  shadow : List Nat
  preserved : List (Nat × Nat) := []
  archived : List Nat := []
  started : Bool := false
  next : Nat := 0
  count : Nat := 0
deriving DecidableEq, Repr

/-- A task stopped by a freeze: its cluster, the cores of its members in member order, its CONT record (R380). -/
structure SavedTask where
  cluster : Nat
  cores : List Nat
  gang : Bool
  r : Rec
  /-- it is a gang of a quad, which has 16 blocks (R381) -/
  quad : Bool := false
deriving DecidableEq, Repr

/-- A context (R362, R377). -/
structure Ctx where
  st : CtxState := .empty
  ptroot : Word := 0
  row : Nat := 0
  col : Nat := 0
  height : Nat := 0
  width : Nat := 0
  ctrb : Word := 0
  catbase : Word := 0
  tvec : Word := 0
  suph : Word := 0
  supcl : Word := 0
  wdog : Nat := 0
  dfpen : BitVec 6 := 0
  lopen : Word := 0
  oqbase : Word := 0
  oqcap : Word := 0
  dlbase : Word := 0
  dlcap : Word := 0
  dlhead : Word := 0
  dltail : Word := 0
  dlcnt : Word := 0
  dldrop : Word := 0
  save : Word := 0
  nlost : Word := 0
  cknum : Word := 0
  qreq : Bool := false
  mer : Word := 0
  ovf : List OvRec := []
  ovfStanding : Bool := false
  /-- survey token: visit 0 to 191, and its payload -/
  tokOn : Bool := false
  tokPos : Nat := 0
  tokMin : Word := 0xFFFFFFFFFFFFFFFF
  tokSum : Int := 0
  tokBlack : Bool := false
  tokStart : Nat := 0
  tokStalled : Bool := false
  /-- it stands where a freeze stopped it (R191) -/
  tokHeld : Bool := false
  found : Option Word := none
  publishing : Option Word := none
  /-- freeze: end of the grace period, saved tasks, backing inbox, and what the freeze has taken out of the rectangle:
  clusters, cores, quad barrier entries and holds, walkers (R379, R383) -/
  graceEnd : Nat := 0
  saved : List SavedTask := []
  backing : List BackEntry := []
  bkcap : Nat := 0
  bkfull : Bool := false
  images : Map Cluster := []
  cores : Map Core := []
  quads : Map Router := []
  walkers : Map Walker := []
  ckpt : Option Ckpt := none
deriving DecidableEq, Repr

/-! ### Host, fabric, machine registers -/

/-- A VF page (R418 to R421): request ring, write counter, note. -/
structure Vf where
  rrbase : Word := 0
  rrcap : Word := 0
  rrhead : Word := 0
  rrtail : Word := 0
  hpwcnt : Word := 0
  note : Word := 0
  bind : Word := 0
deriving DecidableEq, Repr

/-- A route entry of a function (R416), its channel's next sequence number and the link that posted first (R417). -/
structure Route where
  w : Word := 0
  seq : Nat := 0
  link : Option Nat := none
  /-- the horizon of a channel of the PF's window, whose in-slot is firmware's (R417, log 8) -/
  h : Word := 0
deriving DecidableEq, Repr

/-- A reduction window (R424): its descriptor words, the generation accepted, the contributions held (element offset,
device, value), the elements written, the contributions discarded. -/
structure Window where
  desc : List Word
  gen : BitVec 2 := 0
  got : List (Nat × Nat × Nat) := []
  done : List Nat := []
  drops : Nat := 0
deriving DecidableEq, Repr

/-- The machine. -/
structure State where
  cycle : Nat := 0
  cur : Nat := 0
  agenda : List (Nat × Event) := []
  fresh : Nat := 0
  nextId : Nat := 0
  mem : List Host.Cell := []
  poison : List Nat := []
  /-- words with a single-bit error, set by the environment (R403, R404) -/
  soft : List Nat := []
  cores : Map Core := []
  clusters : Map Cluster := []
  routers : Map Router := []
  walkers : Map Walker := []
  slices : Map Slice := []
  ctxs : Map Ctx := []
  reqs : Map MReq := []
  queries : List Query := []
  mcasts : Map Mcast := []
  links : Map Link := []
  /-- slice registers (R255): SLSEL, SLCOLS and the pending column switch -/
  slsel : Nat := 0
  slcols : BitVec 4 := 15
  slbusy : Bool := false
  slcolsNew : Option (BitVec 4) := none
  slwinNew : Map Nat := []
  /-- night log and link registers (R411) -/
  nlsel : Nat := 0
  frz : Bool := false
  nlidx : Nat := 0
  lnksel : Nat := 0
  /-- containment registers (R411, R412) -/
  cnsel : Nat := 0
  cnrect : Map Word := []
  cnctl : Map Word := []
  /-- the rectangles whose containment reset is made and whose end is due (R412) -/
  cnapplied : List Nat := []
  cnnaks : Map Nat := []
  /-- host registers (R416 to R421) and routes by function * 1024 + entry -/
  vfs : Map Vf := []
  routes : Map Route := []
  devReady : Bool := false
  fnbase : Word := 0
  fncap : Word := 0
  fntail : Word := 0
  domid : Word := 0
  windows : Map Window := []
  /-- the port table of the channels to and from other devices: the device and the cluster and slot there of a context's in-slot
  (context times 2^18 plus cluster times 256 plus the slot) or of an out-slot (128 more), and the messages a port has begun to take, with
  the flits that it has (R423) -/
  abroad : Map (Nat × Nat × Nat) := []
  taken : List (Nat × BitVec 8 × BitVec 4) := []
  throttled : Bool := false
  /-- the stores that engines may still not see, in the order they reached their homes (R396) -/
  lagging : List Lag := []
  /-- the thresholds of the throttle in 256ths: levels 1 to 3 entered, then left (R158) -/
  thr : Vector Nat 6 := #v[32, 64, 128, 16, 32, 64]
  /-- the records that have reached the firmware context by the PF's post window (R415, R417) -/
  fwPosts : List Rec := []
  /-- the step at hand reads or writes a slice that changes its window: it waits (R254) -/
  blocked : Bool := false
deriving DecidableEq, Repr

/-- A management core right after reset: firmware mode and firmware context (R143, R361). It runs from flash once PERST# is released
(R425, log 8). -/
def Core.management : Core := { mode := .firmware, ctx := 0xFF }

/-- The machine right after reset. -/
def State.reset : State :=
  { cores := [(0xB00, .management), (0xB01, .management), (0xB02, .management), (0xB03, .management)] }

end Sys2Proof.Machine
end

