-- ==== Sys2Proof/Machine/Geometry.lean ====
section
/-! DEFINITION. Where each unit stands: routers, clusters, slices and rectangles (R10, R11, R141, R142). -/

namespace Sys2Proof.Machine

open Sys2Proof

/-- The compute columns in ascending order (R11). -/
def computeCols : List Nat := [0, 1, 3, 4, 5, 7, 8, 10, 11, 12, 14, 15]

/-- The slice columns (R10). -/
def sliceCols : List Nat := [2, 6, 9, 13]

/-- The number of the router of a compute router index (R11, R142). -/
def routerOfCompute (i : Nat) : Nat := i / 12 * 16 + computeCols.getD (i % 12) 0

/-- The number of the router of a cluster. -/
def routerOfCluster (cl : Nat) : Nat := routerOfCompute (cl / 4)

/-- The number of the router of a slice. -/
def routerOfSlice (sl : Nat) : Nat := sl / 2 / 4 * 16 + sliceCols.getD (sl / 2 % 4) 0

/-- The position of a column in a list of columns, from `i` on. -/
def colPos (c : Nat) : Nat → List Nat → Option Nat
  | _, [] => none
  | i, d :: t => if c = d then some i else colPos c (i + 1) t

/-- The compute router index of a router number, none on a slice column (R11). -/
def computeOfRouter (r : Nat) : Option Nat :=
  if r < 192 then (colPos (r % 16) 0 computeCols).map (r / 16 * 12 + ·) else none

/-- The slice-router index of a router number (R11). -/
def sliceOfRouter (r : Nat) : Option Nat :=
  if r < 192 then (colPos (r % 16) 0 sliceCols).map (r / 16 * 4 + ·) else none

/-- The router a source stands at (R145): the spec names none for PCIe links, fabric ports and management cores; the model
gives router 0 to the first two and to management cores 0 and 1, which R9 puts on floor die A, and router 96 to cores 2 and
3, which it puts on floor die B (log 9). -/
def routerOfSrc (src : Nat) : Nat :=
  if src < 2304 then routerOfCluster (src / 4)
  else if 0x900 ≤ src && src < 0x990 then routerOfCompute (src - 0x900)
  else if 0xA00 ≤ src && src < 0xA60 then routerOfSlice (src - 0xA00)
  else if 0xE00 ≤ src && src < 0xEC0 then src - 0xE00
  else if src = 0xB02 || src = 0xB03 then 96
  else 0

/-- The port from a router to another one of its row or column (R141); none when it is neither. -/
def portTo (r q : Nat) : Option Nat :=
  if r = q then none
  else if r / 16 = q / 16 then some (if q % 16 < r % 16 then q % 16 else q % 16 - 1)
  else if r % 16 = q % 16 then some (15 + (if q / 16 < r / 16 then q / 16 else q / 16 - 1))
  else none

/-- The router a row or column port leads to (R141). -/
def portDest (r p : Nat) : Nat :=
  if p < 15 then r / 16 * 16 + (if p < r % 16 then p else p + 1)
  else (if p - 15 < r / 16 then p - 15 else p - 14) * 16 + r % 16

/-- The bridge link between two routers of one column on the two floor dies, as column, upper and lower row;
none on a die (R9). -/
def bridgeLink (r q : Nat) : Option Nat :=
  if r % 16 = q % 16 && (r / 16 < 6) != (q / 16 < 6) then
    some (r % 16 * 36 + min (r / 16) (q / 16) * 6 + (max (r / 16) (q / 16) - 6))
  else none

/-- The cycles of a link (R142). -/
def linkCycles (r q : Nat) : Nat :=
  if (bridgeLink r q).isSome then 6
  else
    let span := if r / 16 = q / 16 then max (r % 16) (q % 16) - min (r % 16) (q % 16)
      else max (r / 16) (q / 16) - min (r / 16) (q / 16)
    if span ≤ 4 then 1 else if span ≤ 9 then 2 else 3

/-- Whether a compute router index lies in a context's rectangle (R57). -/
def Ctx.hasCompute (x : Ctx) (i : Nat) : Bool :=
  i < 144 && x.row ≤ i / 12 && i / 12 < x.row + x.height && x.col ≤ i % 12 && i % 12 < x.col + x.width

/-- Whether a cluster lies in a context's rectangle. -/
def Ctx.hasCluster (x : Ctx) (cl : Nat) : Bool := cl < 576 && x.hasCompute (cl / 4)

/-- The clusters of a context, by compute router row-major, then local port (R57). -/
def Ctx.clusterList (x : Ctx) : List Nat := (List.range 576).filter x.hasCluster

/-- The cluster of an index within the context (R57). -/
def Ctx.clusterAt (x : Ctx) (i : Nat) : Nat :=
  ((x.row + i / 4 / max x.width 1) * 12 + x.col + i / 4 % max x.width 1) * 4 + i % 4

/-- RECT of the descriptor (R362). -/
def Ctx.rect (x : Ctx) : Word := Word.of (x.row + x.col * 16 + (x.height - 1) * 256 + (x.width - 1) * 4096)

end Sys2Proof.Machine
end

