-- ==== Sys2Proof/Machine/Memory.lean ====
section
/-! DEFINITION. Memory by physical address: one list of bytes in canonical form (addresses rising, no entry equal
to what an unlisted byte reads as), and the poison of 8-byte words (R3, R113, R260). -/

namespace Sys2Proof.Machine

open Sys2Proof

/-- What a byte that nothing has written reads as (log 3). -/
def unlisted : Byte := 0

/-- One byte of a memory. -/
def memGet (m : List Host.Cell) (a : Nat) : Byte :=
  match m with
  | [] => unlisted
  | (k, v) :: t => if k = a then v else memGet t a

/-- Entry into a rising list; the byte an unlisted address reads as is not listed. -/
def memSet (m : List Host.Cell) (a : Nat) (b : Byte) : List Host.Cell :=
  match m with
  | [] => if b = unlisted then [] else [(a, b)]
  | (k, v) :: t =>
    if a < k then (if b = unlisted then (k, v) :: t else (a, b) :: (k, v) :: t)
    else if a = k then (if b = unlisted then t else (a, b) :: t)
    else (k, v) :: memSet t a b

/-- The canonical form, from address `lo` on. -/
def memFrom (lo : Nat) (m : List Host.Cell) : Bool :=
  match m with
  | [] => true
  | (k, v) :: t => lo ≤ k && v != unlisted && memFrom (k + 1) t

/-- The canonical form of memory. -/
def Memory.wf (m : List Host.Cell) : Bool := memFrom 0 m

/-- `n` bytes at `a`, little-endian (R3). -/
def memRead (m : List Host.Cell) (a : Nat) : Nat → Nat
  | 0 => 0
  | n + 1 => (memGet m a).toNat + 256 * memRead m (a + 1) n

/-- The low `n` bytes of `v` written at `a`, little-endian (R3). -/
def memWrite (m : List Host.Cell) (a v : Nat) : Nat → List Host.Cell
  | 0 => m
  | n + 1 => memWrite (memSet m a (BitVec.ofNat 8 v)) (a + 1) (v / 256) n

/-- Bytes written from a list. -/
def memBytes (m : List Host.Cell) (a : Nat) : List Byte → List Host.Cell
  | [] => m
  | b :: t => memBytes (memSet m a b) (a + 1) t

/-- A rising list of numbers with `k` in it. -/
def setAdd (k : Nat) : List Nat → List Nat
  | [] => [k]
  | j :: t => if k < j then k :: j :: t else if k = j then j :: t else j :: setAdd k t

/-- Whether any of the `n` bytes at `a` lies in a poisoned word (R260). -/
def State.poisoned (s : State) (a n : Nat) : Bool :=
  s.poison.any fun w => a / 8 ≤ w && w ≤ (a + n - 1) / 8 && n != 0

/-- The 8-byte words written whole by `n` bytes at `a` lose their poison; one written in part keeps it (R260). -/
def State.clean (s : State) (a n : Nat) : State :=
  { s with poison := s.poison.filter fun w => !(a ≤ 8 * w && 8 * w + 8 ≤ a + n) }

/-- `n` bytes at `a` as a number. -/
def State.readMem (s : State) (a n : Nat) : Nat := memRead s.mem a n

/-- A store to some bytes in the order of their location: what an earlier one wrote there is performed for every class, since a later
value has taken its place (R125). -/
def Lag.after (l : Lag) (a n : Nat) : Lag := if l.pa < a + n && a < l.pa + l.n then { l with n := 0 } else l

/-- A store of `n` bytes at `a`: the bytes, and what it does to poison (R260). -/
def State.writeMem (s : State) (a n v : Nat) : State :=
  { s.clean a n with mem := memWrite s.mem a v n, lagging := s.lagging.map fun l => l.after a n }

/-- Whether a store stands at some of the bytes of another. -/
def Lag.meets (l o : Lag) : Bool := l.pa < o.pa + o.n && o.pa < l.pa + l.n

/-- Memory as a unit may see it, with the bytes that stood there before in place of some of the stores `l` that are not yet performed
for its class: which ones is a free value (R396, log 45). -/
def lagView (w : Word) : Nat → List Lag → List Host.Cell → List Host.Cell
  | _, [], m => m
  | i, l :: t, m => let m := lagView w (i + 1) t m; if w.getLsbD (i % 64) then memWrite m l.pa l.old l.n else m

/-- A row of 64 bytes. -/
def State.readRow (s : State) (a : Nat) : Row := BitVec.ofNat 512 (memRead s.mem a 64)

/-- A row of 64 bytes written. -/
def State.writeRow (s : State) (a : Nat) (r : Row) : State := s.writeMem a 64 r.toNat

/-- Poison in the word of an address (R260). -/
def State.addPoison (s : State) (a : Nat) : State := { s with poison := setAdd (a / 8) s.poison }

/-- The words of `n` bytes at `a` poisoned. -/
def State.spoil (s : State) (a n : Nat) : State :=
  (List.range ((n + 7) / 8)).foldl (fun s j => s.addPoison (a + 8 * j)) s

/-! ### The physical map (R113) -/

/-- A region of the physical map. -/
inductive Region52 where
  | hbm
  /-- slice and offset -/
  | window (slice off : Nat)
  /-- cluster -/
  | scratch (cl : Nat)
  | host
  /-- device and offset -/
  | peer (dev : Nat)
  /-- reduction window and offset -/
  | reduction (w off : Nat)
  | reserved
deriving DecidableEq, Repr

/-- The region of a physical address (R113). -/
def region (pa : Nat) : Region52 :=
  if pa < 0x8000000000 then .hbm
  else if 0x10000000000 ≤ pa && pa < 0x10018000000 then
    .window ((pa - 0x10000000000) / 0x400000) ((pa - 0x10000000000) % 0x400000)
  else if 0x20000000000 ≤ pa && pa < 0x20012000000 then .scratch ((pa - 0x20000000000) / 0x80000)
  else if 0x4000000000000 ≤ pa && pa < 0x8000000000000 then .host
  else if 0x8000000000000 ≤ pa && pa < 0xC000000000000 then .peer ((pa - 0x8000000000000) / 0x40000000000)
  else if 0xC000000000000 ≤ pa && pa < 0xC000040000000 then
    .reduction ((pa - 0xC000000000000) / 0x1000000) ((pa - 0xC000000000000) % 0x1000000)
  else .reserved

/-- The physical address of a byte of a cluster's scratchpad (R112, R113). -/
def scratchPa (cl off : Nat) : Nat := 0x20000000000 + cl * 0x80000 + off

end Sys2Proof.Machine
end

