-- ==== Sys2Proof/Machine/Units.lean ====
section
/-! DEFINITION. Reading and writing the units of the machine by number, the agenda of pending steps, free values,
and the registers of a core: the ONE place that reads and writes each. -/

namespace Sys2Proof.Machine

open Sys2Proof

/-! ### Units -/

/-- A core. -/
def State.core (s : State) (c : Nat) : Core := s.cores.get c {}
/-- A core written. -/
def State.setCore (s : State) (c : Nat) (k : Core) : State := { s with cores := s.cores.set c k }
/-- A core changed. -/
def State.modCore (s : State) (c : Nat) (f : Core → Core) : State := s.setCore c (f (s.core c))
/-- The core whose word runs. -/
def State.me (s : State) : Core := s.core s.cur
/-- The core whose word runs, changed. -/
def State.modMe (s : State) (f : Core → Core) : State := s.modCore s.cur f

/-- A cluster. -/
def State.cluster (s : State) (cl : Nat) : Cluster := s.clusters.get cl {}
/-- A cluster written. -/
def State.setCluster (s : State) (cl : Nat) (k : Cluster) : State := { s with clusters := s.clusters.set cl k }
/-- A cluster changed. -/
def State.modCluster (s : State) (cl : Nat) (f : Cluster → Cluster) : State := s.setCluster cl (f (s.cluster cl))

/-- A router. -/
def State.router (s : State) (r : Nat) : Router := s.routers.get r {}
/-- A router changed. -/
def State.modRouter (s : State) (r : Nat) (f : Router → Router) : State :=
  { s with routers := s.routers.set r (f (s.router r)) }

/-- A walker, by compute router index. -/
def State.walker (s : State) (i : Nat) : Walker := s.walkers.get i {}
/-- A walker changed. -/
def State.modWalker (s : State) (i : Nat) (f : Walker → Walker) : State :=
  { s with walkers := s.walkers.set i (f (s.walker i)) }

/-- A slice. -/
def State.slice (s : State) (i : Nat) : Slice := s.slices.get i {}
/-- A slice changed. -/
def State.modSlice (s : State) (i : Nat) (f : Slice → Slice) : State :=
  { s with slices := s.slices.set i (f (s.slice i)) }

/-- A context. -/
def State.ctx (s : State) (x : Nat) : Ctx := s.ctxs.get x {}
/-- A context changed. -/
def State.modCtx (s : State) (x : Nat) (f : Ctx → Ctx) : State := { s with ctxs := s.ctxs.set x (f (s.ctx x)) }

/-- A cluster of a context: as it stands in its rectangle, or as the frozen context keeps it while the rectangle is lent (R379). -/
def State.unitFor (s : State) (x cl : Nat) : Cluster := ((s.ctx x).images.find cl).getD (s.cluster cl)

/-- A cluster of a context changed where it stands. -/
def State.modUnit (s : State) (x cl : Nat) (f : Cluster → Cluster) : State :=
  if (s.ctx x).images.has cl then s.modCtx x fun c => { c with images := c.images.set cl (f (s.unitFor x cl)) }
  else s.modCluster cl f

/-- A bridge link changed. -/
def State.modLink (s : State) (l : Nat) (f : Link → Link) : State :=
  { s with links := s.links.set l (f (s.links.get l {})) }

/-! ### The agenda and free values -/

/-- A step pending `d` cycles from now. -/
def State.postIn (s : State) (d : Nat) (e : Event) : State := { s with agenda := s.agenda ++ [(s.cycle + d, e)] }
/-- A step pending now. -/
def State.post (s : State) (e : Event) : State := s.postIn 0 e
/-- Several steps pending now. -/
def State.posts (s : State) (es : List Event) : State := es.foldl State.post s

/-- A step that only looks at a unit again, pending `d` cycles from now unless one already is by then. -/
def State.postOnce (s : State) (d : Nat) (e : Event) : State :=
  if s.agenda.any fun p => p.1 ≤ s.cycle + d && p.2 = e then s else s.postIn d e

/-- An answer on its way to a core, for a time that nothing fixes (R31, log 7). -/
def State.postLate (s : State) (e : Event) : State :=
  ({ s with nextId := s.nextId + 1 } : State).postIn (Config.latency s.nextId) e

/-- A free word, drawn (log 2). -/
def State.draw (s : State) : Word × State := (Config.freeWord s.fresh, { s with fresh := s.fresh + 1 })

/-- A new number for an item, a request or a transfer. -/
def State.newId (s : State) : Nat × State := (s.nextId, { s with nextId := s.nextId + 1 })

/-- The machine with the memory that a read by a unit of a class, given by its bit, may see, and with the value drawn (R396). -/
def State.engineView (s : State) (cls : BitVec 5) : State × State :=
  let open_ := s.lagging.filter fun l => l.mask &&& cls != 0
  if open_.isEmpty then (s, s)
  else
    let (w, t) := s.draw
    ({ t with mem := lagView w 0 open_ s.mem }, t)

/-! ### Registers of a core (R29, R88) -/

/-- A scalar register: s0 reads zero (R29). -/
def Core.get (k : Core) (r : BitVec 5) : Word := if r = 0 then 0 else k.regs[r.toNat]

/-- A core whose register `n`, or CSR n - 32, is written whole: an error it had is gone (R403). -/
def Core.clean (k : Core) (n : Nat) : Core :=
  { k with badRegs := k.badRegs.filter (· != n), softRegs := k.softRegs.filter (· != n) }

/-- A scalar register written: a write of s0 is discarded (R29). -/
def Core.put (k : Core) (r : BitVec 5) (v : Word) : Core :=
  if r = 0 then k else { k.clean r.toNat with regs := k.regs.set r.toNat v }

/-- A scalar register by number, modulo 32. -/
def Core.getN (k : Core) (n : Nat) : Word := k.get (BitVec.ofNat 5 n)

/-- A tile row. -/
def Core.row (k : Core) (t r : Nat) : Row := k.rows.get (t * 64 + r) 0
/-- A tile row written whole; a write clears an error (R303, R403). -/
def Core.setRow (k : Core) (t r : Nat) (v : Row) : Core :=
  { k with
    rows := k.rows.set (t * 64 + r) v
    badRows := k.badRows.filter (· / 8 != t * 64 + r), softRows := k.softRows.filter (· / 8 != t * 64 + r) }
/-- The eight sidecar slots of a row (R279). -/
def Core.sideOf (k : Core) (t r : Nat) : BitVec 160 := k.side.get (t * 64 + r) 0
/-- The sidecar slots of a row written. -/
def Core.setSide (k : Core) (t r : Nat) (v : BitVec 160) : Core :=
  { k with
    side := k.side.set (t * 64 + r) v
    badSide := k.badSide.filter (· / 8 != t * 64 + r), softSide := k.softSide.filter (· / 8 != t * 64 + r) }
/-- Whether a tile row, by tile times 64 plus the row, has an uncorrectable error (R303). -/
def Core.rowBad (k : Core) (key : Nat) : Bool := k.badRows.any (· / 8 = key)
/-- One scale word of eight slots. -/
def slotOf (v : BitVec 160) (j : Nat) : BitVec 20 := v.extractLsb' (20 * j) 20
/-- One scale word of eight slots written. -/
def setSlot (v : BitVec 160) (j : Nat) (sw : BitVec 20) : BitVec 160 :=
  BitVec.ofNat 160 (v.toNat - v.toNat / 2 ^ (20 * j) % 2 ^ 20 * 2 ^ (20 * j) + sw.toNat * 2 ^ (20 * j))
/-- A tile's descriptor. -/
def Core.tile (k : Core) (t : BitVec 3) : TileDesc := k.desc[t.toNat]
/-- A tile's descriptor written. -/
def Core.setTile (k : Core) (t : BitVec 3) (d : TileDesc) : Core := { k with desc := k.desc.set t.toNat d }

/-- A queue of a core: 0 qm, 1 qw, 2 qb (R13). -/
def Core.queue (k : Core) (q : Nat) : Queue := match q with
  | 0 => k.qm
  | 1 => k.qw
  | _ => k.qb
/-- A queue written. -/
def Core.setQueue (k : Core) (q : Nat) (v : Queue) : Core := match q with
  | 0 => { k with qm := v }
  | 1 => { k with qw := v }
  | _ => { k with qb := v }

/-- The cluster of a core. -/
def State.myCluster (s : State) : Nat := s.cur / 4

/-- A field of a word written: bits [hi:lo] of `v` replaced. -/
def putFld (v : Word) (lo n : Nat) (x : Nat) : Word :=
  Word.of (v.toNat - v.toNat / 2 ^ lo % 2 ^ n * 2 ^ lo + x % 2 ^ n * 2 ^ lo)

/-- Whether a result is outstanding (R30, R285). -/
def Core.waiting (k : Core) : Bool := !k.outs.isEmpty || !k.rowQ.isEmpty || !k.rowRun.isEmpty

/-- The mask of class C alone (R52, R125). -/
def maskC : BitVec 5 := 1
/-- The mask of class W alone. -/
def maskW : BitVec 5 := 2
/-- The mask of class M alone. -/
def maskM : BitVec 5 := 4
/-- The mask of class H alone. -/
def maskH : BitVec 5 := 16

/-- Whether every load issued before `bound` has returned and every store issued before it is performed for the classes of a mask: the
condition of a release (R130, R132, R397). A store that has reached its home is performed for class C, and for each other class once
`lags` no longer names it (R125). -/
def Core.released (k : Core) (bound : Nat) (mask : BitVec 5) : Bool :=
  k.outs.all (fun p => bound ≤ p.1 || p.2.load = 0) && k.stores.all (fun p => bound ≤ p.1) &&
  k.lags.all fun p => bound ≤ p.1 || p.2 &&& mask = 0

/-- Whether what waits at a bound, for a mask, behind `fence.rel` words may leave: each of those for the classes it names (R130, R132). -/
def Core.mayLeave (k : Core) (bound : Nat) (mask : BitVec 5) (fence : Vector Nat 5) : Bool :=
  k.released bound mask && (List.range 5).all fun i => k.released (fence[i]?.getD 0) (BitVec.ofNat 5 (2 ^ i))

/-- Whether an entry of `held` may leave. -/
def HeldEntry.free (h : HeldEntry) (k : Core) : Bool := k.mayLeave h.bound h.mask h.fence

/-- Whether the release condition of a message holds (R197, R199). -/
def SendEntry.free (e : SendEntry) (k : Core) : Bool := k.mayLeave e.bound e.mask e.fence

/-- What waits from the word at hand on until its release condition for a mask holds. -/
def Core.holding (k : Core) (what : Held) (mask : BitVec 5) : HeldEntry :=
  { what := what, bound := k.seq, mask := mask, fence := k.relAll }

/-- `budget` (R89, R372): all ones with WDOG 0, else what is left. -/
def State.budgetOf (s : State) (k : Core) : Word :=
  if k.wdogOn then Word.of (k.budget - (s.cycle - k.budgetAt)) else 0xFFFFFFFFFFFFFFFF

/-- The counter condition of R44 and R221. -/
def condHolds (counter : Nat) (target : BitVec 32) : Bool :=
  (counter + 2 ^ 32 - target.toNat) % 2 ^ 32 < 2 ^ 31

/-- TICK of a stamp (R5). -/
def tick (w : Word) : Nat := w.toNat / 65536
/-- STEP of a stamp. -/
def stepOf (w : Word) : Nat := w.toNat % 65536
/-- The tick END (R5). -/
def END : Nat := 0xFFFFFFFFFFFF
/-- The stamp <tick.0>, with a tick at or past END taken as END. -/
def atTick (t : Nat) : Word := Word.of (min t END * 65536)
/-- The smaller of two stamps. -/
def stampMin (a b : Word) : Word := if b.toNat < a.toNat then b else a
/-- The larger of two stamps. -/
def stampMax (a b : Word) : Word := if a.toNat < b.toNat then b else a
/-- The successor of a stamp, END standing still. -/
def stampSucc (a : Word) : Word := if a.toNat < END * 65536 then a + 1 else a
/-- All ones. -/
def allOnes : Word := 0xFFFFFFFFFFFFFFFF

end Sys2Proof.Machine
end

