-- ==== Sys2Proof/Machine/Flits.lean ====
section
/-! DEFINITION. Flits as they are formed, and the queues from which routers take them (R141 to R146, R149, R226). -/

namespace Sys2Proof.Machine

open Sys2Proof

/-! ### Destinations -/

/-- A flit of a kind to the local port of a cluster. -/
def flitTo (src cl fk : Nat) : Flit := { src := src, dr := routerOfCluster cl, dp := cl % 4, fk := fk }

/-- A flit of a kind to the local port of a slice (R141). -/
def flitToSlice (src sl fk : Nat) : Flit := { src := src, dr := routerOfSlice sl, dp := sl % 2, fk := fk }

/-- The local port at which a source takes what comes back to it (R145); a walker, a router and an outside link are given
port 0 (log 9). -/
def portOfSrc (src : Nat) : Nat :=
  if src < 2304 then src / 4 % 4 else if 0xA00 ≤ src && src < 0xA60 then src % 2 else 0

/-- A flit of a kind back to the source of another one. -/
def flitBack (src back fk : Nat) : Flit := { src := src, dr := routerOfSrc back, dp := portOfSrc back, fk := fk }

/-! ### Payloads (R146, R226) -/

/-- Low word of a payload. -/
def payLo (p : BitVec 128) : Word := p.extractLsb' 0 64
/-- High word of a payload. -/
def payHi (p : BitVec 128) : Word := p.extractLsb' 64 64

/-- The payload of flit `i` of a message: words 2i and 2i + 1 (R146). -/
def msgPayload (r : Rec) (i : Nat) : BitVec 128 := (r[2 * i + 1]?.getD 0) ++ (r[2 * i]?.getD 0)

/-- The four flits of a message whose fields but FI and the payload are those of `f` (R146). -/
def recFlits (f : Flit) (r : Rec) : List Flit := (List.range 4).map fun i => { f with fi := i, pay := msgPayload r i }

/-- The flits of a multicast transfer (R351). -/
def Mcast.flits (m : Mcast) : Nat := if m.half then 2 else 5

/-- The operations of the reserve desks (R226). -/
inductive DeskOp where
  | kreq
  | kgrant
  | krefuse
  | krel
  | kcancel
  | wreg
  | wmet
  | wrefuse
  | wcancel
  | kquery
  | kstat
  | krun
deriving DecidableEq, Repr

/-- DOP (R226). -/
def DeskOp.code : DeskOp → Nat
  | .kreq => 0
  | .kgrant => 1
  | .krefuse => 2
  | .krel => 3
  | .kcancel => 4
  | .wreg => 5
  | .wmet => 6
  | .wrefuse => 7
  | .wcancel => 8
  | .kquery => 9
  | .kstat => 10
  | .krun => 11

/-- A DESK flit (R226): its destination as `f` names it, the context, CL, TAG, VAL, TGT and ARG, and the step it makes at
its destination. -/
def deskFlit (f : Flit) (o : DeskOp) (x cl tag val tgt : Nat) (arg : Word) (e : Event) : Flit :=
  { f with
    ctx := x, mseq := BitVec.ofNat 6 o.code, ev := some e
    pay := arg ++ Word.of (tgt % 2 ^ 32 * 2 ^ 32 + cl % 1024 * 2 ^ 22 + tag % 64 * 2 ^ 16 + val % 2 ^ 16) }

/-! ### The port table (R423) -/

/-- The place in the port table of a cluster's in-slot, or of an out-slot and 128, for a context. -/
def abroadKey (x cl n : Nat) : Nat := (x * 1024 + cl) * 256 + n

/-- The context of a place in the port table. -/
def abroadCtx (key : Nat) : Nat := key / 2 ^ 18

/-- The input of a router on which a source of no local port offers its flits: a PCIe link, a fabric port, a management core
or the router itself (log 9). -/
def outsidePort (src : Nat) : Nat :=
  if 0xC00 ≤ src && src < 0xC02 then 30 + src % 2
  else if 0xD00 ≤ src && src < 0xD18 then 32 + src % 32
  else if 0xE00 ≤ src then 57 else 58

/-- Flits that such a source offers to its router, one in a cycle, from `d` cycles after the next on. -/
def State.offerIn (s : State) (d : Nat) (fs : List Flit) : State :=
  match fs with
  | [] => s
  | f :: _ =>
    let r := routerOfSrc f.src
    (s.modRouter r fun x => { x with
      flits := x.flits ++ fs.map fun g => { g with port := outsidePort g.src, due := s.cycle + 1 + d } }).postIn (1 + d)
      (.flitArrival r)

/-! ### Injection queues (R141, R149) -/

/-- Flits that a cluster, or slice n under the number 576 + n, has to inject (R149); those of a management core, which no cluster holds, are
offered to its router (log 9). -/
def State.inject (s : State) (u : Nat) (fs : List Flit) : State :=
  if 672 ≤ u then s.offerIn 0 fs
  else (if u < 576 then s.modCluster u fun k => { k with inject := k.inject ++ fs }
   else s.modSlice (u - 576) fun k => { k with inject := k.inject ++ fs }).postOnce 0 (.flitInject u)

/-- Flits that have an answer's time before them, `d` cycles, until they may be injected (log 7). -/
def State.injectIn (s : State) (u d : Nat) (fs : List Flit) : State :=
  let fs := fs.map fun f => { f with due := s.cycle + d }
  (if u < 576 then s.modCluster u fun k => { k with inject := k.inject ++ fs }
   else s.modSlice (u - 576) fun k => { k with inject := k.inject ++ fs }).postIn d (.flitInject u)

/-- Flits that a walker has to inject: any local port of its router that its cluster leaves unused takes them (R141). -/
def State.walkerInject (s : State) (i : Nat) (fs : List Flit) : State :=
  (List.range 4).foldl (fun s p => s.postOnce 0 (.flitInject (i * 4 + p)))
    (s.modWalker i fun w => { w with inject := w.inject ++ fs })

/-- A DESK flit from a cluster's dispatcher to a slice (R226). -/
def State.toDesk (s : State) (sl x cl tag val : Nat) (o : DeskOp) (e : Event) : State :=
  s.inject cl [deskFlit (flitToSlice (cl * 4) sl 9) o x cl tag val 0 0 e]

/-- A DESK flit from a slice to a cluster's dispatcher (R226). -/
def State.fromDesk (s : State) (sl x cl tag val : Nat) (o : DeskOp) (e : Event) : State :=
  s.inject (576 + sl) [deskFlit (flitTo (0xA00 + sl) cl 9) o x cl tag val 0 0 e]

end Sys2Proof.Machine
end

