-- ==== Sys2Proof/Machine/Home.lean ====
section
/-! DEFINITION. The home of an address (R253 to R256), the fabric port before it (R422), the window switches and the links that accesses wait for
(R254, R405), and what happens beside a read
or a write: firmware notes, the night log (R409), machine-checks (R408), corrected errors (R260, R403), counter watches (R222, R265). -/

namespace Sys2Proof.Machine

open Sys2Proof

/-! ### Homes (R253 to R256) -/

/-- The powered slice columns by position (R255). -/
def State.columns (s : State) : List Nat := (List.range 4).filter fun i => s.slcols.getLsbD i

/-- Slice number `i` of the powered slices in ascending order. -/
def State.sliceAt (s : State) (i : Nat) : Nat :=
  let cols := s.columns
  let n := max cols.length 1
  (i / (2 * n) * 4 + cols.getD (i % (2 * n) / 2) 0) * 2 + i % 2

/-- The home slice of an HBM address. -/
def State.hbmHome (s : State) (pa : Nat) : Nat :=
  let x := pa / 64 % 2 ^ 33
  let h := (x % 65536) ^^^ (x / 65536 % 65536) ^^^ (x / 2 ^ 32 % 2 * 32768)
  let t := h * 96 / 65536
  if s.slcols.getLsbD (t / 2 % 4) then t
  else s.sliceAt (h * 0x9E37 % 65536 * (24 * s.columns.length) / 65536)

/-- The home slice of an address of HBM or of a bank window; slice 0 for any other. -/
def State.homeOf (s : State) (pa : Nat) : Nat :=
  match region pa with
  | .hbm => s.hbmHome pa
  | .window sl _ => sl
  | _ => 0

/-- The bank of an address in its slice (R253). -/
def bankOf (pa : Nat) : Nat := pa / 64 % 16

/-- Whether the operations of a bank may act on an address (R258); `peer` for those performed at a peer's home. -/
def bankRegion (pa : Nat) (peer : Bool) : Bool :=
  match region pa with
  | .hbm => true
  | .window _ _ => true
  | .peer _ => peer
  | _ => false

/-! ### Fabric ports (R405, R422, R427) -/

/-- The fabric port of an access to a peer (R422). -/
def State.peerPort (s : State) (d : Nat) : Nat := (d * 7 + s.domid.toNat) % 24

/-- The fabric port that an address is reached by, if it lies outside the device. A reduction window is given the port of its number
(DESIGN CHOICE, log 121). -/
def State.fabricPort (s : State) (pa : Nat) : Option Nat := match region pa with
  | .peer d => some (s.peerPort d)
  | .reduction w _ => some (w % 24)
  | _ => none

/-- The link of a fabric port (R411). -/
def State.portLink (s : State) (port : Nat) : Link := s.links.get (576 + port) {}

/-- Whether an address lies behind a fabric port whose link is DOWN (R427). -/
def State.cutOff (s : State) (pa : Nat) : Bool := (s.fabricPort pa).any fun p => (s.portLink p).down

/-- Whether an address lies behind a fabric port whose link retrains: it carries nothing meanwhile (R405). -/
def State.retraining (s : State) (pa : Nat) : Bool := (s.fabricPort pa).any fun p => (s.portLink p).retrain

/-! ### Waits -/

/-- Whether the slice at which an address is homed changes its window: accesses to it wait (R254). -/
def State.switching (s : State) (pa : Nat) : Bool := bankRegion pa false && s.slwinNew.has (s.homeOf pa)

/-! ### Firmware notes -/

/-- The function bound to a context: the first one; the PF for the firmware context (R415, R419). -/
def State.fnOf (s : State) (x : Nat) : Option Nat :=
  if x = 0xFF then some 384
  else (s.vfs.find? fun p => p.1 < 384 && p.2.bind.fld 8 8 = 1 && p.2.bind.fld 7 0 = x).map Prod.fst

/-- The bytes of a firmware note of what the spec has it name. A forwarded request holds the seven words it forwards, here as words 1 to
7, as they stood (R421, log 143); the spec lays out no other field, so that the rest is a free function of what is named (log 2). -/
def noteRow (k : FwKind) (named : List Nat) : Row :=
  match k with
  | .host => BitVec.ofNat 512 ((Config.noteBytes k named).toNat % 2 ^ 64 + 2 ^ 64 * packWordsOf (named.drop 1))
  | k => Config.noteBytes k named
where
  /-- Words of 8 bytes, the first lowest. -/
  packWordsOf : List Nat → Nat
    | [] => 0
    | w :: t => w % 2 ^ 64 + 2 ^ 64 * packWordsOf t

/-- The function that a firmware note is for: the one bound to the context that it names first, else the PF (R418; DESIGN CHOICE, log
143). -/
def State.noteFn (s : State) (k : FwKind) (named : List Nat) : Nat :=
  match k, named with
  | .frozen, x :: _ => (s.fnOf x).getD 384
  | .bkfull, x :: _ => (s.fnOf x).getD 384
  | .host, x :: _ => (s.fnOf x).getD 384
  | _, _ => 384

/-- A firmware note of 64 bytes in the host ring FNBASE, counted in NOTE of the function that it is for (R418 to R420). -/
def State.fwNote (s : State) (k : FwKind) (named : List Nat) : State :=
  if s.fncap = 0 then s
  else
    let a := 0x4000000000000 + s.fnbase.toNat + 64 * (s.fntail.toNat % s.fncap.toNat)
    let fn := s.noteFn k named
    let p := s.vfs.get fn {}
    { s.writeRow a (noteRow k named) with fntail := s.fntail + 1, vfs := s.vfs.set fn { p with note := p.note + 1 } }

/-! ### Night log -/

/-- A night-log entry at a router, unless the logs are frozen (R409, R410). -/
def State.logAt (s : State) (r kind src tag x : Nat) (val aux : Word) : State :=
  if s.frz then s
  else
    let w1 := kind * 2 ^ 56 + src % 4096 * 2 ^ 44 + tag % 65536 * 2 ^ 28 + x % 256 * 2 ^ 20
    s.modRouter r fun q => { q with
      log := q.log.set q.logHead #v[Word.of (s.cycle % 2 ^ 48), Word.of w1, val, aux]
      logHead := (q.logHead + 1) % 4096
      logWrap := q.logWrap || q.logHead = 4095 }

/-- A machine-check of a kind at a router: the log entry, the frozen logs, the firmware note. The cause code of a kind is a free value,
since the spec numbers none; the note names it, the router and, where there is one, the context (R408, log 2). -/
def State.machineCheck (s : State) (k : CheckKind) (r src x : Nat) (aux : Word) : State :=
  let c := Config.checkCode k
  let s := s.logAt r 6 src 0 x c aux
  ({ s with frz := true } : State).fwNote .mchk ([c.toNat, r] ++ (if x = 0xFF then [] else [x]))

/-- A single-bit error outside memory corrected and logged at a router, for the source and the context that it names (R403, R409); the
syndrome is a free value. -/
def State.softLog (s : State) (r src x : Nat) (what : Word) : State :=
  let (syn, s) := s.draw
  s.logAt r 1 src 0 x what syn

/-- Single-bit errors of the tile words and sidecar slots that are read corrected and logged, each by tile times 64 plus the row (R403,
R409): `rows` and `side` tell which, by row times 8 plus the word or slot. -/
def State.softTiles (s : State) (c : Nat) (rows side : Nat → Bool) : State :=
  let k := s.core c
  let hit := k.softRows.filter rows ++ k.softSide.filter side
  if hit.isEmpty then s
  else hit.foldl (fun s b => s.softLog (routerOfSrc c) c k.ctx (Word.of (b / 8)))
    (s.modCore c fun k => { k with softRows := k.softRows.filter (!rows ·), softSide := k.softSide.filter (!side ·) })

/-- Single-bit errors of the accumulator rows that a core's word or command reads corrected and logged, each by accumulator times 64 plus
the row (R403, R409). -/
def State.softAccs (s : State) (c : Nat) (rows : Nat → Bool) : State :=
  let hit := (s.cluster (c / 4)).softAcc.filter rows
  if hit.isEmpty then s
  else hit.foldl (fun s b => s.softLog (routerOfSrc c) c (s.core c).ctx (Word.of b))
    (s.modCluster (c / 4) fun v => { v with softAcc := v.softAcc.filter (!rows ·) })

/-! ### Corrections -/

/-- The router where an event at an address is logged and the source id of the unit there (R145, R409): a scratchpad's is its
cluster's, named by the id of its message unit; any other address's is its home slice's. -/
def State.homeUnit (s : State) (pa : Nat) : Nat × Nat :=
  match region pa with
  | .scratch cl => (routerOfCluster cl, 4 * cl)
  | _ => (routerOfSlice (s.homeOf pa), 0xA00 + s.homeOf pa)

/-- The single-bit errors of the words that `n` bytes at `pa` touch corrected and logged (R260, R403); a word that `whole`
bytes replace is not read. -/
def State.correct (s : State) (pa n : Nat) (whole : Bool) : State :=
  let hit := s.soft.filter fun w => pa / 8 ≤ w && w ≤ (pa + n - 1) / 8 && n != 0
  let s := { s with soft := s.soft.filter fun w => !hit.contains w }
  hit.foldl (fun s w =>
    if whole && pa ≤ 8 * w && 8 * w + 8 ≤ pa + n then s
    else
      let (syn, s) := s.draw
      let h := s.homeUnit (8 * w)
      s.logAt h.1 1 h.2 0 0xFF (Word.of (8 * w)) syn) s

/-! ### Watches (R222, R265) -/

/-- The watches of a word that now hold, answered in their entry order (R222): that is the order of their
registration (DESIGN CHOICE, log 136). -/
def State.testWatches (s : State) (pa : Nat) : State :=
  let w := pa / 8 * 8
  let h := s.homeOf w
  let hit := (s.slice h).watches.filter fun v => v.pa = w && condHolds (memRead s.mem w 8) v.target
  if hit.isEmpty then s
  else
    let s := s.modSlice h fun sl => { sl with
      watches := sl.watches.filter fun v => !(v.pa = w && condHolds (memRead s.mem w 8) v.target) }
    hit.foldl (fun s v =>
      s.fromDesk h v.ctx v.cluster v.tag v.handle.toNat .wmet (.wmetArrival v.cluster v.tag v.cond)) s

/-- The watches of every word that `n` bytes at `pa` touch are tested (R265). -/
def State.watchesIn (s : State) (pa n : Nat) : State :=
  if bankRegion pa false && n != 0 then
    (List.range ((pa + n - 1) / 8 - pa / 8 + 1)).foldl (fun s j => s.testWatches (pa / 8 * 8 + 8 * j)) s
  else s

/-- Whether an access to an address has to wait: for the slice at which it is homed (R254) or for a link (R405). -/
def State.heldOff (s : State) (pa : Nat) : Bool := s.switching pa || s.retraining pa

/-- The step at hand goes to an address: it waits where accesses to that have to (R254, R405). -/
def State.touch (s : State) (pa : Nat) : State := if s.heldOff pa then { s with blocked := true } else s

/-- The step at hand goes to `n` bytes at an address: it waits for each of the slices that their lines are homed in (R254, R405). -/
def State.touchAll (s : State) (pa n : Nat) : State :=
  if s.slwinNew.isEmpty || n = 0 then s.touch pa
  else if (List.range ((pa + n - 1) / 64 - pa / 64 + 1)).any fun i => s.heldOff (64 * (pa / 64 + i)) then { s with blocked := true }
  else s

/-! ### Fences (R412) -/

/-- Whether a rectangle of the containment registers holds a compute router index. -/
def rectHas (w : Word) (i : Nat) : Bool :=
  w.fld 24 24 = 1 && i < 144 && w.fld 3 0 ≤ i / 12 && i / 12 ≤ w.fld 3 0 + w.fld 11 8 &&
  w.fld 7 4 ≤ i % 12 && i % 12 ≤ w.fld 7 4 + w.fld 15 12

/-- The fenced rectangle of a compute router index. -/
def State.fenceOf (s : State) (i : Nat) : Option Nat :=
  (List.range 32).find? fun n => rectHas (s.cnrect.get n 0) i && (s.cnctl.get n 0).fld 0 0 = 1

/-- The fenced rectangle of a cluster. -/
def State.fencedCluster (s : State) (cl : Nat) : Option Nat := s.fenceOf (cl / 4)

end Sys2Proof.Machine
end

