-- ==== Sys2Proof/Machine/Inbox.lean ====
section
/-! DEFINITION. What the message unit does with records, channels and horizons (R151 to R156, R168 to R194): shared
operations that the meanings of messages, events and tasks call. -/

namespace Sys2Proof.Machine

open Sys2Proof

/-! ### Records (R45, R46, R426) -/

/-- HANDLER of a record's word 0. -/
def recHandler (w : Word) : Word := w &&& 0xFFFFFFFFFFFF
/-- KIND. -/
def recKind (w : Word) : Nat := w.fld 51 48
/-- CLASS. -/
def recClass (w : Word) : Nat := w.fld 53 52
/-- NKEYS. -/
def recNkeys (w : Word) : Nat := w.fld 56 54
/-- PRI. -/
def recPri (w : Word) : Nat := w.fld 58 57
/-- COND. -/
def recCond (w : Word) : Nat := w.fld 60 59
/-- Word 1. -/
def Rec.stamp (r : Rec) : Word := r[1]
/-- Key `i` of p5 (R46). -/
def keyOf (p5 : Word) (i : Nat) : BitVec 16 := BitVec.ofNat 16 (p5.toNat / 2 ^ (16 * i))
/-- The keys a record lists. -/
def recKeys (w p5 : Word) : List (BitVec 16) := (List.range (recNkeys w)).map (keyOf p5)
/-- The handle and target of condition `j`: p4, then p3 (R46). -/
def recCondWord (r : Rec) (j : Nat) : Word := if j = 0 then r[6] else r[5]

/-- What is wrong with a record: nothing, a key fault or any other fault (R47). -/
inductive RecFault where
  | ok
  | keys
  | illegal
deriving DecidableEq, Repr

/-- Keys ascending, unused ones 0xFFFF, from key `i` on, `n` in use, above `prev` (R46). -/
def keysOk (p5 : Word) (n : Nat) : Nat → Nat → Option Nat → Bool
  | 0, _, _ => true
  | f + 1, i, prev =>
    let k := (keyOf p5 i).toNat
    (if i < n then k != 0xFFFF && (match prev with
        | none => true
        | some p => decide (p < k))
     else k == 0xFFFF) && keysOk p5 n f (i + 1) (some k)

/-- The tests of a record in the order of R426: word 0, p5, p4, p3. -/
def recCheck (w p5 p4 p3 : Word) : RecFault :=
  if w.fld 63 61 != 0 || recCond w = 3 then .illegal
  else if 4 < recNkeys w then .keys
  else if recClass w = 2 || 5 < recKind w || w.fld 1 0 != 0 then .illegal
  else if recKind w = 1 && (recNkeys w != 0 || recCond w != 0) then .illegal
  else if recNkeys w != 0 && !keysOk p5 (recNkeys w) 4 0 none then .keys
  else if (1 ≤ recCond w && p4.fld 63 48 != 0) || (recCond w = 2 && p3.fld 63 48 != 0) then .illegal
  else .ok

/-! ### Survey counts and notes (R188, R363) -/

/-- An interface's counts for a context changed. -/
def State.modSurv (s : State) (iface x : Nat) (f : Surv → Surv) : State :=
  s.modRouter iface fun r => { r with surv := r.surv.set x (f (r.surv.get x {})) }

/-- A message of a context counted as sent. -/
def State.countSent (s : State) (iface x : Nat) (stamp : Word) : State :=
  s.modSurv iface x fun v => { v with cnt := v.cnt + 1, msent := stampMin v.msent stamp }

/-- A message of a context counted as received. -/
def State.countReceived (s : State) (iface x : Nat) : State :=
  s.modSurv iface x fun v => { v with cnt := v.cnt - 1, blk := true }

/-- Items of a class that hold an inbox slot (R12). -/
def Cluster.used (k : Cluster) (cls : Nat) : Nat :=
  (k.inbox.filter fun p => p.2.cls = cls && !p.2.ev && !p.2.divert).length
/-- Inbox slots of a class (R12). -/
def slotCap (cls : Nat) : Nat := match cls with
  | 0 => 176
  | 1 => 64
  | _ => 16
/-- Free slots of a class. -/
def Cluster.freeSlots (k : Cluster) (cls : Nat) : Nat := slotCap cls - k.used cls
/-- Divert entries in use (R153). -/
def Cluster.diverts (k : Cluster) : Nat := (k.inbox.filter fun p => p.2.divert).length
/-- Events held (R194). -/
def Cluster.events (k : Cluster) : Nat := (k.inbox.filter fun p => p.2.ev).length

/-- An inbox entry. -/
def State.item (s : State) (cl i : Nat) : Option Item := (s.cluster cl).inbox.find i
/-- An inbox entry written. -/
def State.setItem (s : State) (cl i : Nat) (m : Item) : State :=
  s.modCluster cl fun k => { k with inbox := k.inbox.set i m }
/-- An inbox entry freed: a recall or a note may take the slot (R154, R156). -/
def State.dropItem (s : State) (cl i : Nat) : State :=
  match s.item cl i with
  | none => s
  | some m =>
    let s := s.modCluster cl fun k => { k with inbox := k.inbox.erase i }
    s.post (.recall cl (if m.cls = 0 then .req else if m.cls = 1 then .rpl else .sys))

/-- The inbox entries that hold slots, by number; and the events held. -/
def Cluster.slots (k : Cluster) (ev : Bool) : List Nat := (k.inbox.filter fun p => p.2.ev = ev && !p.2.divert).map Prod.fst

/-- The bytes of a stopped task's save block, or of its gang's (R381). -/
def SavedTask.size (t : SavedTask) : Nat := if t.gang then 64 + 49664 * (if t.quad then 16 else 4) else 49664

/-- Where the image of a cluster lies in the save area of a context (R387). -/
def Ctx.imageBase (c : Ctx) (cl : Nat) : Nat := c.save.toNat + 256 + 110592 * c.clusterList.findIdx (· = cl)

/-- Where the save blocks of a context begin (R387). -/
def Ctx.blockBase (c : Ctx) : Nat := c.save.toNat + 256 + 110592 * c.clusterList.length

/-- Where the backing inbox of a context lies (R387). -/
def State.backBase (s : State) (x : Nat) : Nat :=
  (s.ctx x).saved.foldl (fun a t => a + t.size) (s.ctx x).blockBase

/-- An entry of a backing inbox as it is written: a record, or a one-flit entry with its kind, cluster and CSEQ, its in-slot or
tag, and its payload (R387). The numbers of the kinds and the places are the model's: KIND 15, which no record has, marks a one-flit
entry (log 60). -/
def BackEntry.words (b : BackEntry) : List Nat :=
  let first := fun (kind cl cseq : Nat) => kind + cl * 2 ^ 16 + cseq * 2 ^ 32 + 15 * 2 ^ 48
  match b with
  | .message _ m => (List.range 8).map fun i => (m.r[i]?.getD 0).toNat
  | .flit (.promiseArrival cl sl q v) => [first 6 cl q.toNat, sl, v.toNat]
  | .flit (.askArrival cl out) => [first 7 cl 0, out]
  | .flit (.eventArrival cl sl q src st p0) => [first 5 cl q.toNat, sl, st.toNat, p0.toNat, src.toNat]
  | .flit (.kgrantArrival cl tag key) => [first 8 cl 0, tag, key.toNat]
  | .flit (.krefuseArrival cl tag key) => [first 9 cl 0, tag, key.toNat]
  | .flit (.wmetArrival cl tag cond) => [first 10 cl 0, tag, cond]
  | .flit (.wrefuseArrival cl tag cond) => [first 11 cl 0, tag, cond]
  | .flit _ => [0]

/-- The step of a one-flit entry of those words; none where they name no kind (R382, R384). -/
def flitOfWords (w : Nat → Nat) : Option Event :=
  let cl := w 0 / 2 ^ 16 % 2 ^ 16
  let q : BitVec 8 := BitVec.ofNat 8 (w 0 / 2 ^ 32)
  if recKind (Word.of (w 0)) != 15 then none
  else match w 0 % 2 ^ 16 with
  | 5 => some (.eventArrival cl (w 1) q (BitVec.ofNat 12 (w 4)) (Word.of (w 2)) (Word.of (w 3)))
  | 6 => some (.promiseArrival cl (w 1) q (Word.of (w 2)))
  | 7 => some (.askArrival cl (w 1))
  | 8 => some (.kgrantArrival cl (w 1) (BitVec.ofNat 16 (w 2)))
  | 9 => some (.krefuseArrival cl (w 1) (BitVec.ofNat 16 (w 2)))
  | 10 => some (.wmetArrival cl (w 1) (w 2))
  | 11 => some (.wrefuseArrival cl (w 1) (w 2))
  | _ => none

/-- A SYS note of a context (R363, R429), formed at an interface: a message of KIND TASK, CLASS SYS and PRI 3 to any core of
SUPCL, counted there as sent (R188). The spec names neither its SRC, which is here the router's, nor the `src` its handler
reads, a free value, nor its MTAG (log 10). Without SUPH, or with SUPCL outside RECT, it is dropped and counted. -/
def State.note (s : State) (iface x code : Nat) (p1 p2 p3 : Word) : State :=
  let c := s.ctx x
  let cl := c.supcl.toNat % 1024
  if c.suph = 0 || !c.hasCluster cl then s.modCtx x fun c => { c with nlost := c.nlost + 1 }
  else
    let w0 : Word := Word.of ((c.suph.toNat % 2 ^ 48) + 3 * 2 ^ 52 + 3 * 2 ^ 57)
    let (i, s) := s.newId
    let (w, s) := s.draw
    let f : Flit := { flitTo (0xE00 + (if iface < 192 then iface else 0)) cl 4 with
      mtag := BitVec.ofNat 8 i, ctx := x, untimed := true, sender := some (w.toNat % 4096) }
    (s.countSent iface x c.mer).offerIn 0 (recFlits f #v[w0, c.mer, Word.of code, p1, p2, p3, 0, 0])

/-! ### Writes -/

/-- Whether a write of `n` bytes at `pa` leaves part of a poisoned word (R260). -/
def State.poisonKept (s : State) (pa n : Nat) : Bool :=
  s.poison.any fun w => pa / 8 ≤ w && w ≤ (pa + n - 1) / 8 && !(pa ≤ 8 * w && 8 * w + 8 ≤ pa + n)

/-- Firmware looks at the request rings whose TAIL a write touches (R421). -/
def State.ringKick (s : State) (pa n : Nat) : State :=
  s.ctxs.foldl (fun s (p : Nat × Ctx) =>
    if p.2.st != .empty && 4096 ≤ p.2.save.toNat && pa < p.2.save.toNat - 4088 && p.2.save.toNat - 4096 < pa + n then
      s.postIn 1 (.firmwareRequestTake p.1)
    else s) s

/-- A write at a home: the bytes; a word written in part is read first, and corrected; one that was in error keeps the marker, is logged and noted
(R260); then the watches of the words written (R265). -/
def State.bankWrite (s : State) (pa n v src x : Nat) : State :=
  let kept := s.poisonKept pa n
  let s := (s.correct pa n true).writeMem pa n v
  let s := if kept then
      (s.logAt (s.homeUnit pa).1 2 (s.homeUnit pa).2 0 x (Word.of pa) (Word.of src)).note
        (s.homeUnit pa).1 x 9 (Word.of pa) (Word.of src) 0
    else s
  (s.ringKick pa n).watchesIn pa n

/-- A write of the device itself, by a unit or an engine that the spec gives no number: the home slice is named for it where an error is
logged (R254, R260, R265). -/
def State.deviceWrite (s : State) (pa n v : Nat) : State := (s.touchAll pa n).bankWrite pa n v (s.homeUnit pa).2 0xFF

/-- `n` bytes at an address read by the device itself: the read waits as every access does, and single-bit errors are corrected (R254,
R260). -/
def State.deviceRead (s : State) (pa n : Nat) : State := (s.touchAll pa n).correct pa n false

/-- Whether an entry of a backing inbox is a record with an error that cannot be corrected. -/
def BackEntry.err : BackEntry → Bool
  | .message _ m => m.err
  | .flit _ => false

/-- Entry `i` of a backing inbox written to memory (R387), an error as poison (R407). -/
def State.backWrite (s : State) (x i : Nat) (e : BackEntry) : State :=
  let a := s.backBase x + 64 * i
  let s := (List.range 8).foldl (fun s j => s.deviceWrite (a + 8 * j) 8 (e.words[j]?.getD 0)) s
  if e.err then s.spoil a 64 else s

/-- An entry of a context's backing inbox; once the context is frozen it goes to memory with the header's count of entries
(R387); the one that fills the inbox raises BKFULL, once per freeze (R378). -/
def State.toBacking (s : State) (x : Nat) (e : BackEntry) : State :=
  let n := (s.ctx x).backing.length
  let s := if (s.ctx x).st = .frozen || (s.ctx x).st = .thawing
    then (s.backWrite x n e).deviceWrite ((s.ctx x).save.toNat + 24) 8 (n + 1) else s
  let s := s.modCtx x fun c => { c with backing := c.backing ++ [e] }
  let c := s.ctx x
  if c.bkcap ≤ c.backing.length && !c.bkfull then (s.modCtx x fun c => { c with bkfull := true }).fwNote .bkfull [x] else s

/-- The context whose backing inbox takes what arrives at a cluster for a context that freezes, is frozen or thaws, whoever
owns the cluster meanwhile (R378, R379). -/
def State.backedFor (s : State) (x cl : Nat) : Option Nat :=
  let c := s.ctx x
  if c.st = .running || c.st = .empty || !c.hasCluster cl then none else some x

/-- Whether the backing inbox that takes a context's arrivals at a cluster is full: they are refused (R378). -/
def State.backFull (s : State) (x cl : Nat) : Bool :=
  match s.backedFor x cl with
  | none => false
  | some x => (s.ctx x).bkcap ≤ (s.ctx x).backing.length

/-! ### Dead letters (R192, R193) -/

/-- A timeline id (R169). -/
def tlId (cl k : Nat) (g : BitVec 2) : Nat := cl + 1024 * k + 16384 * g.toNat

/-- A dead letter of a context, formed at a router: 128 bytes at DLBASE while the queue has room, DLCNT and the note DEADL. -/
def State.deadLetter (s : State) (at_ x : Nat) (r : Rec) (id inSlot reason src : Nat) : State :=
  let c := s.ctx x
  let w8 := id % 65536 + inSlot % 128 * 2 ^ 16 + reason * 2 ^ 24 + src % 4096 * 2 ^ 32
  let full := (c.dltail - c.dlhead).toNat ≥ c.dlcap.toNat
  let a := c.dlbase.toNat + 128 * (c.dltail.toNat % max c.dlcap.toNat 1)
  let s := if full then s.modCtx x fun c => { c with dldrop := c.dldrop + 1 }
    else
      let s := (List.range 16).foldl (fun s j =>
        s.deviceWrite (a + 8 * j) 8 (if j = 8 then w8 else (r[j]?.getD 0).toNat)) s
      s.modCtx x fun c => { c with dltail := c.dltail + 1 }
  let n := c.dlcnt + 1
  let s := s.modCtx x fun c => { c with dlcnt := n }
  if n.toNat % 1024 = 1 then s.note at_ x 2 n (Word.of reason) 0 else s

/-- A record is read from an inbox: a single-bit error is corrected and logged, one that cannot be corrected is a machine-check, which
names the record's context (R403, R408). -/
def State.readItem (s : State) (cl : Nat) (m : Item) : State :=
  if m.err then s.machineCheck .inbox (routerOfCluster cl) (4 * cl) m.ctx m.r[0]
  else if m.soft then s.softLog (routerOfCluster cl) (4 * cl) m.ctx m.r[0]
  else s

/-- The 64 bytes of a record just written to memory: where its inbox slot has an error that cannot be corrected, they are poison, since
no error is written out under a fresh code (R407). -/
def State.recordSpoilt (s : State) (m : Item) (a : Nat) : State :=
  if m.err then s.spoil a 64 else s

/-- A refusal by the fence of rectangle `n` at router `r`, of something from `src` for router `dr`: the log entry, and the note NAKR on
the first, the 1,025th and so on (R409, R413). -/
def State.countNak (s : State) (n r dr src x lx : Nat) (what : Word) : State :=
  let k := s.cnnaks.get n 0 + 1
  let s := { s.logAt r 0xA (0xE00 + r) 0 lx what (Word.of n) with cnnaks := s.cnnaks.set n k }
  if k % 1024 = 1 then s.note r x 0xE (Word.of src) (Word.of dr) 0 else s

/-- A message refused by a fence after it has been taken: it is counted, and a NAK goes to its source (R413, R414). -/
def State.nakRecord (s : State) (n cl : Nat) (m : Item) : State :=
  let r := routerOfCluster cl
  (s.countNak n r r m.src m.ctx m.ctx m.r[0]).offerIn 0
    [{ flitBack (0xE00 + r) m.src 11 with mtag := m.mtag, ctx := m.ctx, pay := m.r[0].setWidth 128 }]

/-- A record of an inbox that becomes a dead letter (R192); one for a fenced rectangle is answered by a NAK instead (R414). -/
def State.deadItem (s : State) (cl : Nat) (m : Item) (id reason : Nat) : State :=
  match s.fencedCluster cl with
  | some n => s.nakRecord n cl m
  | none =>
    let c := s.ctx m.ctx
    let full := (c.dltail - c.dlhead).toNat ≥ c.dlcap.toNat
    let a := c.dlbase.toNat + 128 * (c.dltail.toNat % max c.dlcap.toNat 1)
    let s := (s.readItem cl m).deadLetter (routerOfCluster cl) m.ctx m.r id m.inSlot reason m.src
    if full then s else s.recordSpoilt m a

/-! ### Order, candidates, floors (R168, R180, R183, R184) -/

/-- The key of R168 as a number: stamp, rank, third key, order of completion. -/
def Item.key (m : Item) : Nat :=
  let third := if m.rank < 8 then m.seq else if m.rank = 8 then m.src * 64 + m.seq % 64 else 0
  ((m.r.stamp.toNat * 16 + m.rank) * 2 ^ 64 + third) * 2 ^ 64 + m.order

/-- The entry with the least key. -/
def leastItem (l : List (Nat × Item)) : Option (Nat × Item) :=
  l.foldl (fun b p => match b with
    | none => some p
    | some q => if p.2.key < q.2.key then some p else some q) none

/-- The candidate of a timeline (R180). -/
def Cluster.candidate (k : Cluster) (t : Nat) : Option (Nat × Item) :=
  leastItem (k.inbox.filter fun p => p.2.st = .pending && (p.2.tl.map Prod.fst) = some t)

/-- The overflow-minimum register of a timeline (R153). -/
def State.ovMin (s : State) (cl t : Nat) : Word := ((s.cluster cl).tls.get t {}).ovmin

/-- The overflow queue of a cluster's context. -/
def State.overflow (s : State) (cl : Nat) : List OvRec :=
  match (s.cluster cl).ctx with
  | none => []
  | some x => (s.ctx x).ovf

/-- The overflow queue of a cluster's context changed. -/
def State.modOverflow (s : State) (cl : Nat) (f : List OvRec → List OvRec) : State :=
  match (s.cluster cl).ctx with
  | none => s
  | some x => s.modCtx x fun c => { c with ovf := f c.ovf }

/-- The in-slots a timeline's transit test looks at: its ranked ones (an orphaned one served a life that has ended,
R196) and its open port while it is open. -/
def Cluster.inSlots (k : Cluster) (t : Nat) : List (Nat × InSlot) :=
  (k.ins.filter fun p => p.1 < 112 && p.2.v && p.2.st = 1 && p.2.tls = t) ++
  (if (k.tls.get t {}).opn then [(112 + t, { k.ins.get (112 + t) {} with rank := 8, tls := t })] else [])

/-- Whether in-slot `c` lets a candidate pass (R180). -/
def passes (c : Nat × InSlot) (m : Item) : Bool :=
  m.r.stamp.toNat < c.2.h.toNat || (c.2.h = m.r.stamp && m.rank < c.2.rank) ||
  (m.r.stamp.toNat ≤ c.2.h.toNat && c.1 = m.inSlot && m.rank ≤ 8)

/-- The cores that run the task of a timeline: in its quad, with that timeline id. -/
def State.runners (s : State) (cl t : Nat) : List Nat :=
  let id := tlId cl t ((s.cluster cl).tls.get t {}).gen
  ((List.range 16).map (cl / 4 * 16 + ·)).filter fun c =>
    let k := s.core c
    k.run != .free && k.run != .held && k.tl.toNat = id && k.tl != 0xFFFF

/-- The running term of a core's task, held at its value at issue while a `chopen` is outstanding (R183, R202). -/
def State.runTerm (s : State) (c : Nat) : Word :=
  s.queries.foldl (fun b q => match q.what with
    | .chopen _ _ _ _ => if q.core = c then stampMin b q.now else b
    | _ => b) (s.core c).term

/-- The floor of a timeline (R183). -/
def State.floor (s : State) (cl t : Nat) : Word :=
  let k := s.cluster cl
  let tl := k.tls.get t {}
  let f := (s.runners cl t).foldl (fun b c => stampMin b (s.runTerm c)) (atTick END)
  let f := k.inbox.foldl (fun b p =>
    if p.2.st != .filling && p.2.st != .inlined && (p.2.tl.map Prod.fst) = some t then stampMin b p.2.r.stamp else b) f
  let f := (k.inSlots t).foldl (fun b c => stampMin b c.2.h) f
  stampMin (stampMin f (s.ovMin cl t)) tl.intake

/-- The advertised value of an out-slot with lookahead `l` (R184). -/
def advert (f : Word) (l : Nat) : Word :=
  if l != 0 then atTick (tick f + l)
  else if tick f < END then f + 1 else atTick END

/-- Promises that a risen floor causes: by the quantum, or for an ask that waits (R185). -/
def State.refloor (s : State) (cl t : Nat) : State :=
  let f := s.floor cl t
  (s.cluster cl).outs.foldl (fun s p =>
    let o := p.2
    let a := advert f o.l
    if o.own = t && o.v && o.st = 2 &&
        (tick o.lastp + o.q ≤ tick a || (o.askp && o.lastp.toNat < a.toNat)) then s.post (.promiseSend cl p.1)
    else s) s

/-- Whether in-slot `p` is a ranked one that a timeline's candidate may be blocked by and that may be asked (R186). -/
def InSlot.serves (p : Nat × InSlot) (t : Nat) : Bool := p.1 < 112 && p.2.v && p.2.st = 1 && p.2.tls = t

/-- The in-slots of a timeline that block its candidate, each since when; `same` when the candidate is the one they were
last held against (R186). -/
def Cluster.blocking (k : Cluster) (cyc t : Nat) (m : Item) (same : Bool) : Cluster :=
  { k with ins := k.ins.map fun p =>
      if InSlot.serves p t then
        (p.1, { p.2 with since := if passes p m then none else some (if same then p.2.since.getD cyc else cyc) })
      else p }

/-- Whether one of a timeline's in-slots has begun to block its candidate in this cycle (R186). -/
def Cluster.newlyBlocked (k : Cluster) (cyc t : Nat) : Bool :=
  k.ins.any fun p => InSlot.serves p t && p.2.since = some cyc

/-- A timeline looked at again (R171, R181): IDLE or WAIT by what is pending, a TRANSIT when its candidate
passes, an ask after 64 cycles when it does not (R186), and its promises. -/
def State.retest (s : State) (cl t : Nat) : State :=
  let k := s.cluster cl
  let tl := k.tls.get t {}
  let s :=
    if tl.st = .idle || tl.st = .wait then
      match k.candidate t with
      | none => s.modCluster cl fun k => { k with tls := k.tls.set t { tl with st := .idle, blocked := none, who := none } }
      | some (j, m) =>
        let ok := !m.divert && m.r.stamp.toNat < (s.ovMin cl t).toNat && (k.inSlots t).all fun c => passes c m
        if ok then
          (s.modCluster cl fun k => { k with tls := k.tls.set t { tl with st := .wait, blocked := none, who := none } }).post
            (.transit cl t)
        else
          let since := if tl.who = some j then tl.blocked else none
          let s := s.modCluster cl fun k => { k.blocking s.cycle t m (tl.who = some j) with
            tls := k.tls.set t { tl with st := .wait, blocked := some (since.getD s.cycle), who := some j } }
          let s := if (s.cluster cl).newlyBlocked s.cycle t then s.postIn 64 (.askSend cl t) else s
          match since, k.ctx with
          | none, some x => s.postIn 1024 (.tokenStart x)
          | _, _ => s
    else s
  s.refloor cl t

/-- Every timeline of a cluster looked at again. -/
def State.retestAll (s : State) (cl : Nat) : State :=
  (List.range 16).foldl (fun s t => if ((s.cluster cl).tls.get t {}).st = .free then s else s.retest cl t) s

/-! ### Counting, parking and closing (R178, R179) -/

/-- Whether any record of an in-slot has neither transited nor become a dead letter. -/
def Cluster.slotBusy (k : Cluster) (c : Nat) : Bool :=
  k.inbox.any fun p => p.2.tl.isSome && p.2.inSlot = c && p.2.rank < 8 && (p.2.st = .gated || p.2.st = .pending)

/-- An in-slot whose promise of END has been applied is freed once its messages are gone, with its entry in the port table (R179,
R423). -/
def State.closeIn (s : State) (cl c : Nat) : State :=
  let k := s.cluster cl
  match k.ins.find c with
  | none => s
  | some i =>
    let late := (s.overflow cl).any fun o => o.cluster = cl && o.item.inSlot = c && o.item.rank < 8
    if i.v && i.ended && c < 112 && !k.slotBusy c && !late then
      { s.modCluster cl fun k => { k with ins := k.ins.erase c } with
        abroad := s.abroad.erase (abroadKey (k.ctx.getD 0) cl c) }
    else s

/-- The message with the number that in-slot `c` expects counted, wherever it is: a dropped event, a record of the
inbox or the divert buffer, a record of the overflow queue; none when it has not arrived (R178, R194). -/
def State.countNext (s : State) (cl c : Nat) : Option State :=
  let k := s.cluster cl
  let i := k.ins.get c {}
  let here := fun (m : Item) => m.st = .gated && m.inSlot = c && m.rank < 8 && m.tl.isSome && m.seq = i.e
  if i.gaps.contains i.e then some s
  else match k.inbox.find? fun p => here p.2 with
    | some (j, m) => some (s.setItem cl j { m with st := .pending })
    | none =>
      if (s.overflow cl).any fun o => o.cluster = cl && here o.item then
        some (s.modOverflow cl fun l => l.map fun o =>
          if o.cluster = cl && here o.item then { o with item := { o.item with st := .pending } } else o)
      else none

/-- E advanced over every number present, at most `n` of them (R178). -/
def State.advanceE (s : State) (cl c : Nat) : Nat → State
  | 0 => s
  | n + 1 =>
    match s.countNext cl c with
    | none => s
    | some s =>
      (s.modCluster cl fun k =>
        let i := k.ins.get c {}
        { k with ins := k.ins.set c { i with e := (i.e + 1) % 2 ^ 32, gaps := i.gaps.filter (· != i.e) } }).advanceE cl c n

/-- Whether a count is at or before E, both modulo 2^32 (R178, R179). -/
def countedUpTo (p e : Nat) : Bool := (e + 2 ^ 32 - p) % 2 ^ 32 < 2 ^ 31

/-- A parked promise applied when E has reached its count (R179). -/
def State.unpark (s : State) (cl c : Nat) : State :=
  s.modCluster cl fun k =>
    let i := k.ins.get c {}
    if i.pval != allOnes && countedUpTo i.pseq i.e then
      { k with ins := k.ins.set c { i with h := stampMax i.h i.pval, pval := allOnes, ended := i.ended || i.pval = atTick END } }
    else k

/-- The full number nearest `e` whose low 8 bits are given (R178); of two that are equally near, the one below `e` (DESIGN CHOICE, log
133). -/
def rebuild (e : Nat) (low : BitVec 8) : Nat :=
  let d := (low.toNat + 256 - e % 256) % 256
  if d < 128 then (e + d) % 2 ^ 32 else (e + 2 ^ 32 + d - 256) % 2 ^ 32

/-- E advanced, the parked promise applied, the timeline looked at again. -/
def State.counted (s : State) (cl c : Nat) : State :=
  let n := (s.cluster cl).inbox.length + (s.overflow cl).length + ((s.cluster cl).ins.get c {}).gaps.length
  let s := (s.advanceE cl c n).unpark cl c
  (s.retest cl ((s.cluster cl).ins.get c {}).tls).closeIn cl c

/-! ### Delivery of a complete record -/

/-- A complete record delivered to its timeline, or to the dispatcher when it is untimed (R166, R178, R192,
R206). -/
def State.deliver (s : State) (cl j : Nat) : State :=
  match s.item cl j with
  | none => s
  | some m =>
    match m.tl with
    | none => (s.setItem cl j { m with st := .pending }).post (.taskEntry cl)
    | some (t, g) =>
      let k := s.cluster cl
      let tl := k.tls.get t {}
      let live := tl.st != .free && tl.st != .retired && tl.gen = g
      let dead := fun (reason : Nat) => (s.deadItem cl m (tlId cl t g) reason).dropItem cl j
      if m.rank < 8 then
        let i := k.ins.get m.inSlot {}
        if !i.v then
          -- a free in-slot names no timeline: the id is a free value (log 2)
          let (w, s) := s.draw
          (s.deadItem cl m w.toNat 2).dropItem cl j
        else if i.st != 1 then
          ((dead 2).modCluster cl fun k => { k with ins := k.ins.set m.inSlot { i with gaps := m.seq :: i.gaps } }).counted cl m.inSlot
        else (s.setItem cl j { m with st := .gated }).counted cl m.inSlot
      else if m.rank = 8 then
        if !live then dead 1
        else if !tl.opn then dead 5
        else ((s.setItem cl j { m with st := .pending }).retest cl t).post (.tokenStart m.ctx)
      else if live then
        if tl.st = .dying then s.setItem cl j { m with st := .pending }
        else (s.setItem cl j { m with st := .pending }).retest cl t
      else dead 3

/-- A record written by the cluster itself (`tsub`, `yield`): into a slot of its class. -/
def State.placeItem (s : State) (cl : Nat) (m : Item) : Nat × State :=
  let (j, s) := s.newId
  (j, s.setItem cl j { m with order := j, mask := 15 })

/-! ### Receipts (R152) -/

/-- A receipt to the source of a message of a context (R152). -/
def State.receipt (s : State) (cl src x : Nat) (mtag : BitVec 8) : State :=
  s.inject cl [{ flitBack (cl * 4) src 8 with mtag := mtag, ctx := x, pay := BitVec.ofNat 128 src }]

/-! ### Timelines freed (R196) -/

/-- The steps of R196 applied to a timeline: FREED dead letters, orphaned in-slots, closing out-slots, the next
life of the slot. R204's table says of a candidate that waits when its channel is orphaned that it stays; R196 step 1 makes
every pending message a FREED dead letter, and the model follows R196 (DEDUCED, log 120). -/
def State.freeTimeline (s : State) (cl t : Nat) : State :=
  let tl := (s.cluster cl).tls.get t {}
  let mine := (s.cluster cl).inbox.filter fun p =>
    (p.2.tl.map Prod.fst) = some t && (p.2.st = .pending || p.2.st = .gated)
  let s := mine.foldl (fun s p =>
    let s := (s.deadItem cl p.2 (tlId cl t tl.gen) 3).dropItem cl p.1
    if p.2.st = .gated then s.modCluster cl fun k =>
      let i := k.ins.get p.2.inSlot {}
      { k with ins := k.ins.set p.2.inSlot { i with gaps := p.2.seq :: i.gaps } }
    else s) s
  let s := s.modCluster cl fun k => { k with
    ins := k.ins.map fun p => if p.1 < 112 && p.2.v && p.2.tls = t then (p.1, { p.2 with st := 2 }) else p
    outs := k.outs.map fun p => if p.2.v && p.2.own = t && p.2.st = 2
      then (p.1, { p.2 with st := 3, askp := false }) else p
    tls := k.tls.set t
      (if tl.gen = 3 then { tl with st := .retired, opn := false, blocked := none, who := none }
       else { st := .free, gen := tl.gen + 1, ovmin := tl.ovmin, recomp := tl.recomp }) }
  let s := (s.cluster cl).outs.foldl (fun s p =>
    if p.2.own = t && p.2.st = 3 then s.post (.promiseSend cl p.1) else s) s
  (s.cluster cl).ins.foldl (fun s p => if p.2.tls = t && p.2.st = 2 then s.closeIn cl p.1 else s) s

end Sys2Proof.Machine
end

