-- ==== Sys2Proof/Syntax.lean ====
section
/-! DEFINITION. The ONE syntax of the machine's steps: a constructor for every row of the opcode table.
A core word carries the fields its encoding has (R25), W among them; a command carries the core that
pushed it and its 256 bits (R40); every other row carries the names of the unit and the item it acts on. -/

namespace Sys2Proof

/-- One constructor per row of the opcode table: the core words in the table's order, then the commands,
then the words that are no instruction and the whole steps of the other agents. -/
inductive Instr where
  /-- R92 ADD: Writes s[a] + s[b] modulo 2^64 to s[d]. -/
  | add (w : Bool) (d : BitVec 5) (a : BitVec 5) (b : BitVec 5)
  /-- R92 SUB: Writes s[a] - s[b] modulo 2^64 to s[d]. -/
  | sub (w : Bool) (d : BitVec 5) (a : BitVec 5) (b : BitVec 5)
  /-- R92 MUL: Writes the low 64 bits of s[a] times s[b] to s[d]. -/
  | mul (w : Bool) (d : BitVec 5) (a : BitVec 5) (b : BitVec 5)
  /-- R92 MULH: Writes bits [127:64] of the signed product to s[d]. -/
  | mulh (w : Bool) (d : BitVec 5) (a : BitVec 5) (b : BitVec 5)
  /-- R92 MULHU: Writes bits [127:64] of the unsigned product to s[d]. -/
  | mulhu (w : Bool) (d : BitVec 5) (a : BitVec 5) (b : BitVec 5)
  /-- R92 DIV: Writes the signed quotient truncated toward zero, with the special cases of R82. -/
  | div (w : Bool) (d : BitVec 5) (a : BitVec 5) (b : BitVec 5)
  /-- R92 DIVU: Writes the unsigned quotient; a zero divisor gives all ones. -/
  | divu (w : Bool) (d : BitVec 5) (a : BitVec 5) (b : BitVec 5)
  /-- R92 REM: Writes the signed remainder with the sign of the dividend, with the cases of R82. -/
  | rem (w : Bool) (d : BitVec 5) (a : BitVec 5) (b : BitVec 5)
  /-- R92 REMU: Writes the unsigned remainder; a zero divisor gives the dividend. -/
  | remu (w : Bool) (d : BitVec 5) (a : BitVec 5) (b : BitVec 5)
  /-- R92 AND: Writes the bitwise AND of s[a] and s[b]. -/
  | and (w : Bool) (d : BitVec 5) (a : BitVec 5) (b : BitVec 5)
  /-- R92 OR: Writes the bitwise OR of s[a] and s[b]. -/
  | or (w : Bool) (d : BitVec 5) (a : BitVec 5) (b : BitVec 5)
  /-- R92 XOR: Writes the bitwise XOR of s[a] and s[b]. -/
  | xor (w : Bool) (d : BitVec 5) (a : BitVec 5) (b : BitVec 5)
  /-- R92 ANDN: Writes s[a] AND NOT s[b]. -/
  | andn (w : Bool) (d : BitVec 5) (a : BitVec 5) (b : BitVec 5)
  /-- R92 ORN: Writes s[a] OR NOT s[b]. -/
  | orn (w : Bool) (d : BitVec 5) (a : BitVec 5) (b : BitVec 5)
  /-- R92 SLL: Shifts s[a] left by s[b][5:0]. -/
  | sll (w : Bool) (d : BitVec 5) (a : BitVec 5) (b : BitVec 5)
  /-- R92 SRL: Shifts s[a] right by s[b][5:0], filling zeros. -/
  | srl (w : Bool) (d : BitVec 5) (a : BitVec 5) (b : BitVec 5)
  /-- R92 SRA: Shifts s[a] right by s[b][5:0], filling copies of the sign bit. -/
  | sra (w : Bool) (d : BitVec 5) (a : BitVec 5) (b : BitVec 5)
  /-- R92 ROL: Rotates s[a] left by s[b][5:0]. -/
  | rol (w : Bool) (d : BitVec 5) (a : BitVec 5) (b : BitVec 5)
  /-- R92 MIN: Writes the signed minimum of s[a] and s[b]. -/
  | min (w : Bool) (d : BitVec 5) (a : BitVec 5) (b : BitVec 5)
  /-- R92 MAX: Writes the signed maximum of s[a] and s[b]. -/
  | max (w : Bool) (d : BitVec 5) (a : BitVec 5) (b : BitVec 5)
  /-- R92 MINU: Writes the unsigned minimum of s[a] and s[b]. -/
  | minu (w : Bool) (d : BitVec 5) (a : BitVec 5) (b : BitVec 5)
  /-- R92 MAXU: Writes the unsigned maximum of s[a] and s[b]. -/
  | maxu (w : Bool) (d : BitVec 5) (a : BitVec 5) (b : BitVec 5)
  /-- R92 SLT: Writes 1 if s[a] is signed-less than s[b], else 0. -/
  | slt (w : Bool) (d : BitVec 5) (a : BitVec 5) (b : BitVec 5)
  /-- R92 SLTU: Writes 1 if s[a] is unsigned-less than s[b], else 0. -/
  | sltu (w : Bool) (d : BitVec 5) (a : BitVec 5) (b : BitVec 5)
  /-- R92 SEQ: Writes 1 if s[a] equals s[b], else 0. -/
  | seq (w : Bool) (d : BitVec 5) (a : BitVec 5) (b : BitVec 5)
  /-- R92 CLZ: Writes the number of leading zero bits of s[a]. -/
  | clz (w : Bool) (d : BitVec 5) (a : BitVec 5)
  /-- R92 CTZ: Writes the number of trailing zero bits of s[a]. -/
  | ctz (w : Bool) (d : BitVec 5) (a : BitVec 5)
  /-- R92 POPC: Writes the number of one bits of s[a]. -/
  | popc (w : Bool) (d : BitVec 5) (a : BitVec 5)
  /-- R93 SEL: Writes s[a] if s[c] is nonzero, else s[b]. -/
  | sel (w : Bool) (d : BitVec 5) (a : BitVec 5) (b : BitVec 5) (c : BitVec 5)
  /-- R94 EXT: Extracts a bit field of s[a] and zero-extends it into s[d]. -/
  | ext (w : Bool) (d : BitVec 5) (a : BitVec 5) (l : BitVec 6) (p : BitVec 6)
  /-- R94 EXTS: Extracts a bit field of s[a] and sign-extends it into s[d]. -/
  | exts (w : Bool) (d : BitVec 5) (a : BitVec 5) (l : BitVec 6) (p : BitVec 6)
  /-- R94 INS: Inserts the low len bits of s[a] into s[d] at pos. -/
  | ins (w : Bool) (d : BitVec 5) (a : BitVec 5) (l : BitVec 6) (p : BitVec 6)
  /-- R95 ADDI: Adds a sign-extended 14-bit immediate to s[a]. -/
  | addi (w : Bool) (d : BitVec 5) (a : BitVec 5) (i : BitVec 14)
  /-- R95 ANDI: ANDs s[a] with a sign-extended immediate. -/
  | andi (w : Bool) (d : BitVec 5) (a : BitVec 5) (i : BitVec 14)
  /-- R95 ORI: ORs s[a] with a sign-extended immediate. -/
  | ori (w : Bool) (d : BitVec 5) (a : BitVec 5) (i : BitVec 14)
  /-- R95 XORI: XORs s[a] with a sign-extended immediate. -/
  | xori (w : Bool) (d : BitVec 5) (a : BitVec 5) (i : BitVec 14)
  /-- R95 SLLI: Shifts s[a] left by an immediate amount. -/
  | slli (w : Bool) (d : BitVec 5) (a : BitVec 5) (s : BitVec 6)
  /-- R95 SRLI: Shifts s[a] right logically by an immediate amount. -/
  | srli (w : Bool) (d : BitVec 5) (a : BitVec 5) (s : BitVec 6)
  /-- R95 SRAI: Shifts s[a] right arithmetically by an immediate amount. -/
  | srai (w : Bool) (d : BitVec 5) (a : BitVec 5) (s : BitVec 6)
  /-- R95 SLTI: Writes 1 if s[a] is signed-less than the immediate. -/
  | slti (w : Bool) (d : BitVec 5) (a : BitVec 5) (i : BitVec 14)
  /-- R95 SLTIU: Writes 1 if s[a] is unsigned-less than the sign-extended immediate. -/
  | sltiu (w : Bool) (d : BitVec 5) (a : BitVec 5) (i : BitVec 14)
  /-- R96 LUI: Writes the 19-bit immediate shifted left by 14 and sign-extended from 33 bits. -/
  | lui (w : Bool) (d : BitVec 5) (i : BitVec 19)
  /-- R96 AUIPC: Writes PC plus the shifted, sign-extended immediate. -/
  | auipc (w : Bool) (d : BitVec 5) (i : BitVec 19)
  /-- R97 FADD: Writes the rounded floating-point sum of s[a] and s[b]. -/
  | fadd (w : Bool) (d : BitVec 5) (a : BitVec 5) (b : BitVec 5) (y : BitVec 4)
  /-- R97 FSUB: Writes the rounded floating-point difference. -/
  | fsub (w : Bool) (d : BitVec 5) (a : BitVec 5) (b : BitVec 5) (y : BitVec 4)
  /-- R97 FMUL: Writes the rounded floating-point product. -/
  | fmul (w : Bool) (d : BitVec 5) (a : BitVec 5) (b : BitVec 5) (y : BitVec 4)
  /-- R98 FMIN: Writes the floating-point minimum without rounding or flags. -/
  | fmin (w : Bool) (d : BitVec 5) (a : BitVec 5) (b : BitVec 5) (y : BitVec 4)
  /-- R98 FMAX: Writes the floating-point maximum without rounding or flags. -/
  | fmax (w : Bool) (d : BitVec 5) (a : BitVec 5) (b : BitVec 5) (y : BitVec 4)
  /-- R97 FDIV: Writes the rounded quotient; division by zero gives Inf with DZ. -/
  | fdiv (w : Bool) (d : BitVec 5) (a : BitVec 5) (b : BitVec 5) (y : BitVec 4)
  /-- R97 FSQRT: Writes the rounded square root of s[a]. -/
  | fsqrt (w : Bool) (d : BitVec 5) (a : BitVec 5) (y : BitVec 4)
  /-- R97 FCMP_LT: Writes 1 if s[a] < s[b]; a NaN gives 0 with NV. -/
  | fcmpLt (w : Bool) (d : BitVec 5) (a : BitVec 5) (b : BitVec 5) (y : BitVec 4)
  /-- R97 FCMP_LE: Writes 1 if s[a] <= s[b]; a NaN gives 0 with NV. -/
  | fcmpLe (w : Bool) (d : BitVec 5) (a : BitVec 5) (b : BitVec 5) (y : BitVec 4)
  /-- R97 FCMP_EQ: Writes 1 if s[a] = s[b]; a NaN gives 0 without a flag. -/
  | fcmpEq (w : Bool) (d : BitVec 5) (a : BitVec 5) (b : BitVec 5) (y : BitVec 4)
  /-- R99 FCLASS: Writes a one-hot class mask of s[a]. -/
  | fclass (w : Bool) (d : BitVec 5) (a : BitVec 5) (y : BitVec 4)
  /-- R100 FMA: Writes s[a] times s[b] plus s[c] with one rounding. -/
  | fma (w : Bool) (d : BitVec 5) (a : BitVec 5) (b : BitVec 5) (c : BitVec 5) (y : BitVec 4)
  /-- R101 FCVT: Converts s[a] from the from-type to the to-type under frm. -/
  | fcvt (w : Bool) (d : BitVec 5) (a : BitVec 5) (u : BitVec 1) (f : BitVec 4) (t : BitVec 4)
  /-- R103 BEQ: Branches when s[a] equals s[b]. -/
  | beq (w : Bool) (a : BitVec 5) (b : BitVec 5) (o : BitVec 14)
  /-- R103 BNE: Branches when s[a] differs from s[b]. -/
  | bne (w : Bool) (a : BitVec 5) (b : BitVec 5) (o : BitVec 14)
  /-- R103 BLT: Branches when s[a] is signed-less than s[b]. -/
  | blt (w : Bool) (a : BitVec 5) (b : BitVec 5) (o : BitVec 14)
  /-- R103 BGE: Branches when s[a] is signed-greater or equal to s[b]. -/
  | bge (w : Bool) (a : BitVec 5) (b : BitVec 5) (o : BitVec 14)
  /-- R103 BLTU: Branches when s[a] is unsigned-less than s[b]. -/
  | bltu (w : Bool) (a : BitVec 5) (b : BitVec 5) (o : BitVec 14)
  /-- R103 BGEU: Branches when s[a] is unsigned-greater or equal to s[b]. -/
  | bgeu (w : Bool) (a : BitVec 5) (b : BitVec 5) (o : BitVec 14)
  /-- R104 J: Jumps to PC plus four times the 24-bit offset. -/
  | j (w : Bool) (o : BitVec 24)
  /-- R104 JAL: Jumps and writes PC + 4 to s1. -/
  | jal (w : Bool) (o : BitVec 24)
  /-- R105 JALR: Jumps to s[a] plus the immediate and links to s[d], trapping MISALIGN on an unaligned target. -/
  | jalr (w : Bool) (d : BitVec 5) (a : BitVec 5) (i : BitVec 14)
  /-- R107 TEND: Ends the running task, waiting for results, sends and stores before releasing keys and signalling. -/
  | tend (w : Bool) (a : BitVec 5) (n : BitVec 14)
  /-- R109 YIELD: Suspends the task, forming a continuation at a later stamp. -/
  | yield (w : Bool) (n : BitVec 14)
  /-- R91 CSRR: Reads a CSR into s[d]. -/
  | csrr (w : Bool) (d : BitVec 5) (c : BitVec 12)
  /-- R91 CSRW: Writes s[a] to a CSR and returns the old value. -/
  | csrw (w : Bool) (d : BitVec 5) (a : BitVec 5) (c : BitVec 12)
  /-- R91 CSRS: Sets CSR bits from s[a] and returns the old value. -/
  | csrs (w : Bool) (d : BitVec 5) (a : BitVec 5) (c : BitVec 12)
  /-- R91 CSRC: Clears CSR bits from s[a] and returns the old value. -/
  | csrc (w : Bool) (d : BitVec 5) (a : BitVec 5) (c : BitVec 12)
  /-- R127 LD_B: Loads one byte, sign-extended. -/
  | ldB (w : Bool) (d : BitVec 5) (a : BitVec 5) (i : BitVec 14)
  /-- R127 LD_BZ: Loads one byte, zero-extended. -/
  | ldBz (w : Bool) (d : BitVec 5) (a : BitVec 5) (i : BitVec 14)
  /-- R127 LD_H: Loads two bytes, sign-extended. -/
  | ldH (w : Bool) (d : BitVec 5) (a : BitVec 5) (i : BitVec 14)
  /-- R127 LD_HZ: Loads two bytes, zero-extended. -/
  | ldHz (w : Bool) (d : BitVec 5) (a : BitVec 5) (i : BitVec 14)
  /-- R127 LD_W: Loads four bytes, sign-extended. -/
  | ldW (w : Bool) (d : BitVec 5) (a : BitVec 5) (i : BitVec 14)
  /-- R127 LD_WZ: Loads four bytes, zero-extended. -/
  | ldWz (w : Bool) (d : BitVec 5) (a : BitVec 5) (i : BitVec 14)
  /-- R127 LD_D: Loads eight bytes. -/
  | ldD (w : Bool) (d : BitVec 5) (a : BitVec 5) (i : BitVec 14)
  /-- R127 ST_B: Stores the low byte of s[b], posted. -/
  | stB (w : Bool) (b : BitVec 5) (a : BitVec 5) (i : BitVec 14)
  /-- R127 ST_H: Stores the low two bytes of s[b]. -/
  | stH (w : Bool) (b : BitVec 5) (a : BitVec 5) (i : BitVec 14)
  /-- R127 ST_W: Stores the low four bytes of s[b]. -/
  | stW (w : Bool) (b : BitVec 5) (a : BitVec 5) (i : BitVec 14)
  /-- R127 ST_D: Stores all eight bytes of s[b]. -/
  | stD (w : Bool) (b : BitVec 5) (a : BitVec 5) (i : BitVec 14)
  /-- R130 LD_ACQ: Loads eight bytes and holds later accesses of the masked classes until the value returns. -/
  | ldAcq (w : Bool) (d : BitVec 5) (a : BitVec 5) (k : BitVec 5) (o : BitVec 9)
  /-- R130 ST_REL: Stores eight bytes once earlier loads have returned and earlier stores are performed for the mask. -/
  | stRel (w : Bool) (b : BitVec 5) (a : BitVec 5) (k : BitVec 5) (o : BitVec 9)
  /-- R132 FENCE_FULL: Holds the next word until earlier loads return and stores are performed for the mask. -/
  | fenceFull (w : Bool) (k : BitVec 5)
  /-- R132 FENCE_ACQ: Holds the next word until earlier loads return. -/
  | fenceAcq (w : Bool) (k : BitVec 5)
  /-- R132 FENCE_REL: Holds later releasing accesses until earlier loads return and stores are performed for the mask. -/
  | fenceRel (w : Bool) (k : BitVec 5)
  /-- R262 AMO_ADD: Atomically adds s[b] to memory and returns the old value. -/
  | amoAdd (w : Bool) (d : BitVec 5) (a : BitVec 5) (b : BitVec 5) (s : BitVec 1)
  /-- R262 AMO_AND: Atomically ANDs memory with s[b]. -/
  | amoAnd (w : Bool) (d : BitVec 5) (a : BitVec 5) (b : BitVec 5) (s : BitVec 1)
  /-- R262 AMO_OR: Atomically ORs memory with s[b]. -/
  | amoOr (w : Bool) (d : BitVec 5) (a : BitVec 5) (b : BitVec 5) (s : BitVec 1)
  /-- R262 AMO_XOR: Atomically XORs memory with s[b]. -/
  | amoXor (w : Bool) (d : BitVec 5) (a : BitVec 5) (b : BitVec 5) (s : BitVec 1)
  /-- R262 AMO_MIN: Atomically writes the signed minimum. -/
  | amoMin (w : Bool) (d : BitVec 5) (a : BitVec 5) (b : BitVec 5) (s : BitVec 1)
  /-- R262 AMO_MAX: Atomically writes the signed maximum. -/
  | amoMax (w : Bool) (d : BitVec 5) (a : BitVec 5) (b : BitVec 5) (s : BitVec 1)
  /-- R262 AMO_MINU: Atomically writes the unsigned minimum. -/
  | amoMinu (w : Bool) (d : BitVec 5) (a : BitVec 5) (b : BitVec 5) (s : BitVec 1)
  /-- R262 AMO_MAXU: Atomically writes the unsigned maximum. -/
  | amoMaxu (w : Bool) (d : BitVec 5) (a : BitVec 5) (b : BitVec 5) (s : BitVec 1)
  /-- R262 AMO_SWAP: Atomically swaps memory with s[b]. -/
  | amoSwap (w : Bool) (d : BitVec 5) (a : BitVec 5) (b : BitVec 5) (s : BitVec 1)
  /-- R262 AMO_FADD_F32: Atomically adds an f32 value, rounding RNE. -/
  | amoFaddF32 (w : Bool) (d : BitVec 5) (a : BitVec 5) (b : BitVec 5)
  /-- R262 AMO_FADD_BF16: Atomically adds four BF16 lanes, rounding RNE. -/
  | amoFaddBf16 (w : Bool) (d : BitVec 5) (a : BitVec 5) (b : BitVec 5)
  /-- R262 AMO_FMAX_F32: Atomically writes the f32 maximum. -/
  | amoFmaxF32 (w : Bool) (d : BitVec 5) (a : BitVec 5) (b : BitVec 5)
  /-- R264 CAS_I64: Compares an 8-byte word with s[b] and writes s[c] if equal, returning the old value. -/
  | casI64 (w : Bool) (d : BitVec 5) (a : BitVec 5) (b : BitVec 5) (c : BitVec 5)
  /-- R264 CAS_I32: Compares a 4-byte word with s[b] and writes s[c] if equal, returning the old value. -/
  | casI32 (w : Bool) (d : BitVec 5) (a : BitVec 5) (b : BitVec 5) (c : BitVec 5)
  /-- R269 DADD: Posts a deterministic-add contribution with issuer index s[d] and value s[b]. -/
  | dadd (w : Bool) (d : BitVec 5) (a : BitVec 5) (b : BitVec 5) (y : BitVec 4)
  /-- R266 CADD: Adds s[b] to a counter after the release condition of its mask, returning the old value. -/
  | cadd (w : Bool) (d : BitVec 5) (a : BitVec 5) (b : BitVec 5) (k : BitVec 5)
  /-- R270 DSEAL: Closes the deterministic-add rounds of a word and returns their status. -/
  | dseal (w : Bool) (d : BitVec 5) (a : BitVec 5)
  /-- R195 TLNEW: Requests creation of a timeline in a cluster slot; the id is an asynchronous result. -/
  | tlnew (w : Bool) (d : BitVec 5) (a : BitVec 5) (b : BitVec 5)
  /-- R196 TLFREE: Posts a request to free the named timeline. -/
  | tlfree (w : Bool) (a : BitVec 5)
  /-- R197 SEND: Checks stamp against lookahead and queues a timed message with its sequence number. -/
  | send (w : Bool) (d : BitVec 5) (a : BitVec 5) (b : BitVec 5) (k : BitVec 5)
  /-- R198 POST: Queues an untimed message to a core or any core of a cluster. -/
  | post (w : Bool) (d : BitVec 5) (a : BitVec 5) (k : BitVec 5)
  /-- R199 REPLY: Queues an RPL message to the core in src. -/
  | reply (w : Bool) (d : BitVec 5) (k : BitVec 5)
  /-- R199 REPLY_TO: Queues an RPL message to the core named by s[a]. -/
  | replyTo (w : Bool) (d : BitVec 5) (a : BitVec 5) (k : BitVec 5)
  /-- R200 PROMISE: Raises the running term of the task to s[a]. -/
  | promise (w : Bool) (a : BitVec 5)
  /-- R202 CHOPEN: Opens a ranked channel from the task's timeline; the out-slot is an asynchronous result. -/
  | chopen (w : Bool) (d : BitVec 5) (a : BitVec 5) (b : BitVec 5)
  /-- R203 CHCLOSE: Marks an open out-slot closing; its END promise follows its queued messages. -/
  | chclose (w : Bool) (a : BitVec 5)
  /-- R165 NSTAT: Reads one network, message-unit or dispatcher status word selected by SEL. -/
  | nstat (w : Bool) (d : BitVec 5) (a : BitVec 5) (s : BitVec 4)
  /-- R227 TSUB: Submits a task record to the own cluster's dispatcher, reserving an inbox slot. -/
  | tsub (w : Bool) (d : BitVec 5) (a : BitVec 5) (k : BitVec 5)
  /-- R228 KREL: Releases one held key early, clearing its bit at once. -/
  | krel (w : Bool) (a : BitVec 5)
  /-- R229 KHELD: Queries the home desk of a key; the status word is an asynchronous result. -/
  | kheld (w : Bool) (d : BitVec 5) (a : BitVec 5)
  /-- R243 BARA: Counts an arrival of the gang member, sent after the release condition of its mask. -/
  | bara (w : Bool) (k : BitVec 5)
  /-- R244 BARW: Parks the member until every phase it arrived in has completed. -/
  | barw (w : Bool)
  /-- R243 BAR: Arrives at the barrier and then waits as barw. -/
  | bar (w : Bool) (k : BitVec 5)
  /-- R320 MRLS: Ends the issuing core's lease on the matrix array. -/
  | mrls (w : Bool)
  /-- R314 PUSH: Places four registers as one command word into an engine queue. -/
  | push (w : Bool) (q : BitVec 2) (a : BitVec 5)
  /-- R315 PUSHM: Reads 1 to 8 command words from memory and enters them into a queue. -/
  | pushm (w : Bool) (q : BitVec 2) (a : BitVec 5) (n : BitVec 3) (m : BitVec 14)
  /-- R316 POP: Takes the task's oldest result element from a queue, waiting or returning EMPTY. -/
  | pop (w : Bool) (q : BitVec 2) (a : BitVec 5)
  /-- R317 QSTAT: Writes a snapshot of a queue's state for the task. -/
  | qstat (w : Bool) (q : BitVec 2) (a : BitVec 5)
  /-- R136 TLDR: Loads one 64-byte tile row, with its scale words for a block page. -/
  | tldr (w : Bool) (t : BitVec 3) (r : BitVec 5) (a : BitVec 5) (h : BitVec 1) (o : BitVec 10)
  /-- R136 TSTR: Stores one tile row, with scale-slot writes for a block page. -/
  | tstr (w : Bool) (t : BitVec 3) (r : BitVec 5) (a : BitVec 5) (h : BitVec 1) (o : BitVec 10)
  /-- R136 TLD: Loads a whole tile, retagging it from the page format. -/
  | tld (w : Bool) (t : BitVec 3) (a : BitVec 5) (o : BitVec 11)
  /-- R136 TST: Stores a whole tile. -/
  | tst (w : Bool) (t : BitVec 3) (a : BitVec 5) (o : BitVec 11)
  /-- R290 VADD: Adds two tile rows element-wise (T form). -/
  | vadd (w : Bool) (d : BitVec 3) (a : BitVec 3) (b : BitVec 3) (r : BitVec 5) (y : BitVec 4)
  /-- R290 VADD_X: Adds two tile rows element-wise (X form). -/
  | vaddX (w : Bool) (d : BitVec 3) (a : BitVec 3) (b : BitVec 3) (x : BitVec 5) (y : BitVec 4)
  /-- R290 VSUB: Subtracts tile rows element-wise (T form). -/
  | vsub (w : Bool) (d : BitVec 3) (a : BitVec 3) (b : BitVec 3) (r : BitVec 5) (y : BitVec 4)
  /-- R290 VSUB_X: Subtracts tile rows element-wise (X form). -/
  | vsubX (w : Bool) (d : BitVec 3) (a : BitVec 3) (b : BitVec 3) (x : BitVec 5) (y : BitVec 4)
  /-- R290 VMUL: Multiplies tile rows element-wise (T form). -/
  | vmul (w : Bool) (d : BitVec 3) (a : BitVec 3) (b : BitVec 3) (r : BitVec 5) (y : BitVec 4)
  /-- R290 VMUL_X: Multiplies tile rows element-wise (X form). -/
  | vmulX (w : Bool) (d : BitVec 3) (a : BitVec 3) (b : BitVec 3) (x : BitVec 5) (y : BitVec 4)
  /-- R290 VMIN: Element-wise minimum of tile rows (T form). -/
  | vmin (w : Bool) (d : BitVec 3) (a : BitVec 3) (b : BitVec 3) (r : BitVec 5) (y : BitVec 4)
  /-- R290 VMIN_X: Element-wise minimum of tile rows (X form). -/
  | vminX (w : Bool) (d : BitVec 3) (a : BitVec 3) (b : BitVec 3) (x : BitVec 5) (y : BitVec 4)
  /-- R290 VMAX: Element-wise maximum of tile rows (T form). -/
  | vmax (w : Bool) (d : BitVec 3) (a : BitVec 3) (b : BitVec 3) (r : BitVec 5) (y : BitVec 4)
  /-- R290 VMAX_X: Element-wise maximum of tile rows (X form). -/
  | vmaxX (w : Bool) (d : BitVec 3) (a : BitVec 3) (b : BitVec 3) (x : BitVec 5) (y : BitVec 4)
  /-- R290 VABS: Element-wise absolute value (T form). -/
  | vabs (w : Bool) (d : BitVec 3) (a : BitVec 3) (r : BitVec 5) (y : BitVec 4)
  /-- R290 VABS_X: Element-wise absolute value (X form). -/
  | vabsX (w : Bool) (d : BitVec 3) (a : BitVec 3) (x : BitVec 5) (y : BitVec 4)
  /-- R290 VNEG: Element-wise negation (T form). -/
  | vneg (w : Bool) (d : BitVec 3) (a : BitVec 3) (r : BitVec 5) (y : BitVec 4)
  /-- R290 VNEG_X: Element-wise negation (X form). -/
  | vnegX (w : Bool) (d : BitVec 3) (a : BitVec 3) (x : BitVec 5) (y : BitVec 4)
  /-- R290 VAND: Element-wise AND (T form). -/
  | vand (w : Bool) (d : BitVec 3) (a : BitVec 3) (b : BitVec 3) (r : BitVec 5) (y : BitVec 4)
  /-- R290 VAND_X: Element-wise AND (X form). -/
  | vandX (w : Bool) (d : BitVec 3) (a : BitVec 3) (b : BitVec 3) (x : BitVec 5) (y : BitVec 4)
  /-- R290 VOR: Element-wise OR (T form). -/
  | vor (w : Bool) (d : BitVec 3) (a : BitVec 3) (b : BitVec 3) (r : BitVec 5) (y : BitVec 4)
  /-- R290 VOR_X: Element-wise OR (X form). -/
  | vorX (w : Bool) (d : BitVec 3) (a : BitVec 3) (b : BitVec 3) (x : BitVec 5) (y : BitVec 4)
  /-- R290 VXOR: Element-wise XOR (T form). -/
  | vxor (w : Bool) (d : BitVec 3) (a : BitVec 3) (b : BitVec 3) (r : BitVec 5) (y : BitVec 4)
  /-- R290 VXOR_X: Element-wise XOR (X form). -/
  | vxorX (w : Bool) (d : BitVec 3) (a : BitVec 3) (b : BitVec 3) (x : BitVec 5) (y : BitVec 4)
  /-- R290 VSHL: Element-wise shift left (T form). -/
  | vshl (w : Bool) (d : BitVec 3) (a : BitVec 3) (b : BitVec 3) (r : BitVec 5) (y : BitVec 4)
  /-- R290 VSHL_X: Element-wise shift left (X form). -/
  | vshlX (w : Bool) (d : BitVec 3) (a : BitVec 3) (b : BitVec 3) (x : BitVec 5) (y : BitVec 4)
  /-- R290 VSHR: Element-wise logical shift right (T form). -/
  | vshr (w : Bool) (d : BitVec 3) (a : BitVec 3) (b : BitVec 3) (r : BitVec 5) (y : BitVec 4)
  /-- R290 VSHR_X: Element-wise logical shift right (X form). -/
  | vshrX (w : Bool) (d : BitVec 3) (a : BitVec 3) (b : BitVec 3) (x : BitVec 5) (y : BitVec 4)
  /-- R290 VSRA: Element-wise arithmetic shift right (T form). -/
  | vsra (w : Bool) (d : BitVec 3) (a : BitVec 3) (b : BitVec 3) (r : BitVec 5) (y : BitVec 4)
  /-- R290 VSRA_X: Element-wise arithmetic shift right (X form). -/
  | vsraX (w : Bool) (d : BitVec 3) (a : BitVec 3) (b : BitVec 3) (x : BitVec 5) (y : BitVec 4)
  /-- R290 VCMP_LT: Element-wise less-than into an n8 mask row (T form). -/
  | vcmpLt (w : Bool) (d : BitVec 3) (a : BitVec 3) (b : BitVec 3) (r : BitVec 5) (y : BitVec 4)
  /-- R290 VCMP_LT_X: Element-wise less-than into an n8 mask row (X form). -/
  | vcmpLtX (w : Bool) (d : BitVec 3) (a : BitVec 3) (b : BitVec 3) (x : BitVec 5) (y : BitVec 4)
  /-- R290 VCMP_LE: Element-wise less-or-equal into a mask row (T form). -/
  | vcmpLe (w : Bool) (d : BitVec 3) (a : BitVec 3) (b : BitVec 3) (r : BitVec 5) (y : BitVec 4)
  /-- R290 VCMP_LE_X: Element-wise less-or-equal into a mask row (X form). -/
  | vcmpLeX (w : Bool) (d : BitVec 3) (a : BitVec 3) (b : BitVec 3) (x : BitVec 5) (y : BitVec 4)
  /-- R290 VCMP_EQ: Element-wise equality into a mask row (T form). -/
  | vcmpEq (w : Bool) (d : BitVec 3) (a : BitVec 3) (b : BitVec 3) (r : BitVec 5) (y : BitVec 4)
  /-- R290 VCMP_EQ_X: Element-wise equality into a mask row (X form). -/
  | vcmpEqX (w : Bool) (d : BitVec 3) (a : BitVec 3) (b : BitVec 3) (x : BitVec 5) (y : BitVec 4)
  /-- R290 VSEL: Selects elements of ta or tb by the old td mask (T form). -/
  | vsel (w : Bool) (d : BitVec 3) (a : BitVec 3) (b : BitVec 3) (r : BitVec 5) (y : BitVec 4)
  /-- R290 VSEL_X: Selects elements of ta or tb by the old td mask (X form). -/
  | vselX (w : Bool) (d : BitVec 3) (a : BitVec 3) (b : BitVec 3) (x : BitVec 5) (y : BitVec 4)
  /-- R291 VMOV: Copies a row, with sidecar slots for block types (T form). -/
  | vmov (w : Bool) (d : BitVec 3) (a : BitVec 3) (r : BitVec 5) (y : BitVec 4)
  /-- R291 VMOV_X: Copies a row, with sidecar slots for block types (X form). -/
  | vmovX (w : Bool) (d : BitVec 3) (a : BitVec 3) (x : BitVec 5) (y : BitVec 4)
  /-- R292 VFMA: Element-wise fused multiply-add into td (T form). -/
  | vfma (w : Bool) (d : BitVec 3) (a : BitVec 3) (b : BitVec 3) (r : BitVec 5) (y : BitVec 4)
  /-- R292 VFMA_X: Element-wise fused multiply-add into td (X form). -/
  | vfmaX (w : Bool) (d : BitVec 3) (a : BitVec 3) (b : BitVec 3) (x : BitVec 5) (y : BitVec 4)
  /-- R296 VRCP: Element-wise reciprocal estimate (T form). -/
  | vrcp (w : Bool) (d : BitVec 3) (a : BitVec 3) (r : BitVec 5) (y : BitVec 4)
  /-- R296 VRCP_X: Element-wise reciprocal estimate (X form). -/
  | vrcpX (w : Bool) (d : BitVec 3) (a : BitVec 3) (x : BitVec 5) (y : BitVec 4)
  /-- R296 VRSQ: Element-wise reciprocal square root estimate (T form). -/
  | vrsq (w : Bool) (d : BitVec 3) (a : BitVec 3) (r : BitVec 5) (y : BitVec 4)
  /-- R296 VRSQ_X: Element-wise reciprocal square root estimate (X form). -/
  | vrsqX (w : Bool) (d : BitVec 3) (a : BitVec 3) (x : BitVec 5) (y : BitVec 4)
  /-- R297 VRFN: One Newton step of a reciprocal estimate (T form). -/
  | vrfn (w : Bool) (d : BitVec 3) (a : BitVec 3) (b : BitVec 3) (r : BitVec 5) (y : BitVec 4)
  /-- R297 VRFN_X: One Newton step of a reciprocal estimate (X form). -/
  | vrfnX (w : Bool) (d : BitVec 3) (a : BitVec 3) (b : BitVec 3) (x : BitVec 5) (y : BitVec 4)
  /-- R297 VRFS: One Newton step of a reciprocal square root estimate (T form). -/
  | vrfs (w : Bool) (d : BitVec 3) (a : BitVec 3) (b : BitVec 3) (r : BitVec 5) (y : BitVec 4)
  /-- R297 VRFS_X: One Newton step of a reciprocal square root estimate (X form). -/
  | vrfsX (w : Bool) (d : BitVec 3) (a : BitVec 3) (b : BitVec 3) (x : BitVec 5) (y : BitVec 4)
  /-- R296 VEXP2: Element-wise 2^x estimate (T form). -/
  | vexp2 (w : Bool) (d : BitVec 3) (a : BitVec 3) (r : BitVec 5) (y : BitVec 4)
  /-- R296 VEXP2_X: Element-wise 2^x estimate (X form). -/
  | vexp2X (w : Bool) (d : BitVec 3) (a : BitVec 3) (x : BitVec 5) (y : BitVec 4)
  /-- R296 VLOG2: Element-wise log2 estimate (T form). -/
  | vlog2 (w : Bool) (d : BitVec 3) (a : BitVec 3) (r : BitVec 5) (y : BitVec 4)
  /-- R296 VLOG2_X: Element-wise log2 estimate (X form). -/
  | vlog2X (w : Bool) (d : BitVec 3) (a : BitVec 3) (x : BitVec 5) (y : BitVec 4)
  /-- R293 VCVT: Converts one part of a row between non-block types (T form). -/
  | vcvt (w : Bool) (d : BitVec 3) (a : BitVec 3) (p : BitVec 3) (r : BitVec 5) (y : BitVec 4) (c : BitVec 4)
  /-- R293 VCVT_X: Converts one part of a row between non-block types (X form). -/
  | vcvtX (w : Bool) (d : BitVec 3) (a : BitVec 3) (p : BitVec 3) (x : BitVec 5) (y : BitVec 4) (c : BitVec 4)
  /-- R294 VQNT: Quantises a source row to block codes under the OCP rule (T form). -/
  | vqnt (w : Bool) (d : BitVec 3) (a : BitVec 3) (p : BitVec 3) (r : BitVec 5) (y : BitVec 4)
  /-- R294 VQNT_X: Quantises a source row to block codes under the OCP rule (X form). -/
  | vqntX (w : Bool) (d : BitVec 3) (a : BitVec 3) (p : BitVec 3) (x : BitVec 5) (y : BitVec 4)
  /-- R295 VDQ: Decodes block codes of a row to a float type (T form). -/
  | vdq (w : Bool) (d : BitVec 3) (a : BitVec 3) (p : BitVec 3) (r : BitVec 5) (y : BitVec 4)
  /-- R295 VDQ_X: Decodes block codes of a row to a float type (X form). -/
  | vdqX (w : Bool) (d : BitVec 3) (a : BitVec 3) (p : BitVec 3) (x : BitVec 5) (y : BitVec 4)
  /-- R298 VRED_SUM: Sums a row in a fixed pairwise tree (T form). -/
  | vredSum (w : Bool) (d : BitVec 3) (a : BitVec 3) (r : BitVec 5) (y : BitVec 4)
  /-- R298 VRED_SUM_X: Sums a row in a fixed pairwise tree (X form). -/
  | vredSumX (w : Bool) (d : BitVec 3) (a : BitVec 3) (x : BitVec 5) (y : BitVec 4)
  /-- R298 VRED_MIN: Reduces a row to its minimum (T form). -/
  | vredMin (w : Bool) (d : BitVec 3) (a : BitVec 3) (r : BitVec 5) (y : BitVec 4)
  /-- R298 VRED_MIN_X: Reduces a row to its minimum (X form). -/
  | vredMinX (w : Bool) (d : BitVec 3) (a : BitVec 3) (x : BitVec 5) (y : BitVec 4)
  /-- R298 VRED_MAX: Reduces a row to its maximum (T form). -/
  | vredMax (w : Bool) (d : BitVec 3) (a : BitVec 3) (r : BitVec 5) (y : BitVec 4)
  /-- R298 VRED_MAX_X: Reduces a row to its maximum (X form). -/
  | vredMaxX (w : Bool) (d : BitVec 3) (a : BitVec 3) (x : BitVec 5) (y : BitVec 4)
  /-- R298 VRED_AMAX: Reduces a row to its largest magnitude (T form). -/
  | vredAmax (w : Bool) (d : BitVec 3) (a : BitVec 3) (r : BitVec 5) (y : BitVec 4)
  /-- R298 VRED_AMAX_X: Reduces a row to its largest magnitude (X form). -/
  | vredAmaxX (w : Bool) (d : BitVec 3) (a : BitVec 3) (x : BitVec 5) (y : BitVec 4)
  /-- R298 VSCAN: Writes the inclusive prefix sum of a row (T form). -/
  | vscan (w : Bool) (d : BitVec 3) (a : BitVec 3) (r : BitVec 5) (y : BitVec 4)
  /-- R298 VSCAN_X: Writes the inclusive prefix sum of a row (X form). -/
  | vscanX (w : Bool) (d : BitVec 3) (a : BitVec 3) (x : BitVec 5) (y : BitVec 4)
  /-- R299 VPERM: Permutes row elements by a control row. -/
  | vperm (w : Bool) (d : BitVec 3) (a : BitVec 3) (b : BitVec 3) (r : BitVec 5) (y : BitVec 4)
  /-- R299 VINS: Expands row elements into the positions a mask selects. -/
  | vins (w : Bool) (d : BitVec 3) (a : BitVec 3) (b : BitVec 3) (r : BitVec 5) (y : BitVec 4)
  /-- R299 VEXT: Compresses the row elements a mask selects. -/
  | vext (w : Bool) (d : BitVec 3) (a : BitVec 3) (b : BitVec 3) (r : BitVec 5) (y : BitVec 4)
  /-- R299 VBCAST: Broadcasts element J of a row to every element. -/
  | vbcast (w : Bool) (d : BitVec 3) (a : BitVec 3) (j : BitVec 3) (r : BitVec 5) (y : BitVec 4)
  /-- R301 VNEUR: Advances a row of neurons one step, updating spk and nparam3. -/
  | vneur (w : Bool) (d : BitVec 3) (a : BitVec 3) (b : BitVec 3) (r : BitVec 5) (y : BitVec 4)
  /-- R333 MVA: Writes tile rows into columns of an accumulator, converting exactly. -/
  | mva (w : Bool) (c : BitVec 3) (t : BitVec 3) (p : BitVec 3) (y : BitVec 4)
  /-- R334 AMV: Writes accumulator columns into a tile, converting under frm. -/
  | amv (w : Bool) (t : BitVec 3) (c : BitVec 3) (p : BitVec 3) (y : BitVec 4)
  /-- R373 TRAP: Raises TRAPI at its own word with tval n. -/
  | trap (w : Bool) (n : BitVec 14)
  /-- R373 SYSC: Raises TRAPI after its own word with SC set. -/
  | sysc (w : Bool) (n : BitVec 14)
  /-- R374 ERET: Returns from a trap handler to epc in the saved mode. -/
  | eret (w : Bool)
  /-- R375 TLBI: Invalidates the context's translations covering one address and stalls until acknowledged. -/
  | tlbi (w : Bool) (a : BitVec 5)
  /-- R375 TLBI_ALL: Invalidates every translation of the context and stalls until acknowledged. -/
  | tlbiAll (w : Bool)
  /-- R376 NLOG: Appends a software entry to the router's night log. -/
  | nlog (w : Bool) (a : BitVec 5) (b : BitVec 5)
  /-- R389 CKPT: Starts a checkpoint at tick T from a descriptor, returning a number or error. -/
  | ckpt (w : Bool) (d : BitVec 5) (a : BitVec 5) (b : BitVec 5)
  /-- R386 CTXC_QUERY: Returns the state of a context. -/
  | ctxcQuery (w : Bool) (d : BitVec 5) (a : BitVec 5)
  /-- R386 CTXC_RDF: Reads a field of a context descriptor. -/
  | ctxcRdf (w : Bool) (d : BitVec 5) (a : BitVec 5)
  /-- R386 CTXC_WRF: Writes a field of a context descriptor and returns the old value. -/
  | ctxcWrf (w : Bool) (d : BitVec 5) (a : BitVec 5) (b : BitVec 5)
  /-- R379 CTXC_FRZ: Begins freezing a running context. -/
  | ctxcFrz (w : Bool) (d : BitVec 5) (a : BitVec 5)
  /-- R384 CTXC_THAW: Begins thawing a frozen context. -/
  | ctxcThaw (w : Bool) (d : BitVec 5) (a : BitVec 5)
  /-- R385 CTXC_TEAR: Empties a frozen context, sealing rounds and freeing keys and watches. -/
  | ctxcTear (w : Bool) (d : BitVec 5) (a : BitVec 5)
  /-- R275 BFILL: Fills COUNT elements at DST with VALUE. -/
  | bfill (core : Nat) (cw : BitVec 256)
  /-- R275 BADD: Adds SRC elements to DST elements. -/
  | badd (core : Nat) (cw : BitVec 256)
  /-- R275 BAXPY: Computes a times SRC plus DST with one rounding. -/
  | baxpy (core : Nat) (cw : BitVec 256)
  /-- R275 BRED: Sums SRC in a fixed piece order into DST[0]. -/
  | bred (core : Nat) (cw : BitVec 256)
  /-- R325 MMA: Accumulates A times B into an accumulator over the edge shape. -/
  | mma (core : Nat) (cw : BitVec 256)
  /-- R325 MMZ: Zeroes the accumulator, then accumulates A times B. -/
  | mmz (core : Nat) (cw : BitVec 256)
  /-- R328 ACRD: Reads accumulator elements into scratchpad with conversion. -/
  | acrd (core : Nat) (cw : BitVec 256)
  /-- R329 ACWR: Writes accumulator elements from scratchpad exactly. -/
  | acwr (core : Nat) (cw : BitVec 256)
  /-- R330 MTR: Transposes scratchpad rows. -/
  | mtr (core : Nat) (cw : BitVec 256)
  /-- R346 WLOAD: Loads a tile of a tensor into scratchpad with padding. -/
  | wload (core : Nat) (cw : BitVec 256)
  /-- R346 WSTORE: Stores the in-bounds elements of a tile from scratchpad. -/
  | wstore (core : Nat) (cw : BitVec 256)
  /-- R356 WSTQ: Stores a tile quantised under delayed scaling. -/
  | wstq (core : Nat) (cw : BitVec 256)
  /-- R350 WMCAST: Loads a tile into every scratchpad of a group. -/
  | wmcast (core : Nat) (cw : BitVec 256)
  /-- R353 WDEAL: Deals burst rows block-cyclically over a group's destinations. -/
  | wdeal (core : Nat) (cw : BitVec 256)
  /-- R354 WGATHER: Loads rows chosen by an index list. -/
  | wgather (core : Nat) (cw : BitVec 256)
  /-- R354 WSCATTER: Stores rows to positions chosen by an index list. -/
  | wscatter (core : Nat) (cw : BitVec 256)
  /-- R346 WFILL: Writes PAD to every in-bounds element of the tile region. -/
  | wfill (core : Nat) (cw : BitVec 256)
  /-- R346 SIGNAL: Completes once every earlier command of its qw has completed. -/
  | signal (core : Nat) (cw : BitVec 256)
  /-- R33 ILLEGAL_WORD: A word with a reserved OP, code, type or nonzero reserved field traps ILLEGAL. -/
  | illegalWord (x : BitVec 32)
  /-- R107 TEND_COMPLETE: Once the send queue is empty and stores are performed, releases keys, makes the deferred signal and frees the core. -/
  | tendComplete (core : Nat)
  /-- R109 YIELD_COMPLETE: Once stores are performed, releases keys, writes the continuation into an inbox slot and frees the core. -/
  | yieldComplete (core : Nat)
  /-- R130 ST_REL_STORE_LEAVES: The held st.rel store leaves the core once its release condition holds. -/
  | stRelStoreLeaves (core : Nat) (seq : Nat)
  /-- R266 CADD_ADDITION_SENT: The held counter addition leaves the core once earlier loads return and stores are performed for its mask. -/
  | caddAdditionSent (core : Nat) (seq : Nat)
  /-- R195 TLNEW_AT_CLUSTER: The target message unit places the timeline or answers SLOT or FULL. -/
  | tlnewAtCluster (core : Nat) (seq : Nat)
  /-- R195 TLNEW_RESULT: The tlnew answer returns and is written to s[d]. -/
  | tlnewResult (core : Nat) (seq : Nat)
  /-- R196 TLFREE_ARRIVAL: The request reaches the slot, dead-lettering pending messages, orphaning in-slots and freeing or marking DYING. -/
  | tlfreeArrival (cluster : Nat) (ask : TlFree)
  /-- R197 SEND_INJECT: A queued message is injected once loads return, stores are performed for its mask, and receipt and sequence limits allow. -/
  | sendInject (core : Nat)
  /-- R202 CHOPEN_AT_TARGET: The target cluster checks the request and opens an in-slot or answers GONE, RANK, NOIN or LATE. -/
  | chopenAtTarget (core : Nat) (seq : Nat)
  /-- R202 CHOPEN_RESULT: The chopen answer returns; the out-slot opens or is freed and s[d] is written. -/
  | chopenResult (core : Nat) (seq : Nat)
  /-- R227 TSUB_RECORD_WRITE: The submitted record is written into its slot once the release condition of the mask holds. -/
  | tsubRecordWrite (core : Nat) (seq : Nat)
  /-- R228 KREL_SENT: KREL leaves for the key's desk once earlier loads return and stores are performed for all classes. -/
  | krelSent (core : Nat) (seq : Nat)
  /-- R243 BAR_ARRIVAL_SENT: The member's arrival leaves for the barrier entry once its release condition holds. -/
  | barArrivalSent (core : Nat) (seq : Nat)
  /-- R318 PUSH_ENTERS_QUEUE: A pushed command word enters its queue once loads return, row writes finish and stores are performed for the queue's class. -/
  | pushEntersQueue (core : Nat) (seq : Nat)
  /-- R282 VECTOR_UNIT_START: The vector unit starts the ready head row instruction of the next queue in round robin. -/
  | vectorUnitStart (cluster : Nat)
  /-- R284 ROW_WRITE: A started row instruction's result row is written after its latency, with its flags. -/
  | rowWrite (core : Nat)
  /-- R375 TLBI_INVALIDATE: A TLB, walker, translation unit or constant cache receives the invalidation and acknowledges when empty of it. -/
  | tlbiInvalidate (core : Nat) (unit : Nat) (index : Nat) (all : Bool) (va : BitVec 64)
  /-- R362 QREQ_WRITE: Setting QREQ makes the survey token circulate until QUIET is formed. -/
  | qreqWrite (ctx : Nat) (v : BitVec 64)
  /-- R362 OQCAP_WRITE: Raising OQCAP makes room in the overflow queue for waiting divert entries. -/
  | oqcapWrite (ctx : Nat) (v : BitVec 64)
  /-- R368 TRAP_ENTRY: After outstanding results return, enters the trap handler at TVEC in supervisor mode. -/
  | trapEntry (core : Nat)
  /-- R372 WATCHDOG: When budget reaches zero the task traps WATCHDOG at the next word boundary. -/
  | watchdog (core : Nat)
  /-- R117 TRANSLATION_WALK: A page walk ends with a translation or an XLATE or ACCESS outcome. -/
  | translationWalk (core : Nat) (va : BitVec 64) (kind : Access)
  /-- R253 BANK_LOAD: A load request is applied at its home bank and answered. -/
  | bankLoad (id : Nat)
  /-- R260 BANK_STORE: A store request is applied at its home bank, as a read-modify-write when partial, and acknowledged. -/
  | bankStore (id : Nat)
  /-- R146 ROW_LOAD_REQUEST: A row load request returns four data flits or one error flit. -/
  | rowLoadRequest (id : Nat)
  /-- R146 ROW_STORE_REQUEST: A row store request writes 64 bytes at the target. -/
  | rowStoreRequest (id : Nat)
  /-- R138 SCALE_SLOT_WRITE: A scale-slot write updates the masked slots of a scale group. -/
  | scaleSlotWrite (id : Nat)
  /-- R262 AMO_AT_BANK: The home bank applies an atomic in one step and returns the old value. -/
  | amoAtBank (id : Nat)
  /-- R264 CAS_AT_BANK: The home bank compares and conditionally swaps in one step. -/
  | casAtBank (id : Nat)
  /-- R266 COUNTER_ADD_AT_BANK: A cadd, deferred signal or SIGH addition saturatingly adds to a counter and tests its watches. -/
  | counterAddAtBank (id : Nat)
  /-- R269 DADD_AT_BANK: A deterministic-add contribution is held in drain order or applied in a spilled round. -/
  | daddAtBank (id : Nat)
  /-- R270 DSEAL_AT_BANK: The bank drains and frees the open lines of a word and returns their status. -/
  | dsealAtBank (id : Nat)
  /-- R127 LOAD_RESPONSE: A scalar load or atomic response writes the outstanding register or reports a deferred fault. -/
  | loadResponse (id : Nat)
  /-- R126 STORE_ACK: A store acknowledgement frees one of the core's outstanding store entries. -/
  | storeAck (id : Nat)
  /-- R139 ROW_LOAD_RESPONSE: Returned row data or scale groups are written into the tile, zero rows for poisoned or refused returns. -/
  | rowLoadResponse (id : Nat)
  /-- R149 FLIT_INJECT: A cluster or walker offers a flit for injection into a free productive port. -/
  | flitInject (cluster : Nat)
  /-- R148 FLIT_ARRIVAL: A router ranks arriving flits by age and assigns productive or deflecting ports. -/
  | flitArrival (router : Nat)
  /-- R152 RECEIPT_ARRIVAL: An RCPT frees the source's receipt entry and may resume injection. -/
  | receiptArrival (src : Nat) (mtag : Nat)
  /-- R413 NAK_ARRIVAL: A NAK counts as the refused message's receipt or answers a memory request with ACCESS. -/
  | nakArrival (src : Nat) (mtag : Nat) (mem : Bool)
  /-- R157 INJECTION_STOP: A flit unacknowledged for 2,048 cycles stops the cluster's injection. -/
  | injectionStop (cluster : Nat)
  /-- R158 THROTTLE_WINDOW: At the end of each 256-cycle window the router moves its throttle level by at most one. -/
  | throttleWindow (router : Nat)
  /-- R159 BULK_DEFER_EXPIRY: A bulk task deferred 16,384 cycles starts whatever the throttle level. -/
  | bulkDeferExpiry (cluster : Nat) (tag : Nat)
  /-- R153 OVERFLOW_WRITE: A complete diverted record is written to the overflow queue, freeing its divert entry. -/
  | overflowWrite (cluster : Nat)
  /-- R154 RECALL: A freed slot recalls the least-stamp record of its class from the overflow queue. -/
  | recall (cluster : Nat) (cls : MsgClass)
  /-- R154 OVMIN_RECOMPUTE_DONE: The timeline's overflow-minimum recomputation ends, allowing its next recall. -/
  | ovminRecomputeDone (cluster : Nat) (slot : Nat)
  /-- R405 LINK_REPLAY: A CRC failure on a bridge or fabric link makes the sender replay from the failed flit. -/
  | linkReplay (link : Nat) (up : Bool) (seqno : BitVec 64)
  /-- R405 RETRAIN_END: After 12,288 cycles retraining ends, or fails and the link goes DOWN. -/
  | retrainEnd (link : Nat) (ok : Bool)
  /-- R427 PCIE_COMPLETION_TIMEOUT: A PCIe completion timeout answers the request with status ERROR. -/
  | pcieCompletionTimeout (id : Nat)
  /-- R179 PROMISE_ARRIVAL: A promise raises the horizon or is parked until its sequence count is reached. -/
  | promiseArrival (cluster : Nat) (slot : Nat) (cseq : BitVec 8) (v : BitVec 64)
  /-- R180 TRANSIT: A timeline's candidate passes the transit test and enters HEAD. -/
  | transit (cluster : Nat) (slot : Nat)
  /-- R185 PROMISE_SEND: An out-slot forms a promise flit by quantum, ask, waiting ask or close. -/
  | promiseSend (cluster : Nat) (out : Nat)
  /-- R186 ASK_SEND: A candidate blocked 64 cycles by an in-slot sends an ASK to its sender. -/
  | askSend (cluster : Nat) (slot : Nat)
  /-- R185 ASK_ARRIVAL: An ask at an out-slot sends a promise or sets ASKP, or is discarded. -/
  | askArrival (cluster : Nat) (out : Nat)
  /-- R187 TOKEN_START: A stopped survey token starts a circuit when a circulation condition holds. -/
  | tokenStart (ctx : Nat)
  /-- R189 SURVEY_VISIT: The token visits an interface, folding in CNT, MHERE, MSENT and BLK. -/
  | surveyVisit (ctx : Nat)
  /-- R191 SURVSTALL: A circuit not ended within 65,536 cycles sends SURVSTALL. -/
  | survstall (ctx : Nat)
  /-- R194 EVENT_ARRIVAL: An event flit is held in the event store or dropped when it is full. -/
  | eventArrival (cluster : Nat) (slot : Nat) (cseq : BitVec 8) (src : BitVec 12) (stamp : BitVec 64) (p0 : BitVec 64)
  /-- R206 TASK_ENTRY: A complete untimed record takes a free task entry of its range. -/
  | taskEntry (cluster : Nat)
  /-- R216 DESK_KREQ: A desk grants a free key, queues a hold or refuses the request. -/
  | deskKreq (slice : Nat) (ctx : Nat) (cluster : Nat) (tag : Nat) (key : BitVec 16)
  /-- R215 KGRANT_ARRIVAL: A grant lets the dispatcher request the next key or register the conditions. -/
  | kgrantArrival (cluster : Nat) (tag : Nat) (key : BitVec 16)
  /-- R217 KREFUSE_ARRIVAL: A refused key request is scheduled for retry with backoff. -/
  | krefuseArrival (cluster : Nat) (tag : Nat) (key : BitVec 16)
  /-- R217 KEY_RETRY: The backoff expires and the key request is sent again. -/
  | keyRetry (cluster : Nat) (tag : Nat)
  /-- R216 DESK_KREL: A release grants the key to the first hold, parks it for a frozen context, or frees the entry. -/
  | deskKrel (slice : Nat) (ctx : Nat) (cluster : Nat) (tag : Nat) (key : BitVec 16)
  /-- R226 DESK_KCANCEL: A desk withdraws a hold or releases a key already granted. -/
  | deskKcancel (slice : Nat) (ctx : Nat) (cluster : Nat) (tag : Nat) (key : BitVec 16)
  /-- R226 KRUN_AT_DESK: A desk sets HRUN for the named holder of a key. -/
  | krunAtDesk (slice : Nat) (ctx : Nat) (cluster : Nat) (tag : Nat) (key : BitVec 16)
  /-- R229 KQUERY_AT_DESK: A desk answers a kheld query with a KSTAT snapshot. -/
  | kqueryAtDesk (core : Nat) (seq : Nat)
  /-- R229 KSTAT_ARRIVAL: The KSTAT answer writes the kheld result register. -/
  | kstatArrival (core : Nat) (seq : Nat)
  /-- R222 WREG_AT_SLICE: A slice answers WMET at once, allocates a watch, or refuses. -/
  | wregAtSlice (cluster : Nat) (tag : Nat) (cond : Nat)
  /-- R222 WMET_ARRIVAL: The dispatcher latches a met condition; the task becomes READY on its last. -/
  | wmetArrival (cluster : Nat) (tag : Nat) (cond : Nat)
  /-- R223 WREFUSE_ARRIVAL: A refused condition enters polling mode. -/
  | wrefuseArrival (cluster : Nat) (tag : Nat) (cond : Nat)
  /-- R223 WATCH_POLL: Every 512 cycles the dispatcher resends the WREG of a polling condition. -/
  | watchPoll (cluster : Nat) (tag : Nat) (cond : Nat)
  /-- R226 WCANCEL_AT_SLICE: A slice frees a watch entry. -/
  | wcancelAtSlice (slice : Nat) (cluster : Nat) (tag : Nat) (cond : Nat)
  /-- R223 DWAIT: A task holding keys in ACQ or COND for 2^20 cycles sends DWAIT once. -/
  | dwait (cluster : Nat) (tag : Nat)
  /-- R209 DISPATCH: A free core takes the first READY task by class, priority, stamp and round robin and starts it. -/
  | dispatch (cluster : Nat)
  /-- R210 PRIORITY_PROMOTION: READY time raises effective priority every 4,096 cycles and promotes past 16,384 cycles. -/
  | priorityPromotion (cluster : Nat) (tag : Nat)
  /-- R237 QUAD_HOLD_REQUEST: The barrier unit grants a quad hold in arrival order. -/
  | quadHoldRequest (cluster : Nat) (tag : Nat)
  /-- R237 QUAD_GANG_START: When all 16 quad cores are held, the 16 members start together. -/
  | quadGangStart (quad : Nat)
  /-- R241 BARRIER_ARRIVAL: An arrival is recorded in ARR or NXT and phases complete when all members arrived or exited. -/
  | barrierArrival (core : Nat)
  /-- R241 BARRIER_EXIT: A member's exit counts as arrived in every later phase. -/
  | barrierExit (core : Nat)
  /-- R246 BARRIER_WAKE: The wake reaches a parked member, which resumes issue. -/
  | barrierWake (core : Nat)
  /-- R254 SLWIN_WRITE: Starts a switch of the selected slice's window size. -/
  | slwinWrite (v : BitVec 64)
  /-- R254 SLWIN_SWITCH_DONE: The window switch finishes and slwin reads the new value. -/
  | slwinSwitchDone (slice : Nat) (win : BitVec 2)
  /-- R257 SLCOLS_WRITE: Requests a change of powered slice columns, ignored with COLBUSY if not empty. -/
  | slcolsWrite (v : BitVec 64)
  /-- R257 SLCOLS_SWITCH: All slices and translation units change hash in one step. -/
  | slcolsSwitch (cols : BitVec 4)
  /-- R404 PATROL_SCRUB: The scrubber reads a word in an idle bank cycle and corrects single-bit errors. -/
  | patrolScrub (slice : Nat) (addr : Nat)
  /-- R319 LEASE_GRANT: The array grants the lease to the next core whose qm head is ready. -/
  | leaseGrant (cluster : Nat)
  /-- R311 RELEASE_MARKER_HEAD: A release marker at the head of qm frees every accumulator the core owns. -/
  | releaseMarkerHead (core : Nat)
  /-- R44 WAITH_RECHECK: Every 128 cycles an engine rereads the counter its head command waits on. -/
  | waithRecheck (core : Nat) (q : BitVec 2)
  /-- R312 ENGINE_COMMAND_COMPLETE: A command's work completes and its SIGH addition is sent or its element placed. -/
  | engineCommandComplete (core : Nat) (q : BitVec 2) (ser : BitVec 16)
  /-- R44 SIGH_ANSWER: The counter home answers the SIGH addition and the result element is placed. -/
  | sighAnswer (core : Nat) (q : BitVec 2) (ser : BitVec 16)
  /-- R356 SCALING_EXCHANGE: The scaling record's bank returns the ring maximum and writes the new maximum in one step. -/
  | scalingExchange (core : Nat) (ser : BitVec 16)
  /-- R351 MCAST_TRANSFER: A receiving walker writes or discards a transfer by generation and acknowledges it. -/
  | mcastTransfer (id : Nat)
  /-- R352 DRAIN_ADDITION: Once all transfers are acknowledged the walker adds 1 to the drain counter. -/
  | drainAddition (core : Nat) (ser : BitVec 16)
  /-- R379 FREEZE_GRACE_END: After 20,000 cycles of grace, running tasks are stopped and CONT records written. -/
  | freezeGraceEnd (ctx : Nat)
  /-- R379 FREEZE_DONE: All freeze steps done, the context is FROZEN and firmware gets FROZEN. -/
  | freezeDone (ctx : Nat)
  /-- R384 THAW_DONE: Images restored, CONT tasks started and backing inbox replayed, the context is RUN. -/
  | thawDone (ctx : Nat)
  /-- R390 PAGE_PRESERVE: A store at tick >= T to an unarchived page is held until the page is copied to shadow. -/
  | pagePreserve (ctx : Nat) (page : Nat)
  /-- R391 ARCHIVE_START: When mer reaches T the archive engine begins copying pages. -/
  | archiveStart (ctx : Nat)
  /-- R391 ARCHIVE_PAGE: A page image and its index entry are written and its shadow freed. -/
  | archivePage (ctx : Nat) (page : Nat)
  /-- R392 CHECKPOINT_COMPLETE: Every page archived, CKNUM is set and CKDONE sent. -/
  | checkpointComplete (ctx : Nat)
  /-- R410 NLCTL_WRITE: Clearing FRZ thaws every router's night log. -/
  | nlctlWrite (v : BitVec 64)
  /-- R405 LNKST_WRITE: Writing RATE retrains the selected link at that rate. -/
  | lnkstWrite (v : BitVec 64)
  /-- R411 CNRECT_WRITE: Sets a containment rectangle, ignored if fenced, overlapping or outside RECT. -/
  | cnrectWrite (v : BitVec 64)
  /-- R412 CNCTL_FENCE: Setting FENCE makes boundary routers refuse flits into the rectangle. -/
  | cnctlFence (rect : Nat) (on : Bool)
  /-- R412 CNCTL_RESET: Starts the containment reset of the fenced rectangle. -/
  | cnctlReset (rect : Nat)
  /-- R412 CONTAINMENT_RESET_DONE: The reset ends, DONE is set and NAKR is sent. -/
  | containmentResetDone (rect : Nat)
  /-- R90 REGISTER_WRITE: A write to a CSR or device register without a row of its own stores the value. -/
  | registerWrite (r : DevReg) (v : BitVec 64)
  /-- R417 HOST_POST_WRITE: A 64-byte post-window write becomes a message or is dropped with HPWDROP. -/
  | hostPostWrite (fn : Nat) (entry : Nat) (link : Nat) (r : List (BitVec 64))
  /-- R417 HOST_PROMISE: A post-window write with word 0 all ones raises the host channel's horizon. -/
  | hostPromise (fn : Nat) (entry : Nat) (link : Nat) (v : BitVec 64)
  /-- R420 HOST_REPLY_WRITE: A reply to the host is written to the reply ring when it has room and RRTAIL advances. -/
  | hostReplyWrite (core : Nat)
  /-- R420 RRHEAD_WRITE: The host advances RRHEAD, making room for waiting replies. -/
  | rrheadWrite (fn : Nat) (v : BitVec 64)
  /-- R419 VFBIND_WRITE: Binds a VF to a context unless it is resident and bound. -/
  | vfbindWrite (fn : Nat) (v : BitVec 64)
  /-- R419 DOMID_WRITE: Sets the device id while READY is 0. -/
  | domidWrite (v : BitVec 64)
  /-- R421 FIRMWARE_REQUEST_TAKE: Firmware takes a supervisor request ring entry and acts on RECTS or HOST. -/
  | firmwareRequestTake (ctx : Nat)
  /-- R424 REDUCTION_DESCRIPTOR_WRITE: The PF sets a reduction window descriptor, ignored if invalid. -/
  | reductionDescriptorWrite (ws : List (BitVec 64))
  /-- R424 REDUCTION_CONTRIBUTION: The switch takes a contribution and, when all N arrive, writes the ordered sum and adds to DRC. -/
  | reductionContribution (window : Nat) (device : Nat) (offset : Nat) (size : Nat) (gen : BitVec 2) (data : BitVec 512)
  /-- R423 FABRIC_FRAME_ARRIVAL: A frame from a peer device enters through a fabric port and is counted for the survey. -/
  | fabricFrameArrival (port : Nat) (frame : Frame)
  /-- R425 THERMAL_TRIP: A junction at 105 C writes THERM and lowers the clock to 2.4 GHz. -/
  | thermalTrip
  /-- R425 THERMAL_RECOVER: The junction falls below 95 C and the clock returns to full rate. -/
  | thermalRecover
  /-- R425 PERST_RELEASE: Release of PERST# runs bring-up and sets READY. -/
  | perstRelease
  /-- R377 CONTEXT_CREATE: Firmware creates a context from the launch table, placing its queues and descriptor and moving it from EMPTY to RUN. -/
  | contextCreate (ctx : Nat) (l : Launch)
  /-- R427 PCIE_COMPLETION_ARRIVAL: A PCIe completion from the host, with data, Completer Abort or refusal, answers a device read of host memory. -/
  | pcieCompletionArrival (id : Nat) (status : BitVec 4)
deriving DecidableEq, Repr

end Sys2Proof
end

