-- ==== Sys2Proof/WellFormed.lean ====
section
/-! DEFINITION. Which instructions are well formed: what R33 asks of an encoding beyond the fields its row of
the table fixes. A core word that is not well formed traps ILLEGAL. -/

namespace Sys2Proof

/-- F of R287: f32, f64, f19, bf16, f16, the types of R38. -/
def isF (y : BitVec 4) : Bool := y.toNat ≤ 4

/-- I of R287: i8, n8, i16, i32. -/
def isI (y : BitVec 4) : Bool := 7 ≤ y.toNat && y.toNat ≤ 10

/-- P of R287: every type code 0x0 to 0xA. -/
def isP (y : BitVec 4) : Bool := y.toNat ≤ 10

/-- The block types 0xB to 0xE (R63). -/
def isBlock (y : BitVec 4) : Bool := 11 ≤ y.toNat && y.toNat ≤ 14

/-- The types of the special functions (R287). -/
def isSpecial (y : BitVec 4) : Bool := y = 0 || y = 2 || y = 3 || y = 4

/-- The types of fcvt (R38). -/
def isCvt (y : BitVec 4) : Bool := y.toNat ≤ 10 || y = 15

/-- The integer types of fcvt (R101). -/
def isInt (y : BitVec 4) : Bool := (7 ≤ y.toNat && y.toNat ≤ 10) || y = 15

/-- Bytes of one element of a type 0x0 to 0xA (R58). -/
def elemBytes (y : BitVec 4) : Nat :=
  match y.toNat with
  | 0 => 4 | 1 => 8 | 2 => 4 | 3 => 2 | 4 => 2 | 5 => 1 | 6 => 1 | 7 => 1 | 8 => 1 | 9 => 2 | _ => 4

/-- The ratio of two element widths, which bounds PART of vcvt (R293). -/
def partRatio (y c : BitVec 4) : Nat :=
  max (elemBytes y) (elemBytes c) / min (elemBytes y) (elemBytes c)

/-- The encoding check of R33 on the fields of a core word, and for a command that its CWOP names it (R42).
ILLEGAL_WORD is a word that is no row of the table; every other row that is no word has no encoding. -/
def Instr.wf : Instr → Bool
  | .add _ _ _ _ => true
  | .sub _ _ _ _ => true
  | .mul _ _ _ _ => true
  | .mulh _ _ _ _ => true
  | .mulhu _ _ _ _ => true
  | .div _ _ _ _ => true
  | .divu _ _ _ _ => true
  | .rem _ _ _ _ => true
  | .remu _ _ _ _ => true
  | .and _ _ _ _ => true
  | .or _ _ _ _ => true
  | .xor _ _ _ _ => true
  | .andn _ _ _ _ => true
  | .orn _ _ _ _ => true
  | .sll _ _ _ _ => true
  | .srl _ _ _ _ => true
  | .sra _ _ _ _ => true
  | .rol _ _ _ _ => true
  | .min _ _ _ _ => true
  | .max _ _ _ _ => true
  | .minu _ _ _ _ => true
  | .maxu _ _ _ _ => true
  | .slt _ _ _ _ => true
  | .sltu _ _ _ _ => true
  | .seq _ _ _ _ => true
  | .clz _ _ _ => true
  | .ctz _ _ _ => true
  | .popc _ _ _ => true
  | .sel _ _ _ _ _ => true
  | .ext _ _ _ l p => p.toNat + (l.toNat + 1) ≤ 64
  | .exts _ _ _ l p => p.toNat + (l.toNat + 1) ≤ 64
  | .ins _ _ _ l p => p.toNat + (l.toNat + 1) ≤ 64
  | .addi _ _ _ _ => true
  | .andi _ _ _ _ => true
  | .ori _ _ _ _ => true
  | .xori _ _ _ _ => true
  | .slli _ _ _ _ => true
  | .srli _ _ _ _ => true
  | .srai _ _ _ _ => true
  | .slti _ _ _ _ => true
  | .sltiu _ _ _ _ => true
  | .lui _ _ _ => true
  | .auipc _ _ _ => true
  | .fadd _ _ _ _ y => isF y
  | .fsub _ _ _ _ y => isF y
  | .fmul _ _ _ _ y => isF y
  | .fmin _ _ _ _ y => isF y
  | .fmax _ _ _ _ y => isF y
  | .fdiv _ _ _ _ y => isF y
  | .fsqrt _ _ _ y => isF y
  | .fcmpLt _ _ _ _ y => isF y
  | .fcmpLe _ _ _ _ y => isF y
  | .fcmpEq _ _ _ _ y => isF y
  | .fclass _ _ _ y => isF y
  | .fma _ _ _ _ _ y => isF y
  | .fcvt _ _ _ u f t => isCvt f && isCvt t && (u = 0 || isInt f || isInt t)
  | .beq _ _ _ _ => true
  | .bne _ _ _ _ => true
  | .blt _ _ _ _ => true
  | .bge _ _ _ _ => true
  | .bltu _ _ _ _ => true
  | .bgeu _ _ _ _ => true
  | .j _ _ => true
  | .jal _ _ => true
  | .jalr _ _ _ _ => true
  | .tend _ a n => a != 0 || n = 0
  | .yield _ _ => true
  | .csrr _ _ _ => true
  | .csrw _ _ _ _ => true
  | .csrs _ _ _ _ => true
  | .csrc _ _ _ _ => true
  | .ldB _ _ _ _ => true
  | .ldBz _ _ _ _ => true
  | .ldH _ _ _ _ => true
  | .ldHz _ _ _ _ => true
  | .ldW _ _ _ _ => true
  | .ldWz _ _ _ _ => true
  | .ldD _ _ _ _ => true
  | .stB _ _ _ _ => true
  | .stH _ _ _ _ => true
  | .stW _ _ _ _ => true
  | .stD _ _ _ _ => true
  | .ldAcq _ _ _ k _ => k != 0
  | .stRel _ _ _ k _ => k != 0
  | .fenceFull _ k => k != 0
  | .fenceAcq _ k => k != 0
  | .fenceRel _ k => k != 0
  | .amoAdd _ _ _ _ _ => true
  | .amoAnd _ _ _ _ _ => true
  | .amoOr _ _ _ _ _ => true
  | .amoXor _ _ _ _ _ => true
  | .amoMin _ _ _ _ _ => true
  | .amoMax _ _ _ _ _ => true
  | .amoMinu _ _ _ _ _ => true
  | .amoMaxu _ _ _ _ _ => true
  | .amoSwap _ _ _ _ _ => true
  | .amoFaddF32 _ _ _ _ => true
  | .amoFaddBf16 _ _ _ _ => true
  | .amoFmaxF32 _ _ _ _ => true
  | .casI64 _ _ _ _ _ => true
  | .casI32 _ _ _ _ _ => true
  | .dadd _ _ _ _ y => y = 0 || y = 1 || y = 15
  | .cadd _ _ _ _ k => k != 0
  | .dseal _ _ _ => true
  | .tlnew _ _ _ _ => true
  | .tlfree _ _ => true
  | .send _ _ _ _ k => k != 0
  | .post _ _ _ k => k != 0
  | .reply _ _ k => k != 0
  | .replyTo _ _ _ k => k != 0
  | .promise _ _ => true
  | .chopen _ _ _ _ => true
  | .chclose _ _ => true
  | .nstat _ _ a s => s.toNat ≤ 4 && (s = 3 || a = 0)
  | .tsub _ _ a k => k != 0 && a.toNat ≤ 26
  | .krel _ _ => true
  | .kheld _ _ _ => true
  | .bara _ k => k != 0
  | .barw _ => true
  | .bar _ k => k != 0
  | .mrls _ => true
  | .push _ q a => q != 3 && a.toNat ≤ 28
  | .pushm _ q _ _ _ => q != 3
  | .pop _ q _ => q != 3
  | .qstat _ q _ => q != 3
  | .tldr _ _ _ _ _ _ => true
  | .tstr _ _ _ _ _ _ => true
  | .tld _ _ _ _ => true
  | .tst _ _ _ _ => true
  | .vadd _ _ _ _ _ y => isF y || isI y
  | .vaddX _ _ _ _ _ y => isF y || isI y
  | .vsub _ _ _ _ _ y => isF y || isI y
  | .vsubX _ _ _ _ _ y => isF y || isI y
  | .vmul _ _ _ _ _ y => isF y || isI y
  | .vmulX _ _ _ _ _ y => isF y || isI y
  | .vmin _ _ _ _ _ y => isF y || isI y
  | .vminX _ _ _ _ _ y => isF y || isI y
  | .vmax _ _ _ _ _ y => isF y || isI y
  | .vmaxX _ _ _ _ _ y => isF y || isI y
  | .vabs _ _ _ _ y => isF y || isI y
  | .vabsX _ _ _ _ y => isF y || isI y
  | .vneg _ _ _ _ y => isF y || isI y
  | .vnegX _ _ _ _ y => isF y || isI y
  | .vand _ _ _ _ _ y => isI y
  | .vandX _ _ _ _ _ y => isI y
  | .vor _ _ _ _ _ y => isI y
  | .vorX _ _ _ _ _ y => isI y
  | .vxor _ _ _ _ _ y => isI y
  | .vxorX _ _ _ _ _ y => isI y
  | .vshl _ _ _ _ _ y => isI y
  | .vshlX _ _ _ _ _ y => isI y
  | .vshr _ _ _ _ _ y => isI y
  | .vshrX _ _ _ _ _ y => isI y
  | .vsra _ _ _ _ _ y => isI y
  | .vsraX _ _ _ _ _ y => isI y
  | .vcmpLt _ _ _ _ _ y => isF y || isI y
  | .vcmpLtX _ _ _ _ _ y => isF y || isI y
  | .vcmpLe _ _ _ _ _ y => isF y || isI y
  | .vcmpLeX _ _ _ _ _ y => isF y || isI y
  | .vcmpEq _ _ _ _ _ y => isF y || isI y
  | .vcmpEqX _ _ _ _ _ y => isF y || isI y
  | .vsel _ _ _ _ _ y => isP y
  | .vselX _ _ _ _ _ y => isP y
  | .vmov _ _ _ _ y => y != 15
  | .vmovX _ _ _ _ y => y != 15
  | .vfma _ _ _ _ _ y => isF y
  | .vfmaX _ _ _ _ _ y => isF y
  | .vrcp _ _ _ _ y => isSpecial y
  | .vrcpX _ _ _ _ y => isSpecial y
  | .vrsq _ _ _ _ y => isSpecial y
  | .vrsqX _ _ _ _ y => isSpecial y
  | .vrfn _ _ _ _ _ y => isSpecial y
  | .vrfnX _ _ _ _ _ y => isSpecial y
  | .vrfs _ _ _ _ _ y => isSpecial y
  | .vrfsX _ _ _ _ _ y => isSpecial y
  | .vexp2 _ _ _ _ y => isSpecial y
  | .vexp2X _ _ _ _ y => isSpecial y
  | .vlog2 _ _ _ _ y => isSpecial y
  | .vlog2X _ _ _ _ y => isSpecial y
  | .vcvt _ _ _ p _ y c => isP y && isP c && p.toNat < partRatio y c
  | .vcvtX _ _ _ p _ y c => isP y && isP c && p.toNat < partRatio y c
  | .vqnt _ _ _ _ _ y => isBlock y
  | .vqntX _ _ _ _ _ y => isBlock y
  | .vdq _ _ _ p _ y => y = 0 || ((y = 3 || y = 4) && p.toNat < 4)
  | .vdqX _ _ _ p _ y => y = 0 || ((y = 3 || y = 4) && p.toNat < 4)
  | .vredSum _ _ _ _ y => isF y || isI y
  | .vredSumX _ _ _ _ y => isF y || isI y
  | .vredMin _ _ _ _ y => isF y || isI y
  | .vredMinX _ _ _ _ y => isF y || isI y
  | .vredMax _ _ _ _ y => isF y || isI y
  | .vredMaxX _ _ _ _ y => isF y || isI y
  | .vredAmax _ _ _ _ y => isF y
  | .vredAmaxX _ _ _ _ y => isF y
  | .vscan _ _ _ _ y => isF y || isI y
  | .vscanX _ _ _ _ y => isF y || isI y
  | .vperm _ _ _ _ _ y => isP y
  | .vins _ _ _ _ _ y => isP y
  | .vext _ _ _ _ _ y => isP y
  | .vbcast _ _ _ _ _ y => isP y
  | .vneur _ _ _ _ _ y => y = 0 || y = 3
  | .mva _ c _ p y => isP y && c.toNat ≤ 3 && p.toNat < elemBytes y && (y != 1 || c.toNat % 2 = 0)
  | .amv _ _ c p y => isP y && c.toNat ≤ 3 && p.toNat < elemBytes y
  | .trap _ _ => true
  | .sysc _ _ => true
  | .eret _ => true
  | .tlbi _ _ => true
  | .tlbiAll _ => true
  | .nlog _ _ _ => true
  | .ckpt _ _ _ _ => true
  | .ctxcQuery _ _ _ => true
  | .ctxcRdf _ _ _ => true
  | .ctxcWrf _ _ _ _ => true
  | .ctxcFrz _ _ _ => true
  | .ctxcThaw _ _ _ => true
  | .ctxcTear _ _ _ => true
  | .bfill _ cw => cw.extractLsb' 0 8 = 0x40#8
  | .badd _ cw => cw.extractLsb' 0 8 = 0x41#8
  | .baxpy _ cw => cw.extractLsb' 0 8 = 0x42#8
  | .bred _ cw => cw.extractLsb' 0 8 = 0x43#8
  | .mma _ cw => cw.extractLsb' 0 8 = 0x01#8
  | .mmz _ cw => cw.extractLsb' 0 8 = 0x02#8
  | .acrd _ cw => cw.extractLsb' 0 8 = 0x03#8
  | .acwr _ cw => cw.extractLsb' 0 8 = 0x04#8
  | .mtr _ cw => cw.extractLsb' 0 8 = 0x05#8
  | .wload _ cw => cw.extractLsb' 0 8 = 0x20#8
  | .wstore _ cw => cw.extractLsb' 0 8 = 0x21#8
  | .wstq _ cw => cw.extractLsb' 0 8 = 0x22#8
  | .wmcast _ cw => cw.extractLsb' 0 8 = 0x23#8
  | .wdeal _ cw => cw.extractLsb' 0 8 = 0x24#8
  | .wgather _ cw => cw.extractLsb' 0 8 = 0x25#8
  | .wscatter _ cw => cw.extractLsb' 0 8 = 0x26#8
  | .wfill _ cw => cw.extractLsb' 0 8 = 0x27#8
  | .signal _ cw => cw.extractLsb' 0 8 = 0x28#8
  | .illegalWord _ => false
  | .tendComplete _ => true
  | .yieldComplete _ => true
  | .stRelStoreLeaves _ _ => true
  | .caddAdditionSent _ _ => true
  | .tlnewAtCluster _ _ => true
  | .tlnewResult _ _ => true
  | .tlfreeArrival _ _ => true
  | .sendInject _ => true
  | .chopenAtTarget _ _ => true
  | .chopenResult _ _ => true
  | .tsubRecordWrite _ _ => true
  | .krelSent _ _ => true
  | .barArrivalSent _ _ => true
  | .pushEntersQueue _ _ => true
  | .vectorUnitStart _ => true
  | .rowWrite _ => true
  | .tlbiInvalidate _ _ _ _ _ => true
  | .qreqWrite _ _ => true
  | .oqcapWrite _ _ => true
  | .trapEntry _ => true
  | .watchdog _ => true
  | .translationWalk _ _ _ => true
  | .bankLoad _ => true
  | .bankStore _ => true
  | .rowLoadRequest _ => true
  | .rowStoreRequest _ => true
  | .scaleSlotWrite _ => true
  | .amoAtBank _ => true
  | .casAtBank _ => true
  | .counterAddAtBank _ => true
  | .daddAtBank _ => true
  | .dsealAtBank _ => true
  | .loadResponse _ => true
  | .storeAck _ => true
  | .rowLoadResponse _ => true
  | .flitInject _ => true
  | .flitArrival _ => true
  | .receiptArrival _ _ => true
  | .nakArrival _ _ _ => true
  | .injectionStop _ => true
  | .throttleWindow _ => true
  | .bulkDeferExpiry _ _ => true
  | .overflowWrite _ => true
  | .recall _ _ => true
  | .ovminRecomputeDone _ _ => true
  | .linkReplay _ _ _ => true
  | .retrainEnd _ _ => true
  | .pcieCompletionTimeout _ => true
  | .promiseArrival _ _ _ _ => true
  | .transit _ _ => true
  | .promiseSend _ _ => true
  | .askSend _ _ => true
  | .askArrival _ _ => true
  | .tokenStart _ => true
  | .surveyVisit _ => true
  | .survstall _ => true
  | .eventArrival _ _ _ _ _ _ => true
  | .taskEntry _ => true
  | .deskKreq _ _ _ _ _ => true
  | .kgrantArrival _ _ _ => true
  | .krefuseArrival _ _ _ => true
  | .keyRetry _ _ => true
  | .deskKrel _ _ _ _ _ => true
  | .deskKcancel _ _ _ _ _ => true
  | .krunAtDesk _ _ _ _ _ => true
  | .kqueryAtDesk _ _ => true
  | .kstatArrival _ _ => true
  | .wregAtSlice _ _ _ => true
  | .wmetArrival _ _ _ => true
  | .wrefuseArrival _ _ _ => true
  | .watchPoll _ _ _ => true
  | .wcancelAtSlice _ _ _ _ => true
  | .dwait _ _ => true
  | .dispatch _ => true
  | .priorityPromotion _ _ => true
  | .quadHoldRequest _ _ => true
  | .quadGangStart _ => true
  | .barrierArrival _ => true
  | .barrierExit _ => true
  | .barrierWake _ => true
  | .slwinWrite _ => true
  | .slwinSwitchDone _ _ => true
  | .slcolsWrite _ => true
  | .slcolsSwitch _ => true
  | .patrolScrub _ _ => true
  | .leaseGrant _ => true
  | .releaseMarkerHead _ => true
  | .waithRecheck _ _ => true
  | .engineCommandComplete _ _ _ => true
  | .sighAnswer _ _ _ => true
  | .scalingExchange _ _ => true
  | .mcastTransfer _ => true
  | .drainAddition _ _ => true
  | .freezeGraceEnd _ => true
  | .freezeDone _ => true
  | .thawDone _ => true
  | .pagePreserve _ _ => true
  | .archiveStart _ => true
  | .archivePage _ _ => true
  | .checkpointComplete _ => true
  | .nlctlWrite _ => true
  | .lnkstWrite _ => true
  | .cnrectWrite _ => true
  | .cnctlFence _ _ => true
  | .cnctlReset _ => true
  | .containmentResetDone _ => true
  | .registerWrite _ _ => true
  | .hostPostWrite _ _ _ _ => true
  | .hostPromise _ _ _ _ => true
  | .hostReplyWrite _ => true
  | .rrheadWrite _ _ => true
  | .vfbindWrite _ _ => true
  | .domidWrite _ => true
  | .firmwareRequestTake _ => true
  | .reductionDescriptorWrite _ => true
  | .reductionContribution _ _ _ _ _ _ => true
  | .fabricFrameArrival _ _ => true
  | .thermalTrip => true
  | .thermalRecover => true
  | .perstRelease => true
  | .contextCreate _ _ => true
  | .pcieCompletionArrival _ _ => true

end Sys2Proof
end

