-- ==== Sys2Proof/Decode.lean ====
section
/-! DEFINITION. Decoding a core word (R24 to R37) and a command word (R40, R42), and the encoder written from
the same tables. Decoding is total: what is no row of the table is rejected by name. -/

namespace Sys2Proof

/-- Why a core word is no instruction (R33). -/
inductive DecodeError where
  /-- OP is reserved in the OP map (R36) -/
  | reservedOp
  /-- a function code is not listed for its OP (R37) -/
  | reservedFunction
  /-- a reserved-zero field holds a nonzero value (R34) -/
  | reservedField
deriving DecidableEq, Repr

/-- W, bit 31 (R24). -/
def fW (x : BitVec 32) : Bool := x.extractLsb' 31 1 = 1#1

/-- OP 0x01 (ADD, SUB, MUL, MULH ...). -/
def decOp01 (x : BitVec 32) : Except DecodeError Instr :=
  match (x.extractLsb' 0 5).toNat with
  | 0 => if x.extractLsb' 5 4 = 0#4 then .ok (.add (fW x) (x.extractLsb' 19 5) (x.extractLsb' 14 5) (x.extractLsb' 9 5))
    else .error .reservedField
  | 1 => if x.extractLsb' 5 4 = 0#4 then .ok (.sub (fW x) (x.extractLsb' 19 5) (x.extractLsb' 14 5) (x.extractLsb' 9 5))
    else .error .reservedField
  | 2 => if x.extractLsb' 5 4 = 0#4 then .ok (.mul (fW x) (x.extractLsb' 19 5) (x.extractLsb' 14 5) (x.extractLsb' 9 5))
    else .error .reservedField
  | 3 => if x.extractLsb' 5 4 = 0#4 then .ok (.mulh (fW x) (x.extractLsb' 19 5) (x.extractLsb' 14 5) (x.extractLsb' 9 5))
    else .error .reservedField
  | 4 => if x.extractLsb' 5 4 = 0#4 then .ok (.mulhu (fW x) (x.extractLsb' 19 5) (x.extractLsb' 14 5) (x.extractLsb' 9 5))
    else .error .reservedField
  | 5 => if x.extractLsb' 5 4 = 0#4 then .ok (.div (fW x) (x.extractLsb' 19 5) (x.extractLsb' 14 5) (x.extractLsb' 9 5))
    else .error .reservedField
  | 6 => if x.extractLsb' 5 4 = 0#4 then .ok (.divu (fW x) (x.extractLsb' 19 5) (x.extractLsb' 14 5) (x.extractLsb' 9 5))
    else .error .reservedField
  | 7 => if x.extractLsb' 5 4 = 0#4 then .ok (.rem (fW x) (x.extractLsb' 19 5) (x.extractLsb' 14 5) (x.extractLsb' 9 5))
    else .error .reservedField
  | 8 => if x.extractLsb' 5 4 = 0#4 then .ok (.remu (fW x) (x.extractLsb' 19 5) (x.extractLsb' 14 5) (x.extractLsb' 9 5))
    else .error .reservedField
  | 9 => if x.extractLsb' 5 4 = 0#4 then .ok (.and (fW x) (x.extractLsb' 19 5) (x.extractLsb' 14 5) (x.extractLsb' 9 5))
    else .error .reservedField
  | 10 => if x.extractLsb' 5 4 = 0#4 then .ok (.or (fW x) (x.extractLsb' 19 5) (x.extractLsb' 14 5) (x.extractLsb' 9 5))
    else .error .reservedField
  | 11 => if x.extractLsb' 5 4 = 0#4 then .ok (.xor (fW x) (x.extractLsb' 19 5) (x.extractLsb' 14 5) (x.extractLsb' 9 5))
    else .error .reservedField
  | 12 => if x.extractLsb' 5 4 = 0#4 then .ok (.andn (fW x) (x.extractLsb' 19 5) (x.extractLsb' 14 5) (x.extractLsb' 9 5))
    else .error .reservedField
  | 13 => if x.extractLsb' 5 4 = 0#4 then .ok (.orn (fW x) (x.extractLsb' 19 5) (x.extractLsb' 14 5) (x.extractLsb' 9 5))
    else .error .reservedField
  | 14 => if x.extractLsb' 5 4 = 0#4 then .ok (.sll (fW x) (x.extractLsb' 19 5) (x.extractLsb' 14 5) (x.extractLsb' 9 5))
    else .error .reservedField
  | 15 => if x.extractLsb' 5 4 = 0#4 then .ok (.srl (fW x) (x.extractLsb' 19 5) (x.extractLsb' 14 5) (x.extractLsb' 9 5))
    else .error .reservedField
  | 16 => if x.extractLsb' 5 4 = 0#4 then .ok (.sra (fW x) (x.extractLsb' 19 5) (x.extractLsb' 14 5) (x.extractLsb' 9 5))
    else .error .reservedField
  | 17 => if x.extractLsb' 5 4 = 0#4 then .ok (.rol (fW x) (x.extractLsb' 19 5) (x.extractLsb' 14 5) (x.extractLsb' 9 5))
    else .error .reservedField
  | 18 => if x.extractLsb' 5 4 = 0#4 then .ok (.min (fW x) (x.extractLsb' 19 5) (x.extractLsb' 14 5) (x.extractLsb' 9 5))
    else .error .reservedField
  | 19 => if x.extractLsb' 5 4 = 0#4 then .ok (.max (fW x) (x.extractLsb' 19 5) (x.extractLsb' 14 5) (x.extractLsb' 9 5))
    else .error .reservedField
  | 20 => if x.extractLsb' 5 4 = 0#4 then .ok (.minu (fW x) (x.extractLsb' 19 5) (x.extractLsb' 14 5) (x.extractLsb' 9 5))
    else .error .reservedField
  | 21 => if x.extractLsb' 5 4 = 0#4 then .ok (.maxu (fW x) (x.extractLsb' 19 5) (x.extractLsb' 14 5) (x.extractLsb' 9 5))
    else .error .reservedField
  | 22 => if x.extractLsb' 5 4 = 0#4 then .ok (.slt (fW x) (x.extractLsb' 19 5) (x.extractLsb' 14 5) (x.extractLsb' 9 5))
    else .error .reservedField
  | 23 => if x.extractLsb' 5 4 = 0#4 then .ok (.sltu (fW x) (x.extractLsb' 19 5) (x.extractLsb' 14 5) (x.extractLsb' 9 5))
    else .error .reservedField
  | 24 => if x.extractLsb' 5 4 = 0#4 then .ok (.seq (fW x) (x.extractLsb' 19 5) (x.extractLsb' 14 5) (x.extractLsb' 9 5))
    else .error .reservedField
  | 25 => if x.extractLsb' 5 9 = 0#9 then .ok (.clz (fW x) (x.extractLsb' 19 5) (x.extractLsb' 14 5))
    else .error .reservedField
  | 26 => if x.extractLsb' 5 9 = 0#9 then .ok (.ctz (fW x) (x.extractLsb' 19 5) (x.extractLsb' 14 5))
    else .error .reservedField
  | 27 => if x.extractLsb' 5 9 = 0#9 then .ok (.popc (fW x) (x.extractLsb' 19 5) (x.extractLsb' 14 5))
    else .error .reservedField
  | _ => .error .reservedFunction

/-- OP 0x02 (SEL). -/
def decOp02 (x : BitVec 32) : Except DecodeError Instr :=
  if x.extractLsb' 0 4 = 0#4 then .ok (.sel (fW x) (x.extractLsb' 19 5) (x.extractLsb' 14 5) (x.extractLsb' 9 5) (x.extractLsb' 4 5))
  else .error .reservedField

/-- OP 0x03 (EXT). -/
def decOp03 (x : BitVec 32) : Except DecodeError Instr :=
  if x.extractLsb' 12 2 = 0#2 then .ok (.ext (fW x) (x.extractLsb' 19 5) (x.extractLsb' 14 5) (x.extractLsb' 6 6) (x.extractLsb' 0 6))
  else .error .reservedField

/-- OP 0x04 (EXTS). -/
def decOp04 (x : BitVec 32) : Except DecodeError Instr :=
  if x.extractLsb' 12 2 = 0#2 then .ok (.exts (fW x) (x.extractLsb' 19 5) (x.extractLsb' 14 5) (x.extractLsb' 6 6) (x.extractLsb' 0 6))
  else .error .reservedField

/-- OP 0x05 (INS). -/
def decOp05 (x : BitVec 32) : Except DecodeError Instr :=
  if x.extractLsb' 12 2 = 0#2 then .ok (.ins (fW x) (x.extractLsb' 19 5) (x.extractLsb' 14 5) (x.extractLsb' 6 6) (x.extractLsb' 0 6))
  else .error .reservedField

/-- OP 0x06 (ADDI). -/
def decOp06 (x : BitVec 32) : Except DecodeError Instr :=
  .ok (.addi (fW x) (x.extractLsb' 19 5) (x.extractLsb' 14 5) (x.extractLsb' 0 14))

/-- OP 0x07 (ANDI). -/
def decOp07 (x : BitVec 32) : Except DecodeError Instr :=
  .ok (.andi (fW x) (x.extractLsb' 19 5) (x.extractLsb' 14 5) (x.extractLsb' 0 14))

/-- OP 0x08 (ORI). -/
def decOp08 (x : BitVec 32) : Except DecodeError Instr :=
  .ok (.ori (fW x) (x.extractLsb' 19 5) (x.extractLsb' 14 5) (x.extractLsb' 0 14))

/-- OP 0x09 (XORI). -/
def decOp09 (x : BitVec 32) : Except DecodeError Instr :=
  .ok (.xori (fW x) (x.extractLsb' 19 5) (x.extractLsb' 14 5) (x.extractLsb' 0 14))

/-- OP 0x0A (SLLI). -/
def decOp0A (x : BitVec 32) : Except DecodeError Instr :=
  if x.extractLsb' 6 8 = 0#8 then .ok (.slli (fW x) (x.extractLsb' 19 5) (x.extractLsb' 14 5) (x.extractLsb' 0 6))
  else .error .reservedField

/-- OP 0x0B (SRLI). -/
def decOp0B (x : BitVec 32) : Except DecodeError Instr :=
  if x.extractLsb' 6 8 = 0#8 then .ok (.srli (fW x) (x.extractLsb' 19 5) (x.extractLsb' 14 5) (x.extractLsb' 0 6))
  else .error .reservedField

/-- OP 0x0C (SRAI). -/
def decOp0C (x : BitVec 32) : Except DecodeError Instr :=
  if x.extractLsb' 6 8 = 0#8 then .ok (.srai (fW x) (x.extractLsb' 19 5) (x.extractLsb' 14 5) (x.extractLsb' 0 6))
  else .error .reservedField

/-- OP 0x0D (SLTI). -/
def decOp0D (x : BitVec 32) : Except DecodeError Instr :=
  .ok (.slti (fW x) (x.extractLsb' 19 5) (x.extractLsb' 14 5) (x.extractLsb' 0 14))

/-- OP 0x0E (SLTIU). -/
def decOp0E (x : BitVec 32) : Except DecodeError Instr :=
  .ok (.sltiu (fW x) (x.extractLsb' 19 5) (x.extractLsb' 14 5) (x.extractLsb' 0 14))

/-- OP 0x0F (LUI). -/
def decOp0F (x : BitVec 32) : Except DecodeError Instr :=
  .ok (.lui (fW x) (x.extractLsb' 19 5) (x.extractLsb' 0 19))

/-- OP 0x10 (AUIPC). -/
def decOp10 (x : BitVec 32) : Except DecodeError Instr :=
  .ok (.auipc (fW x) (x.extractLsb' 19 5) (x.extractLsb' 0 19))

/-- OP 0x11 (FADD, FSUB, FMUL, FMIN ...). -/
def decOp11 (x : BitVec 32) : Except DecodeError Instr :=
  match (x.extractLsb' 0 4).toNat with
  | 0 => if x.extractLsb' 8 1 = 0#1 then .ok (.fadd (fW x) (x.extractLsb' 19 5) (x.extractLsb' 14 5) (x.extractLsb' 9 5) (x.extractLsb' 4 4))
    else .error .reservedField
  | 1 => if x.extractLsb' 8 1 = 0#1 then .ok (.fsub (fW x) (x.extractLsb' 19 5) (x.extractLsb' 14 5) (x.extractLsb' 9 5) (x.extractLsb' 4 4))
    else .error .reservedField
  | 2 => if x.extractLsb' 8 1 = 0#1 then .ok (.fmul (fW x) (x.extractLsb' 19 5) (x.extractLsb' 14 5) (x.extractLsb' 9 5) (x.extractLsb' 4 4))
    else .error .reservedField
  | 3 => if x.extractLsb' 8 1 = 0#1 then .ok (.fmin (fW x) (x.extractLsb' 19 5) (x.extractLsb' 14 5) (x.extractLsb' 9 5) (x.extractLsb' 4 4))
    else .error .reservedField
  | 4 => if x.extractLsb' 8 1 = 0#1 then .ok (.fmax (fW x) (x.extractLsb' 19 5) (x.extractLsb' 14 5) (x.extractLsb' 9 5) (x.extractLsb' 4 4))
    else .error .reservedField
  | 5 => if x.extractLsb' 8 1 = 0#1 then .ok (.fdiv (fW x) (x.extractLsb' 19 5) (x.extractLsb' 14 5) (x.extractLsb' 9 5) (x.extractLsb' 4 4))
    else .error .reservedField
  | 6 => if x.extractLsb' 8 6 = 0#6 then .ok (.fsqrt (fW x) (x.extractLsb' 19 5) (x.extractLsb' 14 5) (x.extractLsb' 4 4))
    else .error .reservedField
  | 7 => if x.extractLsb' 8 1 = 0#1 then .ok (.fcmpLt (fW x) (x.extractLsb' 19 5) (x.extractLsb' 14 5) (x.extractLsb' 9 5) (x.extractLsb' 4 4))
    else .error .reservedField
  | 8 => if x.extractLsb' 8 1 = 0#1 then .ok (.fcmpLe (fW x) (x.extractLsb' 19 5) (x.extractLsb' 14 5) (x.extractLsb' 9 5) (x.extractLsb' 4 4))
    else .error .reservedField
  | 9 => if x.extractLsb' 8 1 = 0#1 then .ok (.fcmpEq (fW x) (x.extractLsb' 19 5) (x.extractLsb' 14 5) (x.extractLsb' 9 5) (x.extractLsb' 4 4))
    else .error .reservedField
  | 10 => if x.extractLsb' 8 6 = 0#6 then .ok (.fclass (fW x) (x.extractLsb' 19 5) (x.extractLsb' 14 5) (x.extractLsb' 4 4))
    else .error .reservedField
  | _ => .error .reservedFunction

/-- OP 0x12 (FMA). -/
def decOp12 (x : BitVec 32) : Except DecodeError Instr :=
  .ok (.fma (fW x) (x.extractLsb' 19 5) (x.extractLsb' 14 5) (x.extractLsb' 9 5) (x.extractLsb' 4 5) (x.extractLsb' 0 4))

/-- OP 0x13 (FCVT). -/
def decOp13 (x : BitVec 32) : Except DecodeError Instr :=
  if x.extractLsb' 9 5 = 0#5 then .ok (.fcvt (fW x) (x.extractLsb' 19 5) (x.extractLsb' 14 5) (x.extractLsb' 8 1) (x.extractLsb' 4 4) (x.extractLsb' 0 4))
  else .error .reservedField

/-- OP 0x18 (BEQ). -/
def decOp18 (x : BitVec 32) : Except DecodeError Instr :=
  .ok (.beq (fW x) (x.extractLsb' 19 5) (x.extractLsb' 14 5) (x.extractLsb' 0 14))

/-- OP 0x19 (BNE). -/
def decOp19 (x : BitVec 32) : Except DecodeError Instr :=
  .ok (.bne (fW x) (x.extractLsb' 19 5) (x.extractLsb' 14 5) (x.extractLsb' 0 14))

/-- OP 0x1A (BLT). -/
def decOp1A (x : BitVec 32) : Except DecodeError Instr :=
  .ok (.blt (fW x) (x.extractLsb' 19 5) (x.extractLsb' 14 5) (x.extractLsb' 0 14))

/-- OP 0x1B (BGE). -/
def decOp1B (x : BitVec 32) : Except DecodeError Instr :=
  .ok (.bge (fW x) (x.extractLsb' 19 5) (x.extractLsb' 14 5) (x.extractLsb' 0 14))

/-- OP 0x1C (BLTU). -/
def decOp1C (x : BitVec 32) : Except DecodeError Instr :=
  .ok (.bltu (fW x) (x.extractLsb' 19 5) (x.extractLsb' 14 5) (x.extractLsb' 0 14))

/-- OP 0x1D (BGEU). -/
def decOp1D (x : BitVec 32) : Except DecodeError Instr :=
  .ok (.bgeu (fW x) (x.extractLsb' 19 5) (x.extractLsb' 14 5) (x.extractLsb' 0 14))

/-- OP 0x20 (J). -/
def decOp20 (x : BitVec 32) : Except DecodeError Instr :=
  .ok (.j (fW x) (x.extractLsb' 0 24))

/-- OP 0x21 (JAL). -/
def decOp21 (x : BitVec 32) : Except DecodeError Instr :=
  .ok (.jal (fW x) (x.extractLsb' 0 24))

/-- OP 0x22 (JALR). -/
def decOp22 (x : BitVec 32) : Except DecodeError Instr :=
  .ok (.jalr (fW x) (x.extractLsb' 19 5) (x.extractLsb' 14 5) (x.extractLsb' 0 14))

/-- OP 0x23 (TEND). -/
def decOp23 (x : BitVec 32) : Except DecodeError Instr :=
  if x.extractLsb' 19 5 = 0#5 then .ok (.tend (fW x) (x.extractLsb' 14 5) (x.extractLsb' 0 14))
  else .error .reservedField

/-- OP 0x24 (YIELD). -/
def decOp24 (x : BitVec 32) : Except DecodeError Instr :=
  if x.extractLsb' 14 10 = 0#10 then .ok (.yield (fW x) (x.extractLsb' 0 14))
  else .error .reservedField

/-- OP 0x25 (CSRR). -/
def decOp25 (x : BitVec 32) : Except DecodeError Instr :=
  if x.extractLsb' 12 7 = 0#7 then .ok (.csrr (fW x) (x.extractLsb' 19 5) (x.extractLsb' 0 12))
  else .error .reservedField

/-- OP 0x26 (CSRW). -/
def decOp26 (x : BitVec 32) : Except DecodeError Instr :=
  if x.extractLsb' 12 2 = 0#2 then .ok (.csrw (fW x) (x.extractLsb' 19 5) (x.extractLsb' 14 5) (x.extractLsb' 0 12))
  else .error .reservedField

/-- OP 0x27 (CSRS). -/
def decOp27 (x : BitVec 32) : Except DecodeError Instr :=
  if x.extractLsb' 12 2 = 0#2 then .ok (.csrs (fW x) (x.extractLsb' 19 5) (x.extractLsb' 14 5) (x.extractLsb' 0 12))
  else .error .reservedField

/-- OP 0x28 (CSRC). -/
def decOp28 (x : BitVec 32) : Except DecodeError Instr :=
  if x.extractLsb' 12 2 = 0#2 then .ok (.csrc (fW x) (x.extractLsb' 19 5) (x.extractLsb' 14 5) (x.extractLsb' 0 12))
  else .error .reservedField

/-- OP 0x30 (LD_B). -/
def decOp30 (x : BitVec 32) : Except DecodeError Instr :=
  .ok (.ldB (fW x) (x.extractLsb' 19 5) (x.extractLsb' 14 5) (x.extractLsb' 0 14))

/-- OP 0x31 (LD_BZ). -/
def decOp31 (x : BitVec 32) : Except DecodeError Instr :=
  .ok (.ldBz (fW x) (x.extractLsb' 19 5) (x.extractLsb' 14 5) (x.extractLsb' 0 14))

/-- OP 0x32 (LD_H). -/
def decOp32 (x : BitVec 32) : Except DecodeError Instr :=
  .ok (.ldH (fW x) (x.extractLsb' 19 5) (x.extractLsb' 14 5) (x.extractLsb' 0 14))

/-- OP 0x33 (LD_HZ). -/
def decOp33 (x : BitVec 32) : Except DecodeError Instr :=
  .ok (.ldHz (fW x) (x.extractLsb' 19 5) (x.extractLsb' 14 5) (x.extractLsb' 0 14))

/-- OP 0x34 (LD_W). -/
def decOp34 (x : BitVec 32) : Except DecodeError Instr :=
  .ok (.ldW (fW x) (x.extractLsb' 19 5) (x.extractLsb' 14 5) (x.extractLsb' 0 14))

/-- OP 0x35 (LD_WZ). -/
def decOp35 (x : BitVec 32) : Except DecodeError Instr :=
  .ok (.ldWz (fW x) (x.extractLsb' 19 5) (x.extractLsb' 14 5) (x.extractLsb' 0 14))

/-- OP 0x36 (LD_D). -/
def decOp36 (x : BitVec 32) : Except DecodeError Instr :=
  .ok (.ldD (fW x) (x.extractLsb' 19 5) (x.extractLsb' 14 5) (x.extractLsb' 0 14))

/-- OP 0x37 (ST_B). -/
def decOp37 (x : BitVec 32) : Except DecodeError Instr :=
  .ok (.stB (fW x) (x.extractLsb' 19 5) (x.extractLsb' 14 5) (x.extractLsb' 0 14))

/-- OP 0x38 (ST_H). -/
def decOp38 (x : BitVec 32) : Except DecodeError Instr :=
  .ok (.stH (fW x) (x.extractLsb' 19 5) (x.extractLsb' 14 5) (x.extractLsb' 0 14))

/-- OP 0x39 (ST_W). -/
def decOp39 (x : BitVec 32) : Except DecodeError Instr :=
  .ok (.stW (fW x) (x.extractLsb' 19 5) (x.extractLsb' 14 5) (x.extractLsb' 0 14))

/-- OP 0x3A (ST_D). -/
def decOp3A (x : BitVec 32) : Except DecodeError Instr :=
  .ok (.stD (fW x) (x.extractLsb' 19 5) (x.extractLsb' 14 5) (x.extractLsb' 0 14))

/-- OP 0x3B (LD_ACQ). -/
def decOp3B (x : BitVec 32) : Except DecodeError Instr :=
  .ok (.ldAcq (fW x) (x.extractLsb' 19 5) (x.extractLsb' 14 5) (x.extractLsb' 9 5) (x.extractLsb' 0 9))

/-- OP 0x3C (ST_REL). -/
def decOp3C (x : BitVec 32) : Except DecodeError Instr :=
  .ok (.stRel (fW x) (x.extractLsb' 19 5) (x.extractLsb' 14 5) (x.extractLsb' 9 5) (x.extractLsb' 0 9))

/-- OP 0x3D (FENCE_FULL, FENCE_ACQ, FENCE_REL). -/
def decOp3D (x : BitVec 32) : Except DecodeError Instr :=
  match (x.extractLsb' 5 2).toNat with
  | 0 => if x.extractLsb' 7 17 = 0#17 then .ok (.fenceFull (fW x) (x.extractLsb' 0 5))
    else .error .reservedField
  | 1 => if x.extractLsb' 7 17 = 0#17 then .ok (.fenceAcq (fW x) (x.extractLsb' 0 5))
    else .error .reservedField
  | 2 => if x.extractLsb' 7 17 = 0#17 then .ok (.fenceRel (fW x) (x.extractLsb' 0 5))
    else .error .reservedField
  | _ => .error .reservedFunction

/-- OP 0x40 (AMO_ADD, AMO_AND, AMO_OR, AMO_XOR ...). -/
def decOp40 (x : BitVec 32) : Except DecodeError Instr :=
  match (x.extractLsb' 0 4).toNat with
  | 0 => if x.extractLsb' 5 4 = 0#4 then .ok (.amoAdd (fW x) (x.extractLsb' 19 5) (x.extractLsb' 14 5) (x.extractLsb' 9 5) (x.extractLsb' 4 1))
    else .error .reservedField
  | 1 => if x.extractLsb' 5 4 = 0#4 then .ok (.amoAnd (fW x) (x.extractLsb' 19 5) (x.extractLsb' 14 5) (x.extractLsb' 9 5) (x.extractLsb' 4 1))
    else .error .reservedField
  | 2 => if x.extractLsb' 5 4 = 0#4 then .ok (.amoOr (fW x) (x.extractLsb' 19 5) (x.extractLsb' 14 5) (x.extractLsb' 9 5) (x.extractLsb' 4 1))
    else .error .reservedField
  | 3 => if x.extractLsb' 5 4 = 0#4 then .ok (.amoXor (fW x) (x.extractLsb' 19 5) (x.extractLsb' 14 5) (x.extractLsb' 9 5) (x.extractLsb' 4 1))
    else .error .reservedField
  | 4 => if x.extractLsb' 5 4 = 0#4 then .ok (.amoMin (fW x) (x.extractLsb' 19 5) (x.extractLsb' 14 5) (x.extractLsb' 9 5) (x.extractLsb' 4 1))
    else .error .reservedField
  | 5 => if x.extractLsb' 5 4 = 0#4 then .ok (.amoMax (fW x) (x.extractLsb' 19 5) (x.extractLsb' 14 5) (x.extractLsb' 9 5) (x.extractLsb' 4 1))
    else .error .reservedField
  | 6 => if x.extractLsb' 5 4 = 0#4 then .ok (.amoMinu (fW x) (x.extractLsb' 19 5) (x.extractLsb' 14 5) (x.extractLsb' 9 5) (x.extractLsb' 4 1))
    else .error .reservedField
  | 7 => if x.extractLsb' 5 4 = 0#4 then .ok (.amoMaxu (fW x) (x.extractLsb' 19 5) (x.extractLsb' 14 5) (x.extractLsb' 9 5) (x.extractLsb' 4 1))
    else .error .reservedField
  | 8 => if x.extractLsb' 5 4 = 0#4 then .ok (.amoSwap (fW x) (x.extractLsb' 19 5) (x.extractLsb' 14 5) (x.extractLsb' 9 5) (x.extractLsb' 4 1))
    else .error .reservedField
  | 9 => if x.extractLsb' 4 5 = 1#5 then .ok (.amoFaddF32 (fW x) (x.extractLsb' 19 5) (x.extractLsb' 14 5) (x.extractLsb' 9 5))
    else .error .reservedField
  | 10 => if x.extractLsb' 4 5 = 0#5 then .ok (.amoFaddBf16 (fW x) (x.extractLsb' 19 5) (x.extractLsb' 14 5) (x.extractLsb' 9 5))
    else .error .reservedField
  | 11 => if x.extractLsb' 4 5 = 1#5 then .ok (.amoFmaxF32 (fW x) (x.extractLsb' 19 5) (x.extractLsb' 14 5) (x.extractLsb' 9 5))
    else .error .reservedField
  | _ => .error .reservedFunction

/-- OP 0x41 (CAS_I64, CAS_I32). -/
def decOp41 (x : BitVec 32) : Except DecodeError Instr :=
  match (x.extractLsb' 0 4).toNat with
  | 15 => .ok (.casI64 (fW x) (x.extractLsb' 19 5) (x.extractLsb' 14 5) (x.extractLsb' 9 5) (x.extractLsb' 4 5))
  | 10 => .ok (.casI32 (fW x) (x.extractLsb' 19 5) (x.extractLsb' 14 5) (x.extractLsb' 9 5) (x.extractLsb' 4 5))
  | _ => .error .reservedFunction

/-- OP 0x42 (DADD). -/
def decOp42 (x : BitVec 32) : Except DecodeError Instr :=
  if x.extractLsb' 4 5 = 0#5 then .ok (.dadd (fW x) (x.extractLsb' 19 5) (x.extractLsb' 14 5) (x.extractLsb' 9 5) (x.extractLsb' 0 4))
  else .error .reservedField

/-- OP 0x43 (CADD). -/
def decOp43 (x : BitVec 32) : Except DecodeError Instr :=
  if x.extractLsb' 5 4 = 0#4 then .ok (.cadd (fW x) (x.extractLsb' 19 5) (x.extractLsb' 14 5) (x.extractLsb' 9 5) (x.extractLsb' 0 5))
  else .error .reservedField

/-- OP 0x44 (DSEAL). -/
def decOp44 (x : BitVec 32) : Except DecodeError Instr :=
  if x.extractLsb' 0 14 = 0#14 then .ok (.dseal (fW x) (x.extractLsb' 19 5) (x.extractLsb' 14 5))
  else .error .reservedField

/-- OP 0x46 (TLNEW). -/
def decOp46 (x : BitVec 32) : Except DecodeError Instr :=
  if x.extractLsb' 0 9 = 0#9 then .ok (.tlnew (fW x) (x.extractLsb' 19 5) (x.extractLsb' 14 5) (x.extractLsb' 9 5))
  else .error .reservedField

/-- OP 0x47 (TLFREE). -/
def decOp47 (x : BitVec 32) : Except DecodeError Instr :=
  if x.extractLsb' 19 5 = 0#5 ∧ x.extractLsb' 0 14 = 0#14 then .ok (.tlfree (fW x) (x.extractLsb' 14 5))
  else .error .reservedField

/-- OP 0x48 (SEND). -/
def decOp48 (x : BitVec 32) : Except DecodeError Instr :=
  if x.extractLsb' 5 4 = 0#4 then .ok (.send (fW x) (x.extractLsb' 19 5) (x.extractLsb' 14 5) (x.extractLsb' 9 5) (x.extractLsb' 0 5))
  else .error .reservedField

/-- OP 0x49 (POST). -/
def decOp49 (x : BitVec 32) : Except DecodeError Instr :=
  if x.extractLsb' 5 9 = 0#9 then .ok (.post (fW x) (x.extractLsb' 19 5) (x.extractLsb' 14 5) (x.extractLsb' 0 5))
  else .error .reservedField

/-- OP 0x4A (REPLY, REPLY_TO). -/
def decOp4A (x : BitVec 32) : Except DecodeError Instr :=
  match (x.extractLsb' 5 1).toNat with
  | 1 => if x.extractLsb' 6 13 = 0#13 then .ok (.reply (fW x) (x.extractLsb' 19 5) (x.extractLsb' 0 5))
    else .error .reservedField
  | _ => if x.extractLsb' 6 8 = 0#8 then .ok (.replyTo (fW x) (x.extractLsb' 19 5) (x.extractLsb' 14 5) (x.extractLsb' 0 5))
    else .error .reservedField

/-- OP 0x4B (PROMISE). -/
def decOp4B (x : BitVec 32) : Except DecodeError Instr :=
  if x.extractLsb' 19 5 = 0#5 ∧ x.extractLsb' 0 14 = 0#14 then .ok (.promise (fW x) (x.extractLsb' 14 5))
  else .error .reservedField

/-- OP 0x4C (CHOPEN). -/
def decOp4C (x : BitVec 32) : Except DecodeError Instr :=
  if x.extractLsb' 0 9 = 0#9 then .ok (.chopen (fW x) (x.extractLsb' 19 5) (x.extractLsb' 14 5) (x.extractLsb' 9 5))
  else .error .reservedField

/-- OP 0x4D (CHCLOSE). -/
def decOp4D (x : BitVec 32) : Except DecodeError Instr :=
  if x.extractLsb' 19 5 = 0#5 ∧ x.extractLsb' 0 14 = 0#14 then .ok (.chclose (fW x) (x.extractLsb' 14 5))
  else .error .reservedField

/-- OP 0x4E (NSTAT). -/
def decOp4E (x : BitVec 32) : Except DecodeError Instr :=
  if x.extractLsb' 4 10 = 0#10 then .ok (.nstat (fW x) (x.extractLsb' 19 5) (x.extractLsb' 14 5) (x.extractLsb' 0 4))
  else .error .reservedField

/-- OP 0x50 (TSUB). -/
def decOp50 (x : BitVec 32) : Except DecodeError Instr :=
  if x.extractLsb' 5 9 = 0#9 then .ok (.tsub (fW x) (x.extractLsb' 19 5) (x.extractLsb' 14 5) (x.extractLsb' 0 5))
  else .error .reservedField

/-- OP 0x51 (KREL). -/
def decOp51 (x : BitVec 32) : Except DecodeError Instr :=
  if x.extractLsb' 19 5 = 0#5 ∧ x.extractLsb' 0 14 = 0#14 then .ok (.krel (fW x) (x.extractLsb' 14 5))
  else .error .reservedField

/-- OP 0x52 (KHELD). -/
def decOp52 (x : BitVec 32) : Except DecodeError Instr :=
  if x.extractLsb' 0 14 = 0#14 then .ok (.kheld (fW x) (x.extractLsb' 19 5) (x.extractLsb' 14 5))
  else .error .reservedField

/-- OP 0x54 (BARA). -/
def decOp54 (x : BitVec 32) : Except DecodeError Instr :=
  if x.extractLsb' 5 19 = 0#19 then .ok (.bara (fW x) (x.extractLsb' 0 5))
  else .error .reservedField

/-- OP 0x55 (BARW). -/
def decOp55 (x : BitVec 32) : Except DecodeError Instr :=
  if x.extractLsb' 0 24 = 0#24 then .ok (.barw (fW x))
  else .error .reservedField

/-- OP 0x56 (BAR). -/
def decOp56 (x : BitVec 32) : Except DecodeError Instr :=
  if x.extractLsb' 5 19 = 0#19 then .ok (.bar (fW x) (x.extractLsb' 0 5))
  else .error .reservedField

/-- OP 0x57 (MRLS). -/
def decOp57 (x : BitVec 32) : Except DecodeError Instr :=
  if x.extractLsb' 0 24 = 0#24 then .ok (.mrls (fW x))
  else .error .reservedField

/-- OP 0x58 (PUSH). -/
def decOp58 (x : BitVec 32) : Except DecodeError Instr :=
  if x.extractLsb' 0 17 = 0#17 then .ok (.push (fW x) (x.extractLsb' 22 2) (x.extractLsb' 17 5))
  else .error .reservedField

/-- OP 0x59 (PUSHM). -/
def decOp59 (x : BitVec 32) : Except DecodeError Instr :=
  .ok (.pushm (fW x) (x.extractLsb' 22 2) (x.extractLsb' 17 5) (x.extractLsb' 14 3) (x.extractLsb' 0 14))

/-- OP 0x5A (POP). -/
def decOp5A (x : BitVec 32) : Except DecodeError Instr :=
  if x.extractLsb' 0 17 = 0#17 then .ok (.pop (fW x) (x.extractLsb' 22 2) (x.extractLsb' 17 5))
  else .error .reservedField

/-- OP 0x5B (QSTAT). -/
def decOp5B (x : BitVec 32) : Except DecodeError Instr :=
  if x.extractLsb' 0 17 = 0#17 then .ok (.qstat (fW x) (x.extractLsb' 22 2) (x.extractLsb' 17 5))
  else .error .reservedField

/-- OP 0x5C (TLDR). -/
def decOp5C (x : BitVec 32) : Except DecodeError Instr :=
  .ok (.tldr (fW x) (x.extractLsb' 21 3) (x.extractLsb' 16 5) (x.extractLsb' 11 5) (x.extractLsb' 10 1) (x.extractLsb' 0 10))

/-- OP 0x5D (TSTR). -/
def decOp5D (x : BitVec 32) : Except DecodeError Instr :=
  .ok (.tstr (fW x) (x.extractLsb' 21 3) (x.extractLsb' 16 5) (x.extractLsb' 11 5) (x.extractLsb' 10 1) (x.extractLsb' 0 10))

/-- OP 0x5E (TLD). -/
def decOp5E (x : BitVec 32) : Except DecodeError Instr :=
  if x.extractLsb' 16 5 = 0#5 then .ok (.tld (fW x) (x.extractLsb' 21 3) (x.extractLsb' 11 5) (x.extractLsb' 0 11))
  else .error .reservedField

/-- OP 0x5F (TST). -/
def decOp5F (x : BitVec 32) : Except DecodeError Instr :=
  if x.extractLsb' 16 5 = 0#5 then .ok (.tst (fW x) (x.extractLsb' 21 3) (x.extractLsb' 11 5) (x.extractLsb' 0 11))
  else .error .reservedField

/-- OP 0x60 (VADD, VSUB, VMUL, VMIN ...). -/
def decOp60 (x : BitVec 32) : Except DecodeError Instr :=
  match (x.extractLsb' 0 6).toNat with
  | 0 => .ok (.vadd (fW x) (x.extractLsb' 21 3) (x.extractLsb' 18 3) (x.extractLsb' 15 3) (x.extractLsb' 10 5) (x.extractLsb' 6 4))
  | 1 => .ok (.vsub (fW x) (x.extractLsb' 21 3) (x.extractLsb' 18 3) (x.extractLsb' 15 3) (x.extractLsb' 10 5) (x.extractLsb' 6 4))
  | 2 => .ok (.vmul (fW x) (x.extractLsb' 21 3) (x.extractLsb' 18 3) (x.extractLsb' 15 3) (x.extractLsb' 10 5) (x.extractLsb' 6 4))
  | 3 => .ok (.vmin (fW x) (x.extractLsb' 21 3) (x.extractLsb' 18 3) (x.extractLsb' 15 3) (x.extractLsb' 10 5) (x.extractLsb' 6 4))
  | 4 => .ok (.vmax (fW x) (x.extractLsb' 21 3) (x.extractLsb' 18 3) (x.extractLsb' 15 3) (x.extractLsb' 10 5) (x.extractLsb' 6 4))
  | 5 => if x.extractLsb' 15 3 = 0#3 then .ok (.vabs (fW x) (x.extractLsb' 21 3) (x.extractLsb' 18 3) (x.extractLsb' 10 5) (x.extractLsb' 6 4))
    else .error .reservedField
  | 6 => if x.extractLsb' 15 3 = 0#3 then .ok (.vneg (fW x) (x.extractLsb' 21 3) (x.extractLsb' 18 3) (x.extractLsb' 10 5) (x.extractLsb' 6 4))
    else .error .reservedField
  | 7 => .ok (.vand (fW x) (x.extractLsb' 21 3) (x.extractLsb' 18 3) (x.extractLsb' 15 3) (x.extractLsb' 10 5) (x.extractLsb' 6 4))
  | 8 => .ok (.vor (fW x) (x.extractLsb' 21 3) (x.extractLsb' 18 3) (x.extractLsb' 15 3) (x.extractLsb' 10 5) (x.extractLsb' 6 4))
  | 9 => .ok (.vxor (fW x) (x.extractLsb' 21 3) (x.extractLsb' 18 3) (x.extractLsb' 15 3) (x.extractLsb' 10 5) (x.extractLsb' 6 4))
  | 10 => .ok (.vshl (fW x) (x.extractLsb' 21 3) (x.extractLsb' 18 3) (x.extractLsb' 15 3) (x.extractLsb' 10 5) (x.extractLsb' 6 4))
  | 11 => .ok (.vshr (fW x) (x.extractLsb' 21 3) (x.extractLsb' 18 3) (x.extractLsb' 15 3) (x.extractLsb' 10 5) (x.extractLsb' 6 4))
  | 12 => .ok (.vsra (fW x) (x.extractLsb' 21 3) (x.extractLsb' 18 3) (x.extractLsb' 15 3) (x.extractLsb' 10 5) (x.extractLsb' 6 4))
  | 13 => .ok (.vcmpLt (fW x) (x.extractLsb' 21 3) (x.extractLsb' 18 3) (x.extractLsb' 15 3) (x.extractLsb' 10 5) (x.extractLsb' 6 4))
  | 14 => .ok (.vcmpLe (fW x) (x.extractLsb' 21 3) (x.extractLsb' 18 3) (x.extractLsb' 15 3) (x.extractLsb' 10 5) (x.extractLsb' 6 4))
  | 15 => .ok (.vcmpEq (fW x) (x.extractLsb' 21 3) (x.extractLsb' 18 3) (x.extractLsb' 15 3) (x.extractLsb' 10 5) (x.extractLsb' 6 4))
  | 16 => .ok (.vsel (fW x) (x.extractLsb' 21 3) (x.extractLsb' 18 3) (x.extractLsb' 15 3) (x.extractLsb' 10 5) (x.extractLsb' 6 4))
  | 17 => if x.extractLsb' 15 3 = 0#3 then .ok (.vmov (fW x) (x.extractLsb' 21 3) (x.extractLsb' 18 3) (x.extractLsb' 10 5) (x.extractLsb' 6 4))
    else .error .reservedField
  | _ => .error .reservedFunction

/-- OP 0x68 (VADD_X, VSUB_X, VMUL_X, VMIN_X ...). -/
def decOp68 (x : BitVec 32) : Except DecodeError Instr :=
  match (x.extractLsb' 0 6).toNat with
  | 0 => .ok (.vaddX (fW x) (x.extractLsb' 21 3) (x.extractLsb' 18 3) (x.extractLsb' 15 3) (x.extractLsb' 10 5) (x.extractLsb' 6 4))
  | 1 => .ok (.vsubX (fW x) (x.extractLsb' 21 3) (x.extractLsb' 18 3) (x.extractLsb' 15 3) (x.extractLsb' 10 5) (x.extractLsb' 6 4))
  | 2 => .ok (.vmulX (fW x) (x.extractLsb' 21 3) (x.extractLsb' 18 3) (x.extractLsb' 15 3) (x.extractLsb' 10 5) (x.extractLsb' 6 4))
  | 3 => .ok (.vminX (fW x) (x.extractLsb' 21 3) (x.extractLsb' 18 3) (x.extractLsb' 15 3) (x.extractLsb' 10 5) (x.extractLsb' 6 4))
  | 4 => .ok (.vmaxX (fW x) (x.extractLsb' 21 3) (x.extractLsb' 18 3) (x.extractLsb' 15 3) (x.extractLsb' 10 5) (x.extractLsb' 6 4))
  | 5 => if x.extractLsb' 15 3 = 0#3 then .ok (.vabsX (fW x) (x.extractLsb' 21 3) (x.extractLsb' 18 3) (x.extractLsb' 10 5) (x.extractLsb' 6 4))
    else .error .reservedField
  | 6 => if x.extractLsb' 15 3 = 0#3 then .ok (.vnegX (fW x) (x.extractLsb' 21 3) (x.extractLsb' 18 3) (x.extractLsb' 10 5) (x.extractLsb' 6 4))
    else .error .reservedField
  | 7 => .ok (.vandX (fW x) (x.extractLsb' 21 3) (x.extractLsb' 18 3) (x.extractLsb' 15 3) (x.extractLsb' 10 5) (x.extractLsb' 6 4))
  | 8 => .ok (.vorX (fW x) (x.extractLsb' 21 3) (x.extractLsb' 18 3) (x.extractLsb' 15 3) (x.extractLsb' 10 5) (x.extractLsb' 6 4))
  | 9 => .ok (.vxorX (fW x) (x.extractLsb' 21 3) (x.extractLsb' 18 3) (x.extractLsb' 15 3) (x.extractLsb' 10 5) (x.extractLsb' 6 4))
  | 10 => .ok (.vshlX (fW x) (x.extractLsb' 21 3) (x.extractLsb' 18 3) (x.extractLsb' 15 3) (x.extractLsb' 10 5) (x.extractLsb' 6 4))
  | 11 => .ok (.vshrX (fW x) (x.extractLsb' 21 3) (x.extractLsb' 18 3) (x.extractLsb' 15 3) (x.extractLsb' 10 5) (x.extractLsb' 6 4))
  | 12 => .ok (.vsraX (fW x) (x.extractLsb' 21 3) (x.extractLsb' 18 3) (x.extractLsb' 15 3) (x.extractLsb' 10 5) (x.extractLsb' 6 4))
  | 13 => .ok (.vcmpLtX (fW x) (x.extractLsb' 21 3) (x.extractLsb' 18 3) (x.extractLsb' 15 3) (x.extractLsb' 10 5) (x.extractLsb' 6 4))
  | 14 => .ok (.vcmpLeX (fW x) (x.extractLsb' 21 3) (x.extractLsb' 18 3) (x.extractLsb' 15 3) (x.extractLsb' 10 5) (x.extractLsb' 6 4))
  | 15 => .ok (.vcmpEqX (fW x) (x.extractLsb' 21 3) (x.extractLsb' 18 3) (x.extractLsb' 15 3) (x.extractLsb' 10 5) (x.extractLsb' 6 4))
  | 16 => .ok (.vselX (fW x) (x.extractLsb' 21 3) (x.extractLsb' 18 3) (x.extractLsb' 15 3) (x.extractLsb' 10 5) (x.extractLsb' 6 4))
  | 17 => if x.extractLsb' 15 3 = 0#3 then .ok (.vmovX (fW x) (x.extractLsb' 21 3) (x.extractLsb' 18 3) (x.extractLsb' 10 5) (x.extractLsb' 6 4))
    else .error .reservedField
  | _ => .error .reservedFunction

/-- OP 0x61 (VFMA). -/
def decOp61 (x : BitVec 32) : Except DecodeError Instr :=
  if x.extractLsb' 0 6 = 0#6 then .ok (.vfma (fW x) (x.extractLsb' 21 3) (x.extractLsb' 18 3) (x.extractLsb' 15 3) (x.extractLsb' 10 5) (x.extractLsb' 6 4))
  else .error .reservedField

/-- OP 0x69 (VFMA_X). -/
def decOp69 (x : BitVec 32) : Except DecodeError Instr :=
  if x.extractLsb' 0 6 = 0#6 then .ok (.vfmaX (fW x) (x.extractLsb' 21 3) (x.extractLsb' 18 3) (x.extractLsb' 15 3) (x.extractLsb' 10 5) (x.extractLsb' 6 4))
  else .error .reservedField

/-- OP 0x62 (VRCP, VRSQ, VRFN, VRFS ...). -/
def decOp62 (x : BitVec 32) : Except DecodeError Instr :=
  match (x.extractLsb' 0 6).toNat with
  | 0 => if x.extractLsb' 15 3 = 0#3 then .ok (.vrcp (fW x) (x.extractLsb' 21 3) (x.extractLsb' 18 3) (x.extractLsb' 10 5) (x.extractLsb' 6 4))
    else .error .reservedField
  | 1 => if x.extractLsb' 15 3 = 0#3 then .ok (.vrsq (fW x) (x.extractLsb' 21 3) (x.extractLsb' 18 3) (x.extractLsb' 10 5) (x.extractLsb' 6 4))
    else .error .reservedField
  | 2 => .ok (.vrfn (fW x) (x.extractLsb' 21 3) (x.extractLsb' 18 3) (x.extractLsb' 15 3) (x.extractLsb' 10 5) (x.extractLsb' 6 4))
  | 3 => .ok (.vrfs (fW x) (x.extractLsb' 21 3) (x.extractLsb' 18 3) (x.extractLsb' 15 3) (x.extractLsb' 10 5) (x.extractLsb' 6 4))
  | 4 => if x.extractLsb' 15 3 = 0#3 then .ok (.vexp2 (fW x) (x.extractLsb' 21 3) (x.extractLsb' 18 3) (x.extractLsb' 10 5) (x.extractLsb' 6 4))
    else .error .reservedField
  | 5 => if x.extractLsb' 15 3 = 0#3 then .ok (.vlog2 (fW x) (x.extractLsb' 21 3) (x.extractLsb' 18 3) (x.extractLsb' 10 5) (x.extractLsb' 6 4))
    else .error .reservedField
  | _ => .error .reservedFunction

/-- OP 0x6A (VRCP_X, VRSQ_X, VRFN_X, VRFS_X ...). -/
def decOp6A (x : BitVec 32) : Except DecodeError Instr :=
  match (x.extractLsb' 0 6).toNat with
  | 0 => if x.extractLsb' 15 3 = 0#3 then .ok (.vrcpX (fW x) (x.extractLsb' 21 3) (x.extractLsb' 18 3) (x.extractLsb' 10 5) (x.extractLsb' 6 4))
    else .error .reservedField
  | 1 => if x.extractLsb' 15 3 = 0#3 then .ok (.vrsqX (fW x) (x.extractLsb' 21 3) (x.extractLsb' 18 3) (x.extractLsb' 10 5) (x.extractLsb' 6 4))
    else .error .reservedField
  | 2 => .ok (.vrfnX (fW x) (x.extractLsb' 21 3) (x.extractLsb' 18 3) (x.extractLsb' 15 3) (x.extractLsb' 10 5) (x.extractLsb' 6 4))
  | 3 => .ok (.vrfsX (fW x) (x.extractLsb' 21 3) (x.extractLsb' 18 3) (x.extractLsb' 15 3) (x.extractLsb' 10 5) (x.extractLsb' 6 4))
  | 4 => if x.extractLsb' 15 3 = 0#3 then .ok (.vexp2X (fW x) (x.extractLsb' 21 3) (x.extractLsb' 18 3) (x.extractLsb' 10 5) (x.extractLsb' 6 4))
    else .error .reservedField
  | 5 => if x.extractLsb' 15 3 = 0#3 then .ok (.vlog2X (fW x) (x.extractLsb' 21 3) (x.extractLsb' 18 3) (x.extractLsb' 10 5) (x.extractLsb' 6 4))
    else .error .reservedField
  | _ => .error .reservedFunction

/-- OP 0x63 (VCVT). -/
def decOp63 (x : BitVec 32) : Except DecodeError Instr :=
  if x.extractLsb' 4 2 = 0#2 then .ok (.vcvt (fW x) (x.extractLsb' 21 3) (x.extractLsb' 18 3) (x.extractLsb' 15 3) (x.extractLsb' 10 5) (x.extractLsb' 6 4) (x.extractLsb' 0 4))
  else .error .reservedField

/-- OP 0x6B (VCVT_X). -/
def decOp6B (x : BitVec 32) : Except DecodeError Instr :=
  if x.extractLsb' 4 2 = 0#2 then .ok (.vcvtX (fW x) (x.extractLsb' 21 3) (x.extractLsb' 18 3) (x.extractLsb' 15 3) (x.extractLsb' 10 5) (x.extractLsb' 6 4) (x.extractLsb' 0 4))
  else .error .reservedField

/-- OP 0x64 (VQNT, VDQ). -/
def decOp64 (x : BitVec 32) : Except DecodeError Instr :=
  match (x.extractLsb' 0 6).toNat with
  | 0 => .ok (.vqnt (fW x) (x.extractLsb' 21 3) (x.extractLsb' 18 3) (x.extractLsb' 15 3) (x.extractLsb' 10 5) (x.extractLsb' 6 4))
  | 1 => .ok (.vdq (fW x) (x.extractLsb' 21 3) (x.extractLsb' 18 3) (x.extractLsb' 15 3) (x.extractLsb' 10 5) (x.extractLsb' 6 4))
  | _ => .error .reservedFunction

/-- OP 0x6C (VQNT_X, VDQ_X). -/
def decOp6C (x : BitVec 32) : Except DecodeError Instr :=
  match (x.extractLsb' 0 6).toNat with
  | 0 => .ok (.vqntX (fW x) (x.extractLsb' 21 3) (x.extractLsb' 18 3) (x.extractLsb' 15 3) (x.extractLsb' 10 5) (x.extractLsb' 6 4))
  | 1 => .ok (.vdqX (fW x) (x.extractLsb' 21 3) (x.extractLsb' 18 3) (x.extractLsb' 15 3) (x.extractLsb' 10 5) (x.extractLsb' 6 4))
  | _ => .error .reservedFunction

/-- OP 0x65 (VRED_SUM, VRED_MIN, VRED_MAX, VRED_AMAX ...). -/
def decOp65 (x : BitVec 32) : Except DecodeError Instr :=
  match (x.extractLsb' 0 6).toNat with
  | 0 => if x.extractLsb' 15 3 = 0#3 then .ok (.vredSum (fW x) (x.extractLsb' 21 3) (x.extractLsb' 18 3) (x.extractLsb' 10 5) (x.extractLsb' 6 4))
    else .error .reservedField
  | 1 => if x.extractLsb' 15 3 = 0#3 then .ok (.vredMin (fW x) (x.extractLsb' 21 3) (x.extractLsb' 18 3) (x.extractLsb' 10 5) (x.extractLsb' 6 4))
    else .error .reservedField
  | 2 => if x.extractLsb' 15 3 = 0#3 then .ok (.vredMax (fW x) (x.extractLsb' 21 3) (x.extractLsb' 18 3) (x.extractLsb' 10 5) (x.extractLsb' 6 4))
    else .error .reservedField
  | 3 => if x.extractLsb' 15 3 = 0#3 then .ok (.vredAmax (fW x) (x.extractLsb' 21 3) (x.extractLsb' 18 3) (x.extractLsb' 10 5) (x.extractLsb' 6 4))
    else .error .reservedField
  | 4 => if x.extractLsb' 15 3 = 0#3 then .ok (.vscan (fW x) (x.extractLsb' 21 3) (x.extractLsb' 18 3) (x.extractLsb' 10 5) (x.extractLsb' 6 4))
    else .error .reservedField
  | _ => .error .reservedFunction

/-- OP 0x6D (VRED_SUM_X, VRED_MIN_X, VRED_MAX_X, VRED_AMAX_X ...). -/
def decOp6D (x : BitVec 32) : Except DecodeError Instr :=
  match (x.extractLsb' 0 6).toNat with
  | 0 => if x.extractLsb' 15 3 = 0#3 then .ok (.vredSumX (fW x) (x.extractLsb' 21 3) (x.extractLsb' 18 3) (x.extractLsb' 10 5) (x.extractLsb' 6 4))
    else .error .reservedField
  | 1 => if x.extractLsb' 15 3 = 0#3 then .ok (.vredMinX (fW x) (x.extractLsb' 21 3) (x.extractLsb' 18 3) (x.extractLsb' 10 5) (x.extractLsb' 6 4))
    else .error .reservedField
  | 2 => if x.extractLsb' 15 3 = 0#3 then .ok (.vredMaxX (fW x) (x.extractLsb' 21 3) (x.extractLsb' 18 3) (x.extractLsb' 10 5) (x.extractLsb' 6 4))
    else .error .reservedField
  | 3 => if x.extractLsb' 15 3 = 0#3 then .ok (.vredAmaxX (fW x) (x.extractLsb' 21 3) (x.extractLsb' 18 3) (x.extractLsb' 10 5) (x.extractLsb' 6 4))
    else .error .reservedField
  | 4 => if x.extractLsb' 15 3 = 0#3 then .ok (.vscanX (fW x) (x.extractLsb' 21 3) (x.extractLsb' 18 3) (x.extractLsb' 10 5) (x.extractLsb' 6 4))
    else .error .reservedField
  | _ => .error .reservedFunction

/-- OP 0x66 (VPERM, VINS, VEXT, VBCAST). -/
def decOp66 (x : BitVec 32) : Except DecodeError Instr :=
  match (x.extractLsb' 0 6).toNat with
  | 0 => .ok (.vperm (fW x) (x.extractLsb' 21 3) (x.extractLsb' 18 3) (x.extractLsb' 15 3) (x.extractLsb' 10 5) (x.extractLsb' 6 4))
  | 1 => .ok (.vins (fW x) (x.extractLsb' 21 3) (x.extractLsb' 18 3) (x.extractLsb' 15 3) (x.extractLsb' 10 5) (x.extractLsb' 6 4))
  | 2 => .ok (.vext (fW x) (x.extractLsb' 21 3) (x.extractLsb' 18 3) (x.extractLsb' 15 3) (x.extractLsb' 10 5) (x.extractLsb' 6 4))
  | 3 => .ok (.vbcast (fW x) (x.extractLsb' 21 3) (x.extractLsb' 18 3) (x.extractLsb' 15 3) (x.extractLsb' 10 5) (x.extractLsb' 6 4))
  | _ => .error .reservedFunction

/-- OP 0x67 (VNEUR). -/
def decOp67 (x : BitVec 32) : Except DecodeError Instr :=
  if x.extractLsb' 0 6 = 0#6 then .ok (.vneur (fW x) (x.extractLsb' 21 3) (x.extractLsb' 18 3) (x.extractLsb' 15 3) (x.extractLsb' 10 5) (x.extractLsb' 6 4))
  else .error .reservedField

/-- OP 0x6E (MVA). -/
def decOp6E (x : BitVec 32) : Except DecodeError Instr :=
  if x.extractLsb' 10 5 = 0#5 ∧ x.extractLsb' 0 6 = 0#6 then .ok (.mva (fW x) (x.extractLsb' 21 3) (x.extractLsb' 18 3) (x.extractLsb' 15 3) (x.extractLsb' 6 4))
  else .error .reservedField

/-- OP 0x6F (AMV). -/
def decOp6F (x : BitVec 32) : Except DecodeError Instr :=
  if x.extractLsb' 10 5 = 0#5 ∧ x.extractLsb' 0 6 = 0#6 then .ok (.amv (fW x) (x.extractLsb' 21 3) (x.extractLsb' 18 3) (x.extractLsb' 15 3) (x.extractLsb' 6 4))
  else .error .reservedField

/-- OP 0x70 (TRAP). -/
def decOp70 (x : BitVec 32) : Except DecodeError Instr :=
  if x.extractLsb' 14 10 = 0#10 then .ok (.trap (fW x) (x.extractLsb' 0 14))
  else .error .reservedField

/-- OP 0x71 (SYSC). -/
def decOp71 (x : BitVec 32) : Except DecodeError Instr :=
  if x.extractLsb' 14 10 = 0#10 then .ok (.sysc (fW x) (x.extractLsb' 0 14))
  else .error .reservedField

/-- OP 0x72 (ERET). -/
def decOp72 (x : BitVec 32) : Except DecodeError Instr :=
  if x.extractLsb' 0 24 = 0#24 then .ok (.eret (fW x))
  else .error .reservedField

/-- OP 0x73 (TLBI, TLBI_ALL). -/
def decOp73 (x : BitVec 32) : Except DecodeError Instr :=
  match (x.extractLsb' 0 1).toNat with
  | 0 => if x.extractLsb' 19 5 = 0#5 ∧ x.extractLsb' 1 13 = 0#13 then .ok (.tlbi (fW x) (x.extractLsb' 14 5))
    else .error .reservedField
  | _ => if x.extractLsb' 1 23 = 0#23 then .ok (.tlbiAll (fW x))
    else .error .reservedField

/-- OP 0x74 (NLOG). -/
def decOp74 (x : BitVec 32) : Except DecodeError Instr :=
  if x.extractLsb' 19 5 = 0#5 ∧ x.extractLsb' 0 9 = 0#9 then .ok (.nlog (fW x) (x.extractLsb' 14 5) (x.extractLsb' 9 5))
  else .error .reservedField

/-- OP 0x75 (CKPT). -/
def decOp75 (x : BitVec 32) : Except DecodeError Instr :=
  if x.extractLsb' 0 9 = 0#9 then .ok (.ckpt (fW x) (x.extractLsb' 19 5) (x.extractLsb' 14 5) (x.extractLsb' 9 5))
  else .error .reservedField

/-- OP 0x76 (CTXC_QUERY, CTXC_RDF, CTXC_WRF, CTXC_FRZ ...). -/
def decOp76 (x : BitVec 32) : Except DecodeError Instr :=
  match (x.extractLsb' 0 4).toNat with
  | 0 => if x.extractLsb' 4 10 = 0#10 then .ok (.ctxcQuery (fW x) (x.extractLsb' 19 5) (x.extractLsb' 14 5))
    else .error .reservedField
  | 1 => if x.extractLsb' 4 10 = 0#10 then .ok (.ctxcRdf (fW x) (x.extractLsb' 19 5) (x.extractLsb' 14 5))
    else .error .reservedField
  | 2 => if x.extractLsb' 4 5 = 0#5 then .ok (.ctxcWrf (fW x) (x.extractLsb' 19 5) (x.extractLsb' 14 5) (x.extractLsb' 9 5))
    else .error .reservedField
  | 3 => if x.extractLsb' 4 10 = 0#10 then .ok (.ctxcFrz (fW x) (x.extractLsb' 19 5) (x.extractLsb' 14 5))
    else .error .reservedField
  | 4 => if x.extractLsb' 4 10 = 0#10 then .ok (.ctxcThaw (fW x) (x.extractLsb' 19 5) (x.extractLsb' 14 5))
    else .error .reservedField
  | 5 => if x.extractLsb' 4 10 = 0#10 then .ok (.ctxcTear (fW x) (x.extractLsb' 19 5) (x.extractLsb' 14 5))
    else .error .reservedField
  | _ => .error .reservedFunction

/-- The instruction a core word encodes, or why it is none (R33, R36). -/
def decode (x : BitVec 32) : Except DecodeError Instr :=
  match (x.extractLsb' 24 7).toNat with
  | 0x01 => decOp01 x
  | 0x02 => decOp02 x
  | 0x03 => decOp03 x
  | 0x04 => decOp04 x
  | 0x05 => decOp05 x
  | 0x06 => decOp06 x
  | 0x07 => decOp07 x
  | 0x08 => decOp08 x
  | 0x09 => decOp09 x
  | 0x0A => decOp0A x
  | 0x0B => decOp0B x
  | 0x0C => decOp0C x
  | 0x0D => decOp0D x
  | 0x0E => decOp0E x
  | 0x0F => decOp0F x
  | 0x10 => decOp10 x
  | 0x11 => decOp11 x
  | 0x12 => decOp12 x
  | 0x13 => decOp13 x
  | 0x18 => decOp18 x
  | 0x19 => decOp19 x
  | 0x1A => decOp1A x
  | 0x1B => decOp1B x
  | 0x1C => decOp1C x
  | 0x1D => decOp1D x
  | 0x20 => decOp20 x
  | 0x21 => decOp21 x
  | 0x22 => decOp22 x
  | 0x23 => decOp23 x
  | 0x24 => decOp24 x
  | 0x25 => decOp25 x
  | 0x26 => decOp26 x
  | 0x27 => decOp27 x
  | 0x28 => decOp28 x
  | 0x30 => decOp30 x
  | 0x31 => decOp31 x
  | 0x32 => decOp32 x
  | 0x33 => decOp33 x
  | 0x34 => decOp34 x
  | 0x35 => decOp35 x
  | 0x36 => decOp36 x
  | 0x37 => decOp37 x
  | 0x38 => decOp38 x
  | 0x39 => decOp39 x
  | 0x3A => decOp3A x
  | 0x3B => decOp3B x
  | 0x3C => decOp3C x
  | 0x3D => decOp3D x
  | 0x40 => decOp40 x
  | 0x41 => decOp41 x
  | 0x42 => decOp42 x
  | 0x43 => decOp43 x
  | 0x44 => decOp44 x
  | 0x46 => decOp46 x
  | 0x47 => decOp47 x
  | 0x48 => decOp48 x
  | 0x49 => decOp49 x
  | 0x4A => decOp4A x
  | 0x4B => decOp4B x
  | 0x4C => decOp4C x
  | 0x4D => decOp4D x
  | 0x4E => decOp4E x
  | 0x50 => decOp50 x
  | 0x51 => decOp51 x
  | 0x52 => decOp52 x
  | 0x54 => decOp54 x
  | 0x55 => decOp55 x
  | 0x56 => decOp56 x
  | 0x57 => decOp57 x
  | 0x58 => decOp58 x
  | 0x59 => decOp59 x
  | 0x5A => decOp5A x
  | 0x5B => decOp5B x
  | 0x5C => decOp5C x
  | 0x5D => decOp5D x
  | 0x5E => decOp5E x
  | 0x5F => decOp5F x
  | 0x60 => decOp60 x
  | 0x68 => decOp68 x
  | 0x61 => decOp61 x
  | 0x69 => decOp69 x
  | 0x62 => decOp62 x
  | 0x6A => decOp6A x
  | 0x63 => decOp63 x
  | 0x6B => decOp6B x
  | 0x64 => decOp64 x
  | 0x6C => decOp6C x
  | 0x65 => decOp65 x
  | 0x6D => decOp6D x
  | 0x66 => decOp66 x
  | 0x67 => decOp67 x
  | 0x6E => decOp6E x
  | 0x6F => decOp6F x
  | 0x70 => decOp70 x
  | 0x71 => decOp71 x
  | 0x72 => decOp72 x
  | 0x73 => decOp73 x
  | 0x74 => decOp74 x
  | 0x75 => decOp75 x
  | 0x76 => decOp76 x
  | _ => .error .reservedOp

/-- The command a 256-bit word names by its CWOP, pushed by `core` (R42); none for a reserved CWOP. -/
def decodeCommand (core : Nat) (cw : BitVec 256) : Option Instr :=
  match (cw.extractLsb' 0 8).toNat with
  | 0x01 => some (.mma core cw)
  | 0x02 => some (.mmz core cw)
  | 0x03 => some (.acrd core cw)
  | 0x04 => some (.acwr core cw)
  | 0x05 => some (.mtr core cw)
  | 0x20 => some (.wload core cw)
  | 0x21 => some (.wstore core cw)
  | 0x22 => some (.wstq core cw)
  | 0x23 => some (.wmcast core cw)
  | 0x24 => some (.wdeal core cw)
  | 0x25 => some (.wgather core cw)
  | 0x26 => some (.wscatter core cw)
  | 0x27 => some (.wfill core cw)
  | 0x28 => some (.signal core cw)
  | 0x40 => some (.bfill core cw)
  | 0x41 => some (.badd core cw)
  | 0x42 => some (.baxpy core cw)
  | 0x43 => some (.bred core cw)
  | _ => none

/-- R form (R25): d, a, b, m. -/
def encR (w : Bool) (op : BitVec 7) (d a b : BitVec 5) (m : BitVec 9) : BitVec 32 :=
  BitVec.ofBool w ++ op ++ d ++ a ++ b ++ m

/-- R4 form (R25): d, a, b, c, ty. -/
def encR4 (w : Bool) (op : BitVec 7) (d a b c : BitVec 5) (ty : BitVec 4) : BitVec 32 :=
  BitVec.ofBool w ++ op ++ d ++ a ++ b ++ c ++ ty

/-- I, S and B forms (R25): two register fields and 14 bits. -/
def encI (w : Bool) (op : BitVec 7) (d a : BitVec 5) (imm : BitVec 14) : BitVec 32 :=
  BitVec.ofBool w ++ op ++ d ++ a ++ imm

/-- U form (R25). -/
def encU (w : Bool) (op : BitVec 7) (d : BitVec 5) (imm : BitVec 19) : BitVec 32 :=
  BitVec.ofBool w ++ op ++ d ++ imm

/-- J form (R25). -/
def encJ (w : Bool) (op : BitVec 7) (off : BitVec 24) : BitVec 32 :=
  BitVec.ofBool w ++ op ++ off

/-- Q form (R25): q, a, n, m. -/
def encQ (w : Bool) (op : BitVec 7) (q : BitVec 2) (a : BitVec 5) (n : BitVec 3) (m : BitVec 14) : BitVec 32 :=
  BitVec.ofBool w ++ op ++ q ++ a ++ n ++ m

/-- M form (R25): td, row, a, off. -/
def encM (w : Bool) (op : BitVec 7) (td : BitVec 3) (row a : BitVec 5) (off : BitVec 11) : BitVec 32 :=
  BitVec.ofBool w ++ op ++ td ++ row ++ a ++ off

/-- T and X forms (R25): td, ta, tb, row or a, ty, fn. -/
def encT (w : Bool) (op : BitVec 7) (td ta tb : BitVec 3) (row : BitVec 5) (ty : BitVec 4) (fn : BitVec 6) : BitVec 32 :=
  BitVec.ofBool w ++ op ++ td ++ ta ++ tb ++ row ++ ty ++ fn

/-- The word of a core instruction. A row that is no core word has none: it answers the all-zero word, which
R33 makes illegal; ILLEGAL_WORD answers the word it carries. -/
def encode : Instr → BitVec 32
  | .add w d a b => encR w 0x01#7 d a b 0#9
  | .sub w d a b => encR w 0x01#7 d a b 1#9
  | .mul w d a b => encR w 0x01#7 d a b 2#9
  | .mulh w d a b => encR w 0x01#7 d a b 3#9
  | .mulhu w d a b => encR w 0x01#7 d a b 4#9
  | .div w d a b => encR w 0x01#7 d a b 5#9
  | .divu w d a b => encR w 0x01#7 d a b 6#9
  | .rem w d a b => encR w 0x01#7 d a b 7#9
  | .remu w d a b => encR w 0x01#7 d a b 8#9
  | .and w d a b => encR w 0x01#7 d a b 9#9
  | .or w d a b => encR w 0x01#7 d a b 10#9
  | .xor w d a b => encR w 0x01#7 d a b 11#9
  | .andn w d a b => encR w 0x01#7 d a b 12#9
  | .orn w d a b => encR w 0x01#7 d a b 13#9
  | .sll w d a b => encR w 0x01#7 d a b 14#9
  | .srl w d a b => encR w 0x01#7 d a b 15#9
  | .sra w d a b => encR w 0x01#7 d a b 16#9
  | .rol w d a b => encR w 0x01#7 d a b 17#9
  | .min w d a b => encR w 0x01#7 d a b 18#9
  | .max w d a b => encR w 0x01#7 d a b 19#9
  | .minu w d a b => encR w 0x01#7 d a b 20#9
  | .maxu w d a b => encR w 0x01#7 d a b 21#9
  | .slt w d a b => encR w 0x01#7 d a b 22#9
  | .sltu w d a b => encR w 0x01#7 d a b 23#9
  | .seq w d a b => encR w 0x01#7 d a b 24#9
  | .clz w d a => encR w 0x01#7 d a 0#5 25#9
  | .ctz w d a => encR w 0x01#7 d a 0#5 26#9
  | .popc w d a => encR w 0x01#7 d a 0#5 27#9
  | .sel w d a b c => encR w 0x02#7 d a b (c ++ 0#4)
  | .ext w d a l p => encI w 0x03#7 d a (0#2 ++ l ++ p)
  | .exts w d a l p => encI w 0x04#7 d a (0#2 ++ l ++ p)
  | .ins w d a l p => encI w 0x05#7 d a (0#2 ++ l ++ p)
  | .addi w d a i => encI w 0x06#7 d a i
  | .andi w d a i => encI w 0x07#7 d a i
  | .ori w d a i => encI w 0x08#7 d a i
  | .xori w d a i => encI w 0x09#7 d a i
  | .slli w d a s => encI w 0x0A#7 d a (0#8 ++ s)
  | .srli w d a s => encI w 0x0B#7 d a (0#8 ++ s)
  | .srai w d a s => encI w 0x0C#7 d a (0#8 ++ s)
  | .slti w d a i => encI w 0x0D#7 d a i
  | .sltiu w d a i => encI w 0x0E#7 d a i
  | .lui w d i => encU w 0x0F#7 d i
  | .auipc w d i => encU w 0x10#7 d i
  | .fadd w d a b y => encR w 0x11#7 d a b (0#1 ++ y ++ 0#4)
  | .fsub w d a b y => encR w 0x11#7 d a b (0#1 ++ y ++ 1#4)
  | .fmul w d a b y => encR w 0x11#7 d a b (0#1 ++ y ++ 2#4)
  | .fmin w d a b y => encR w 0x11#7 d a b (0#1 ++ y ++ 3#4)
  | .fmax w d a b y => encR w 0x11#7 d a b (0#1 ++ y ++ 4#4)
  | .fdiv w d a b y => encR w 0x11#7 d a b (0#1 ++ y ++ 5#4)
  | .fsqrt w d a y => encR w 0x11#7 d a 0#5 (0#1 ++ y ++ 6#4)
  | .fcmpLt w d a b y => encR w 0x11#7 d a b (0#1 ++ y ++ 7#4)
  | .fcmpLe w d a b y => encR w 0x11#7 d a b (0#1 ++ y ++ 8#4)
  | .fcmpEq w d a b y => encR w 0x11#7 d a b (0#1 ++ y ++ 9#4)
  | .fclass w d a y => encR w 0x11#7 d a 0#5 (0#1 ++ y ++ 10#4)
  | .fma w d a b c y => encR4 w 0x12#7 d a b c y
  | .fcvt w d a u f t => encR w 0x13#7 d a 0#5 (u ++ f ++ t)
  | .beq w a b o => encI w 0x18#7 a b o
  | .bne w a b o => encI w 0x19#7 a b o
  | .blt w a b o => encI w 0x1A#7 a b o
  | .bge w a b o => encI w 0x1B#7 a b o
  | .bltu w a b o => encI w 0x1C#7 a b o
  | .bgeu w a b o => encI w 0x1D#7 a b o
  | .j w o => encJ w 0x20#7 o
  | .jal w o => encJ w 0x21#7 o
  | .jalr w d a i => encI w 0x22#7 d a i
  | .tend w a n => encI w 0x23#7 0#5 a n
  | .yield w n => encI w 0x24#7 0#5 0#5 n
  | .csrr w d c => encI w 0x25#7 d 0#5 (0#2 ++ c)
  | .csrw w d a c => encI w 0x26#7 d a (0#2 ++ c)
  | .csrs w d a c => encI w 0x27#7 d a (0#2 ++ c)
  | .csrc w d a c => encI w 0x28#7 d a (0#2 ++ c)
  | .ldB w d a i => encI w 0x30#7 d a i
  | .ldBz w d a i => encI w 0x31#7 d a i
  | .ldH w d a i => encI w 0x32#7 d a i
  | .ldHz w d a i => encI w 0x33#7 d a i
  | .ldW w d a i => encI w 0x34#7 d a i
  | .ldWz w d a i => encI w 0x35#7 d a i
  | .ldD w d a i => encI w 0x36#7 d a i
  | .stB w b a i => encI w 0x37#7 b a i
  | .stH w b a i => encI w 0x38#7 b a i
  | .stW w b a i => encI w 0x39#7 b a i
  | .stD w b a i => encI w 0x3A#7 b a i
  | .ldAcq w d a k o => encI w 0x3B#7 d a (k ++ o)
  | .stRel w b a k o => encI w 0x3C#7 b a (k ++ o)
  | .fenceFull w k => encR w 0x3D#7 0#5 0#5 0#5 (0#4 ++ k)
  | .fenceAcq w k => encR w 0x3D#7 0#5 0#5 0#5 (1#4 ++ k)
  | .fenceRel w k => encR w 0x3D#7 0#5 0#5 0#5 (2#4 ++ k)
  | .amoAdd w d a b s => encR w 0x40#7 d a b (0#4 ++ s ++ 0#4)
  | .amoAnd w d a b s => encR w 0x40#7 d a b (0#4 ++ s ++ 1#4)
  | .amoOr w d a b s => encR w 0x40#7 d a b (0#4 ++ s ++ 2#4)
  | .amoXor w d a b s => encR w 0x40#7 d a b (0#4 ++ s ++ 3#4)
  | .amoMin w d a b s => encR w 0x40#7 d a b (0#4 ++ s ++ 4#4)
  | .amoMax w d a b s => encR w 0x40#7 d a b (0#4 ++ s ++ 5#4)
  | .amoMinu w d a b s => encR w 0x40#7 d a b (0#4 ++ s ++ 6#4)
  | .amoMaxu w d a b s => encR w 0x40#7 d a b (0#4 ++ s ++ 7#4)
  | .amoSwap w d a b s => encR w 0x40#7 d a b (0#4 ++ s ++ 8#4)
  | .amoFaddF32 w d a b => encR w 0x40#7 d a b 25#9
  | .amoFaddBf16 w d a b => encR w 0x40#7 d a b 10#9
  | .amoFmaxF32 w d a b => encR w 0x40#7 d a b 27#9
  | .casI64 w d a b c => encR4 w 0x41#7 d a b c 15#4
  | .casI32 w d a b c => encR4 w 0x41#7 d a b c 10#4
  | .dadd w d a b y => encR w 0x42#7 d a b (0#5 ++ y)
  | .cadd w d a b k => encR w 0x43#7 d a b (0#4 ++ k)
  | .dseal w d a => encR w 0x44#7 d a 0#5 0#9
  | .tlnew w d a b => encR w 0x46#7 d a b 0#9
  | .tlfree w a => encR w 0x47#7 0#5 a 0#5 0#9
  | .send w d a b k => encR w 0x48#7 d a b (0#4 ++ k)
  | .post w d a k => encR w 0x49#7 d a 0#5 (0#4 ++ k)
  | .reply w d k => encR w 0x4A#7 d 0#5 0#5 (1#4 ++ k)
  | .replyTo w d a k => encR w 0x4A#7 d a 0#5 (0#4 ++ k)
  | .promise w a => encR w 0x4B#7 0#5 a 0#5 0#9
  | .chopen w d a b => encR w 0x4C#7 d a b 0#9
  | .chclose w a => encR w 0x4D#7 0#5 a 0#5 0#9
  | .nstat w d a s => encR w 0x4E#7 d a 0#5 (0#5 ++ s)
  | .tsub w d a k => encR w 0x50#7 d a 0#5 (0#4 ++ k)
  | .krel w a => encR w 0x51#7 0#5 a 0#5 0#9
  | .kheld w d a => encR w 0x52#7 d a 0#5 0#9
  | .bara w k => encR w 0x54#7 0#5 0#5 0#5 (0#4 ++ k)
  | .barw w => encR w 0x55#7 0#5 0#5 0#5 0#9
  | .bar w k => encR w 0x56#7 0#5 0#5 0#5 (0#4 ++ k)
  | .mrls w => encR w 0x57#7 0#5 0#5 0#5 0#9
  | .push w q a => encQ w 0x58#7 q a 0#3 0#14
  | .pushm w q a n m => encQ w 0x59#7 q a n m
  | .pop w q a => encQ w 0x5A#7 q a 0#3 0#14
  | .qstat w q a => encQ w 0x5B#7 q a 0#3 0#14
  | .tldr w t r a h o => encM w 0x5C#7 t r a (h ++ o)
  | .tstr w t r a h o => encM w 0x5D#7 t r a (h ++ o)
  | .tld w t a o => encM w 0x5E#7 t 0#5 a o
  | .tst w t a o => encM w 0x5F#7 t 0#5 a o
  | .vadd w d a b r y => encT w 0x60#7 d a b r y 0#6
  | .vaddX w d a b x y => encT w 0x68#7 d a b x y 0#6
  | .vsub w d a b r y => encT w 0x60#7 d a b r y 1#6
  | .vsubX w d a b x y => encT w 0x68#7 d a b x y 1#6
  | .vmul w d a b r y => encT w 0x60#7 d a b r y 2#6
  | .vmulX w d a b x y => encT w 0x68#7 d a b x y 2#6
  | .vmin w d a b r y => encT w 0x60#7 d a b r y 3#6
  | .vminX w d a b x y => encT w 0x68#7 d a b x y 3#6
  | .vmax w d a b r y => encT w 0x60#7 d a b r y 4#6
  | .vmaxX w d a b x y => encT w 0x68#7 d a b x y 4#6
  | .vabs w d a r y => encT w 0x60#7 d a 0#3 r y 5#6
  | .vabsX w d a x y => encT w 0x68#7 d a 0#3 x y 5#6
  | .vneg w d a r y => encT w 0x60#7 d a 0#3 r y 6#6
  | .vnegX w d a x y => encT w 0x68#7 d a 0#3 x y 6#6
  | .vand w d a b r y => encT w 0x60#7 d a b r y 7#6
  | .vandX w d a b x y => encT w 0x68#7 d a b x y 7#6
  | .vor w d a b r y => encT w 0x60#7 d a b r y 8#6
  | .vorX w d a b x y => encT w 0x68#7 d a b x y 8#6
  | .vxor w d a b r y => encT w 0x60#7 d a b r y 9#6
  | .vxorX w d a b x y => encT w 0x68#7 d a b x y 9#6
  | .vshl w d a b r y => encT w 0x60#7 d a b r y 10#6
  | .vshlX w d a b x y => encT w 0x68#7 d a b x y 10#6
  | .vshr w d a b r y => encT w 0x60#7 d a b r y 11#6
  | .vshrX w d a b x y => encT w 0x68#7 d a b x y 11#6
  | .vsra w d a b r y => encT w 0x60#7 d a b r y 12#6
  | .vsraX w d a b x y => encT w 0x68#7 d a b x y 12#6
  | .vcmpLt w d a b r y => encT w 0x60#7 d a b r y 13#6
  | .vcmpLtX w d a b x y => encT w 0x68#7 d a b x y 13#6
  | .vcmpLe w d a b r y => encT w 0x60#7 d a b r y 14#6
  | .vcmpLeX w d a b x y => encT w 0x68#7 d a b x y 14#6
  | .vcmpEq w d a b r y => encT w 0x60#7 d a b r y 15#6
  | .vcmpEqX w d a b x y => encT w 0x68#7 d a b x y 15#6
  | .vsel w d a b r y => encT w 0x60#7 d a b r y 16#6
  | .vselX w d a b x y => encT w 0x68#7 d a b x y 16#6
  | .vmov w d a r y => encT w 0x60#7 d a 0#3 r y 17#6
  | .vmovX w d a x y => encT w 0x68#7 d a 0#3 x y 17#6
  | .vfma w d a b r y => encT w 0x61#7 d a b r y 0#6
  | .vfmaX w d a b x y => encT w 0x69#7 d a b x y 0#6
  | .vrcp w d a r y => encT w 0x62#7 d a 0#3 r y 0#6
  | .vrcpX w d a x y => encT w 0x6A#7 d a 0#3 x y 0#6
  | .vrsq w d a r y => encT w 0x62#7 d a 0#3 r y 1#6
  | .vrsqX w d a x y => encT w 0x6A#7 d a 0#3 x y 1#6
  | .vrfn w d a b r y => encT w 0x62#7 d a b r y 2#6
  | .vrfnX w d a b x y => encT w 0x6A#7 d a b x y 2#6
  | .vrfs w d a b r y => encT w 0x62#7 d a b r y 3#6
  | .vrfsX w d a b x y => encT w 0x6A#7 d a b x y 3#6
  | .vexp2 w d a r y => encT w 0x62#7 d a 0#3 r y 4#6
  | .vexp2X w d a x y => encT w 0x6A#7 d a 0#3 x y 4#6
  | .vlog2 w d a r y => encT w 0x62#7 d a 0#3 r y 5#6
  | .vlog2X w d a x y => encT w 0x6A#7 d a 0#3 x y 5#6
  | .vcvt w d a p r y c => encT w 0x63#7 d a p r y (0#2 ++ c)
  | .vcvtX w d a p x y c => encT w 0x6B#7 d a p x y (0#2 ++ c)
  | .vqnt w d a p r y => encT w 0x64#7 d a p r y 0#6
  | .vqntX w d a p x y => encT w 0x6C#7 d a p x y 0#6
  | .vdq w d a p r y => encT w 0x64#7 d a p r y 1#6
  | .vdqX w d a p x y => encT w 0x6C#7 d a p x y 1#6
  | .vredSum w d a r y => encT w 0x65#7 d a 0#3 r y 0#6
  | .vredSumX w d a x y => encT w 0x6D#7 d a 0#3 x y 0#6
  | .vredMin w d a r y => encT w 0x65#7 d a 0#3 r y 1#6
  | .vredMinX w d a x y => encT w 0x6D#7 d a 0#3 x y 1#6
  | .vredMax w d a r y => encT w 0x65#7 d a 0#3 r y 2#6
  | .vredMaxX w d a x y => encT w 0x6D#7 d a 0#3 x y 2#6
  | .vredAmax w d a r y => encT w 0x65#7 d a 0#3 r y 3#6
  | .vredAmaxX w d a x y => encT w 0x6D#7 d a 0#3 x y 3#6
  | .vscan w d a r y => encT w 0x65#7 d a 0#3 r y 4#6
  | .vscanX w d a x y => encT w 0x6D#7 d a 0#3 x y 4#6
  | .vperm w d a b r y => encT w 0x66#7 d a b r y 0#6
  | .vins w d a b r y => encT w 0x66#7 d a b r y 1#6
  | .vext w d a b r y => encT w 0x66#7 d a b r y 2#6
  | .vbcast w d a j r y => encT w 0x66#7 d a j r y 3#6
  | .vneur w d a b r y => encT w 0x67#7 d a b r y 0#6
  | .mva w c t p y => encT w 0x6E#7 c t p 0#5 y 0#6
  | .amv w t c p y => encT w 0x6F#7 t c p 0#5 y 0#6
  | .trap w n => encI w 0x70#7 0#5 0#5 n
  | .sysc w n => encI w 0x71#7 0#5 0#5 n
  | .eret w => encR w 0x72#7 0#5 0#5 0#5 0#9
  | .tlbi w a => encR w 0x73#7 0#5 a 0#5 0#9
  | .tlbiAll w => encR w 0x73#7 0#5 0#5 0#5 1#9
  | .nlog w a b => encR w 0x74#7 0#5 a b 0#9
  | .ckpt w d a b => encR w 0x75#7 d a b 0#9
  | .ctxcQuery w d a => encR w 0x76#7 d a 0#5 0#9
  | .ctxcRdf w d a => encR w 0x76#7 d a 0#5 1#9
  | .ctxcWrf w d a b => encR w 0x76#7 d a b 2#9
  | .ctxcFrz w d a => encR w 0x76#7 d a 0#5 3#9
  | .ctxcThaw w d a => encR w 0x76#7 d a 0#5 4#9
  | .ctxcTear w d a => encR w 0x76#7 d a 0#5 5#9
  | .bfill _ _ => 0#32
  | .badd _ _ => 0#32
  | .baxpy _ _ => 0#32
  | .bred _ _ => 0#32
  | .mma _ _ => 0#32
  | .mmz _ _ => 0#32
  | .acrd _ _ => 0#32
  | .acwr _ _ => 0#32
  | .mtr _ _ => 0#32
  | .wload _ _ => 0#32
  | .wstore _ _ => 0#32
  | .wstq _ _ => 0#32
  | .wmcast _ _ => 0#32
  | .wdeal _ _ => 0#32
  | .wgather _ _ => 0#32
  | .wscatter _ _ => 0#32
  | .wfill _ _ => 0#32
  | .signal _ _ => 0#32
  | .illegalWord x => x
  | .tendComplete _ => 0#32
  | .yieldComplete _ => 0#32
  | .stRelStoreLeaves _ _ => 0#32
  | .caddAdditionSent _ _ => 0#32
  | .tlnewAtCluster _ _ => 0#32
  | .tlnewResult _ _ => 0#32
  | .tlfreeArrival _ _ => 0#32
  | .sendInject _ => 0#32
  | .chopenAtTarget _ _ => 0#32
  | .chopenResult _ _ => 0#32
  | .tsubRecordWrite _ _ => 0#32
  | .krelSent _ _ => 0#32
  | .barArrivalSent _ _ => 0#32
  | .pushEntersQueue _ _ => 0#32
  | .vectorUnitStart _ => 0#32
  | .rowWrite _ => 0#32
  | .tlbiInvalidate _ _ _ _ _ => 0#32
  | .qreqWrite _ _ => 0#32
  | .oqcapWrite _ _ => 0#32
  | .trapEntry _ => 0#32
  | .watchdog _ => 0#32
  | .translationWalk _ _ _ => 0#32
  | .bankLoad _ => 0#32
  | .bankStore _ => 0#32
  | .rowLoadRequest _ => 0#32
  | .rowStoreRequest _ => 0#32
  | .scaleSlotWrite _ => 0#32
  | .amoAtBank _ => 0#32
  | .casAtBank _ => 0#32
  | .counterAddAtBank _ => 0#32
  | .daddAtBank _ => 0#32
  | .dsealAtBank _ => 0#32
  | .loadResponse _ => 0#32
  | .storeAck _ => 0#32
  | .rowLoadResponse _ => 0#32
  | .flitInject _ => 0#32
  | .flitArrival _ => 0#32
  | .receiptArrival _ _ => 0#32
  | .nakArrival _ _ _ => 0#32
  | .injectionStop _ => 0#32
  | .throttleWindow _ => 0#32
  | .bulkDeferExpiry _ _ => 0#32
  | .overflowWrite _ => 0#32
  | .recall _ _ => 0#32
  | .ovminRecomputeDone _ _ => 0#32
  | .linkReplay _ _ _ => 0#32
  | .retrainEnd _ _ => 0#32
  | .pcieCompletionTimeout _ => 0#32
  | .promiseArrival _ _ _ _ => 0#32
  | .transit _ _ => 0#32
  | .promiseSend _ _ => 0#32
  | .askSend _ _ => 0#32
  | .askArrival _ _ => 0#32
  | .tokenStart _ => 0#32
  | .surveyVisit _ => 0#32
  | .survstall _ => 0#32
  | .eventArrival _ _ _ _ _ _ => 0#32
  | .taskEntry _ => 0#32
  | .deskKreq _ _ _ _ _ => 0#32
  | .kgrantArrival _ _ _ => 0#32
  | .krefuseArrival _ _ _ => 0#32
  | .keyRetry _ _ => 0#32
  | .deskKrel _ _ _ _ _ => 0#32
  | .deskKcancel _ _ _ _ _ => 0#32
  | .krunAtDesk _ _ _ _ _ => 0#32
  | .kqueryAtDesk _ _ => 0#32
  | .kstatArrival _ _ => 0#32
  | .wregAtSlice _ _ _ => 0#32
  | .wmetArrival _ _ _ => 0#32
  | .wrefuseArrival _ _ _ => 0#32
  | .watchPoll _ _ _ => 0#32
  | .wcancelAtSlice _ _ _ _ => 0#32
  | .dwait _ _ => 0#32
  | .dispatch _ => 0#32
  | .priorityPromotion _ _ => 0#32
  | .quadHoldRequest _ _ => 0#32
  | .quadGangStart _ => 0#32
  | .barrierArrival _ => 0#32
  | .barrierExit _ => 0#32
  | .barrierWake _ => 0#32
  | .slwinWrite _ => 0#32
  | .slwinSwitchDone _ _ => 0#32
  | .slcolsWrite _ => 0#32
  | .slcolsSwitch _ => 0#32
  | .patrolScrub _ _ => 0#32
  | .leaseGrant _ => 0#32
  | .releaseMarkerHead _ => 0#32
  | .waithRecheck _ _ => 0#32
  | .engineCommandComplete _ _ _ => 0#32
  | .sighAnswer _ _ _ => 0#32
  | .scalingExchange _ _ => 0#32
  | .mcastTransfer _ => 0#32
  | .drainAddition _ _ => 0#32
  | .freezeGraceEnd _ => 0#32
  | .freezeDone _ => 0#32
  | .thawDone _ => 0#32
  | .pagePreserve _ _ => 0#32
  | .archiveStart _ => 0#32
  | .archivePage _ _ => 0#32
  | .checkpointComplete _ => 0#32
  | .nlctlWrite _ => 0#32
  | .lnkstWrite _ => 0#32
  | .cnrectWrite _ => 0#32
  | .cnctlFence _ _ => 0#32
  | .cnctlReset _ => 0#32
  | .containmentResetDone _ => 0#32
  | .registerWrite _ _ => 0#32
  | .hostPostWrite _ _ _ _ => 0#32
  | .hostPromise _ _ _ _ => 0#32
  | .hostReplyWrite _ => 0#32
  | .rrheadWrite _ _ => 0#32
  | .vfbindWrite _ _ => 0#32
  | .domidWrite _ => 0#32
  | .firmwareRequestTake _ => 0#32
  | .reductionDescriptorWrite _ => 0#32
  | .reductionContribution _ _ _ _ _ _ => 0#32
  | .fabricFrameArrival _ _ => 0#32
  | .thermalTrip => 0#32
  | .thermalRecover => 0#32
  | .perstRelease => 0#32
  | .contextCreate _ _ => 0#32
  | .pcieCompletionArrival _ _ => 0#32

/-- The command word of a command row; none for the other rows (R40). -/
def encodeCommand : Instr → Option (BitVec 256)
  | .add _ _ _ _ => none
  | .sub _ _ _ _ => none
  | .mul _ _ _ _ => none
  | .mulh _ _ _ _ => none
  | .mulhu _ _ _ _ => none
  | .div _ _ _ _ => none
  | .divu _ _ _ _ => none
  | .rem _ _ _ _ => none
  | .remu _ _ _ _ => none
  | .and _ _ _ _ => none
  | .or _ _ _ _ => none
  | .xor _ _ _ _ => none
  | .andn _ _ _ _ => none
  | .orn _ _ _ _ => none
  | .sll _ _ _ _ => none
  | .srl _ _ _ _ => none
  | .sra _ _ _ _ => none
  | .rol _ _ _ _ => none
  | .min _ _ _ _ => none
  | .max _ _ _ _ => none
  | .minu _ _ _ _ => none
  | .maxu _ _ _ _ => none
  | .slt _ _ _ _ => none
  | .sltu _ _ _ _ => none
  | .seq _ _ _ _ => none
  | .clz _ _ _ => none
  | .ctz _ _ _ => none
  | .popc _ _ _ => none
  | .sel _ _ _ _ _ => none
  | .ext _ _ _ _ _ => none
  | .exts _ _ _ _ _ => none
  | .ins _ _ _ _ _ => none
  | .addi _ _ _ _ => none
  | .andi _ _ _ _ => none
  | .ori _ _ _ _ => none
  | .xori _ _ _ _ => none
  | .slli _ _ _ _ => none
  | .srli _ _ _ _ => none
  | .srai _ _ _ _ => none
  | .slti _ _ _ _ => none
  | .sltiu _ _ _ _ => none
  | .lui _ _ _ => none
  | .auipc _ _ _ => none
  | .fadd _ _ _ _ _ => none
  | .fsub _ _ _ _ _ => none
  | .fmul _ _ _ _ _ => none
  | .fmin _ _ _ _ _ => none
  | .fmax _ _ _ _ _ => none
  | .fdiv _ _ _ _ _ => none
  | .fsqrt _ _ _ _ => none
  | .fcmpLt _ _ _ _ _ => none
  | .fcmpLe _ _ _ _ _ => none
  | .fcmpEq _ _ _ _ _ => none
  | .fclass _ _ _ _ => none
  | .fma _ _ _ _ _ _ => none
  | .fcvt _ _ _ _ _ _ => none
  | .beq _ _ _ _ => none
  | .bne _ _ _ _ => none
  | .blt _ _ _ _ => none
  | .bge _ _ _ _ => none
  | .bltu _ _ _ _ => none
  | .bgeu _ _ _ _ => none
  | .j _ _ => none
  | .jal _ _ => none
  | .jalr _ _ _ _ => none
  | .tend _ _ _ => none
  | .yield _ _ => none
  | .csrr _ _ _ => none
  | .csrw _ _ _ _ => none
  | .csrs _ _ _ _ => none
  | .csrc _ _ _ _ => none
  | .ldB _ _ _ _ => none
  | .ldBz _ _ _ _ => none
  | .ldH _ _ _ _ => none
  | .ldHz _ _ _ _ => none
  | .ldW _ _ _ _ => none
  | .ldWz _ _ _ _ => none
  | .ldD _ _ _ _ => none
  | .stB _ _ _ _ => none
  | .stH _ _ _ _ => none
  | .stW _ _ _ _ => none
  | .stD _ _ _ _ => none
  | .ldAcq _ _ _ _ _ => none
  | .stRel _ _ _ _ _ => none
  | .fenceFull _ _ => none
  | .fenceAcq _ _ => none
  | .fenceRel _ _ => none
  | .amoAdd _ _ _ _ _ => none
  | .amoAnd _ _ _ _ _ => none
  | .amoOr _ _ _ _ _ => none
  | .amoXor _ _ _ _ _ => none
  | .amoMin _ _ _ _ _ => none
  | .amoMax _ _ _ _ _ => none
  | .amoMinu _ _ _ _ _ => none
  | .amoMaxu _ _ _ _ _ => none
  | .amoSwap _ _ _ _ _ => none
  | .amoFaddF32 _ _ _ _ => none
  | .amoFaddBf16 _ _ _ _ => none
  | .amoFmaxF32 _ _ _ _ => none
  | .casI64 _ _ _ _ _ => none
  | .casI32 _ _ _ _ _ => none
  | .dadd _ _ _ _ _ => none
  | .cadd _ _ _ _ _ => none
  | .dseal _ _ _ => none
  | .tlnew _ _ _ _ => none
  | .tlfree _ _ => none
  | .send _ _ _ _ _ => none
  | .post _ _ _ _ => none
  | .reply _ _ _ => none
  | .replyTo _ _ _ _ => none
  | .promise _ _ => none
  | .chopen _ _ _ _ => none
  | .chclose _ _ => none
  | .nstat _ _ _ _ => none
  | .tsub _ _ _ _ => none
  | .krel _ _ => none
  | .kheld _ _ _ => none
  | .bara _ _ => none
  | .barw _ => none
  | .bar _ _ => none
  | .mrls _ => none
  | .push _ _ _ => none
  | .pushm _ _ _ _ _ => none
  | .pop _ _ _ => none
  | .qstat _ _ _ => none
  | .tldr _ _ _ _ _ _ => none
  | .tstr _ _ _ _ _ _ => none
  | .tld _ _ _ _ => none
  | .tst _ _ _ _ => none
  | .vadd _ _ _ _ _ _ => none
  | .vaddX _ _ _ _ _ _ => none
  | .vsub _ _ _ _ _ _ => none
  | .vsubX _ _ _ _ _ _ => none
  | .vmul _ _ _ _ _ _ => none
  | .vmulX _ _ _ _ _ _ => none
  | .vmin _ _ _ _ _ _ => none
  | .vminX _ _ _ _ _ _ => none
  | .vmax _ _ _ _ _ _ => none
  | .vmaxX _ _ _ _ _ _ => none
  | .vabs _ _ _ _ _ => none
  | .vabsX _ _ _ _ _ => none
  | .vneg _ _ _ _ _ => none
  | .vnegX _ _ _ _ _ => none
  | .vand _ _ _ _ _ _ => none
  | .vandX _ _ _ _ _ _ => none
  | .vor _ _ _ _ _ _ => none
  | .vorX _ _ _ _ _ _ => none
  | .vxor _ _ _ _ _ _ => none
  | .vxorX _ _ _ _ _ _ => none
  | .vshl _ _ _ _ _ _ => none
  | .vshlX _ _ _ _ _ _ => none
  | .vshr _ _ _ _ _ _ => none
  | .vshrX _ _ _ _ _ _ => none
  | .vsra _ _ _ _ _ _ => none
  | .vsraX _ _ _ _ _ _ => none
  | .vcmpLt _ _ _ _ _ _ => none
  | .vcmpLtX _ _ _ _ _ _ => none
  | .vcmpLe _ _ _ _ _ _ => none
  | .vcmpLeX _ _ _ _ _ _ => none
  | .vcmpEq _ _ _ _ _ _ => none
  | .vcmpEqX _ _ _ _ _ _ => none
  | .vsel _ _ _ _ _ _ => none
  | .vselX _ _ _ _ _ _ => none
  | .vmov _ _ _ _ _ => none
  | .vmovX _ _ _ _ _ => none
  | .vfma _ _ _ _ _ _ => none
  | .vfmaX _ _ _ _ _ _ => none
  | .vrcp _ _ _ _ _ => none
  | .vrcpX _ _ _ _ _ => none
  | .vrsq _ _ _ _ _ => none
  | .vrsqX _ _ _ _ _ => none
  | .vrfn _ _ _ _ _ _ => none
  | .vrfnX _ _ _ _ _ _ => none
  | .vrfs _ _ _ _ _ _ => none
  | .vrfsX _ _ _ _ _ _ => none
  | .vexp2 _ _ _ _ _ => none
  | .vexp2X _ _ _ _ _ => none
  | .vlog2 _ _ _ _ _ => none
  | .vlog2X _ _ _ _ _ => none
  | .vcvt _ _ _ _ _ _ _ => none
  | .vcvtX _ _ _ _ _ _ _ => none
  | .vqnt _ _ _ _ _ _ => none
  | .vqntX _ _ _ _ _ _ => none
  | .vdq _ _ _ _ _ _ => none
  | .vdqX _ _ _ _ _ _ => none
  | .vredSum _ _ _ _ _ => none
  | .vredSumX _ _ _ _ _ => none
  | .vredMin _ _ _ _ _ => none
  | .vredMinX _ _ _ _ _ => none
  | .vredMax _ _ _ _ _ => none
  | .vredMaxX _ _ _ _ _ => none
  | .vredAmax _ _ _ _ _ => none
  | .vredAmaxX _ _ _ _ _ => none
  | .vscan _ _ _ _ _ => none
  | .vscanX _ _ _ _ _ => none
  | .vperm _ _ _ _ _ _ => none
  | .vins _ _ _ _ _ _ => none
  | .vext _ _ _ _ _ _ => none
  | .vbcast _ _ _ _ _ _ => none
  | .vneur _ _ _ _ _ _ => none
  | .mva _ _ _ _ _ => none
  | .amv _ _ _ _ _ => none
  | .trap _ _ => none
  | .sysc _ _ => none
  | .eret _ => none
  | .tlbi _ _ => none
  | .tlbiAll _ => none
  | .nlog _ _ _ => none
  | .ckpt _ _ _ _ => none
  | .ctxcQuery _ _ _ => none
  | .ctxcRdf _ _ _ => none
  | .ctxcWrf _ _ _ _ => none
  | .ctxcFrz _ _ _ => none
  | .ctxcThaw _ _ _ => none
  | .ctxcTear _ _ _ => none
  | .bfill _ cw => some cw
  | .badd _ cw => some cw
  | .baxpy _ cw => some cw
  | .bred _ cw => some cw
  | .mma _ cw => some cw
  | .mmz _ cw => some cw
  | .acrd _ cw => some cw
  | .acwr _ cw => some cw
  | .mtr _ cw => some cw
  | .wload _ cw => some cw
  | .wstore _ cw => some cw
  | .wstq _ cw => some cw
  | .wmcast _ cw => some cw
  | .wdeal _ cw => some cw
  | .wgather _ cw => some cw
  | .wscatter _ cw => some cw
  | .wfill _ cw => some cw
  | .signal _ cw => some cw
  | .illegalWord _ => none
  | .tendComplete _ => none
  | .yieldComplete _ => none
  | .stRelStoreLeaves _ _ => none
  | .caddAdditionSent _ _ => none
  | .tlnewAtCluster _ _ => none
  | .tlnewResult _ _ => none
  | .tlfreeArrival _ _ => none
  | .sendInject _ => none
  | .chopenAtTarget _ _ => none
  | .chopenResult _ _ => none
  | .tsubRecordWrite _ _ => none
  | .krelSent _ _ => none
  | .barArrivalSent _ _ => none
  | .pushEntersQueue _ _ => none
  | .vectorUnitStart _ => none
  | .rowWrite _ => none
  | .tlbiInvalidate _ _ _ _ _ => none
  | .qreqWrite _ _ => none
  | .oqcapWrite _ _ => none
  | .trapEntry _ => none
  | .watchdog _ => none
  | .translationWalk _ _ _ => none
  | .bankLoad _ => none
  | .bankStore _ => none
  | .rowLoadRequest _ => none
  | .rowStoreRequest _ => none
  | .scaleSlotWrite _ => none
  | .amoAtBank _ => none
  | .casAtBank _ => none
  | .counterAddAtBank _ => none
  | .daddAtBank _ => none
  | .dsealAtBank _ => none
  | .loadResponse _ => none
  | .storeAck _ => none
  | .rowLoadResponse _ => none
  | .flitInject _ => none
  | .flitArrival _ => none
  | .receiptArrival _ _ => none
  | .nakArrival _ _ _ => none
  | .injectionStop _ => none
  | .throttleWindow _ => none
  | .bulkDeferExpiry _ _ => none
  | .overflowWrite _ => none
  | .recall _ _ => none
  | .ovminRecomputeDone _ _ => none
  | .linkReplay _ _ _ => none
  | .retrainEnd _ _ => none
  | .pcieCompletionTimeout _ => none
  | .promiseArrival _ _ _ _ => none
  | .transit _ _ => none
  | .promiseSend _ _ => none
  | .askSend _ _ => none
  | .askArrival _ _ => none
  | .tokenStart _ => none
  | .surveyVisit _ => none
  | .survstall _ => none
  | .eventArrival _ _ _ _ _ _ => none
  | .taskEntry _ => none
  | .deskKreq _ _ _ _ _ => none
  | .kgrantArrival _ _ _ => none
  | .krefuseArrival _ _ _ => none
  | .keyRetry _ _ => none
  | .deskKrel _ _ _ _ _ => none
  | .deskKcancel _ _ _ _ _ => none
  | .krunAtDesk _ _ _ _ _ => none
  | .kqueryAtDesk _ _ => none
  | .kstatArrival _ _ => none
  | .wregAtSlice _ _ _ => none
  | .wmetArrival _ _ _ => none
  | .wrefuseArrival _ _ _ => none
  | .watchPoll _ _ _ => none
  | .wcancelAtSlice _ _ _ _ => none
  | .dwait _ _ => none
  | .dispatch _ => none
  | .priorityPromotion _ _ => none
  | .quadHoldRequest _ _ => none
  | .quadGangStart _ => none
  | .barrierArrival _ => none
  | .barrierExit _ => none
  | .barrierWake _ => none
  | .slwinWrite _ => none
  | .slwinSwitchDone _ _ => none
  | .slcolsWrite _ => none
  | .slcolsSwitch _ => none
  | .patrolScrub _ _ => none
  | .leaseGrant _ => none
  | .releaseMarkerHead _ => none
  | .waithRecheck _ _ => none
  | .engineCommandComplete _ _ _ => none
  | .sighAnswer _ _ _ => none
  | .scalingExchange _ _ => none
  | .mcastTransfer _ => none
  | .drainAddition _ _ => none
  | .freezeGraceEnd _ => none
  | .freezeDone _ => none
  | .thawDone _ => none
  | .pagePreserve _ _ => none
  | .archiveStart _ => none
  | .archivePage _ _ => none
  | .checkpointComplete _ => none
  | .nlctlWrite _ => none
  | .lnkstWrite _ => none
  | .cnrectWrite _ => none
  | .cnctlFence _ _ => none
  | .cnctlReset _ => none
  | .containmentResetDone _ => none
  | .registerWrite _ _ => none
  | .hostPostWrite _ _ _ _ => none
  | .hostPromise _ _ _ _ => none
  | .hostReplyWrite _ => none
  | .rrheadWrite _ _ => none
  | .vfbindWrite _ _ => none
  | .domidWrite _ => none
  | .firmwareRequestTake _ => none
  | .reductionDescriptorWrite _ => none
  | .reductionContribution _ _ _ _ _ _ => none
  | .fabricFrameArrival _ _ => none
  | .thermalTrip => none
  | .thermalRecover => none
  | .perstRelease => none
  | .contextCreate _ _ => none
  | .pcieCompletionArrival _ _ => none

/-- The rows that are core words: those the decoder can answer. -/
def Instr.isWord : Instr → Bool
  | .add _ _ _ _ => true
  | .sub _ _ _ _ => true
  | .mul _ _ _ _ => true
  | .mulh _ _ _ _ => true
  | .mulhu _ _ _ _ => true
  | .div _ _ _ _ => true
  | .divu _ _ _ _ => true
  | .rem _ _ _ _ => true
  | .remu _ _ _ _ => true
  | .and _ _ _ _ => true
  | .or _ _ _ _ => true
  | .xor _ _ _ _ => true
  | .andn _ _ _ _ => true
  | .orn _ _ _ _ => true
  | .sll _ _ _ _ => true
  | .srl _ _ _ _ => true
  | .sra _ _ _ _ => true
  | .rol _ _ _ _ => true
  | .min _ _ _ _ => true
  | .max _ _ _ _ => true
  | .minu _ _ _ _ => true
  | .maxu _ _ _ _ => true
  | .slt _ _ _ _ => true
  | .sltu _ _ _ _ => true
  | .seq _ _ _ _ => true
  | .clz _ _ _ => true
  | .ctz _ _ _ => true
  | .popc _ _ _ => true
  | .sel _ _ _ _ _ => true
  | .ext _ _ _ _ _ => true
  | .exts _ _ _ _ _ => true
  | .ins _ _ _ _ _ => true
  | .addi _ _ _ _ => true
  | .andi _ _ _ _ => true
  | .ori _ _ _ _ => true
  | .xori _ _ _ _ => true
  | .slli _ _ _ _ => true
  | .srli _ _ _ _ => true
  | .srai _ _ _ _ => true
  | .slti _ _ _ _ => true
  | .sltiu _ _ _ _ => true
  | .lui _ _ _ => true
  | .auipc _ _ _ => true
  | .fadd _ _ _ _ _ => true
  | .fsub _ _ _ _ _ => true
  | .fmul _ _ _ _ _ => true
  | .fmin _ _ _ _ _ => true
  | .fmax _ _ _ _ _ => true
  | .fdiv _ _ _ _ _ => true
  | .fsqrt _ _ _ _ => true
  | .fcmpLt _ _ _ _ _ => true
  | .fcmpLe _ _ _ _ _ => true
  | .fcmpEq _ _ _ _ _ => true
  | .fclass _ _ _ _ => true
  | .fma _ _ _ _ _ _ => true
  | .fcvt _ _ _ _ _ _ => true
  | .beq _ _ _ _ => true
  | .bne _ _ _ _ => true
  | .blt _ _ _ _ => true
  | .bge _ _ _ _ => true
  | .bltu _ _ _ _ => true
  | .bgeu _ _ _ _ => true
  | .j _ _ => true
  | .jal _ _ => true
  | .jalr _ _ _ _ => true
  | .tend _ _ _ => true
  | .yield _ _ => true
  | .csrr _ _ _ => true
  | .csrw _ _ _ _ => true
  | .csrs _ _ _ _ => true
  | .csrc _ _ _ _ => true
  | .ldB _ _ _ _ => true
  | .ldBz _ _ _ _ => true
  | .ldH _ _ _ _ => true
  | .ldHz _ _ _ _ => true
  | .ldW _ _ _ _ => true
  | .ldWz _ _ _ _ => true
  | .ldD _ _ _ _ => true
  | .stB _ _ _ _ => true
  | .stH _ _ _ _ => true
  | .stW _ _ _ _ => true
  | .stD _ _ _ _ => true
  | .ldAcq _ _ _ _ _ => true
  | .stRel _ _ _ _ _ => true
  | .fenceFull _ _ => true
  | .fenceAcq _ _ => true
  | .fenceRel _ _ => true
  | .amoAdd _ _ _ _ _ => true
  | .amoAnd _ _ _ _ _ => true
  | .amoOr _ _ _ _ _ => true
  | .amoXor _ _ _ _ _ => true
  | .amoMin _ _ _ _ _ => true
  | .amoMax _ _ _ _ _ => true
  | .amoMinu _ _ _ _ _ => true
  | .amoMaxu _ _ _ _ _ => true
  | .amoSwap _ _ _ _ _ => true
  | .amoFaddF32 _ _ _ _ => true
  | .amoFaddBf16 _ _ _ _ => true
  | .amoFmaxF32 _ _ _ _ => true
  | .casI64 _ _ _ _ _ => true
  | .casI32 _ _ _ _ _ => true
  | .dadd _ _ _ _ _ => true
  | .cadd _ _ _ _ _ => true
  | .dseal _ _ _ => true
  | .tlnew _ _ _ _ => true
  | .tlfree _ _ => true
  | .send _ _ _ _ _ => true
  | .post _ _ _ _ => true
  | .reply _ _ _ => true
  | .replyTo _ _ _ _ => true
  | .promise _ _ => true
  | .chopen _ _ _ _ => true
  | .chclose _ _ => true
  | .nstat _ _ _ _ => true
  | .tsub _ _ _ _ => true
  | .krel _ _ => true
  | .kheld _ _ _ => true
  | .bara _ _ => true
  | .barw _ => true
  | .bar _ _ => true
  | .mrls _ => true
  | .push _ _ _ => true
  | .pushm _ _ _ _ _ => true
  | .pop _ _ _ => true
  | .qstat _ _ _ => true
  | .tldr _ _ _ _ _ _ => true
  | .tstr _ _ _ _ _ _ => true
  | .tld _ _ _ _ => true
  | .tst _ _ _ _ => true
  | .vadd _ _ _ _ _ _ => true
  | .vaddX _ _ _ _ _ _ => true
  | .vsub _ _ _ _ _ _ => true
  | .vsubX _ _ _ _ _ _ => true
  | .vmul _ _ _ _ _ _ => true
  | .vmulX _ _ _ _ _ _ => true
  | .vmin _ _ _ _ _ _ => true
  | .vminX _ _ _ _ _ _ => true
  | .vmax _ _ _ _ _ _ => true
  | .vmaxX _ _ _ _ _ _ => true
  | .vabs _ _ _ _ _ => true
  | .vabsX _ _ _ _ _ => true
  | .vneg _ _ _ _ _ => true
  | .vnegX _ _ _ _ _ => true
  | .vand _ _ _ _ _ _ => true
  | .vandX _ _ _ _ _ _ => true
  | .vor _ _ _ _ _ _ => true
  | .vorX _ _ _ _ _ _ => true
  | .vxor _ _ _ _ _ _ => true
  | .vxorX _ _ _ _ _ _ => true
  | .vshl _ _ _ _ _ _ => true
  | .vshlX _ _ _ _ _ _ => true
  | .vshr _ _ _ _ _ _ => true
  | .vshrX _ _ _ _ _ _ => true
  | .vsra _ _ _ _ _ _ => true
  | .vsraX _ _ _ _ _ _ => true
  | .vcmpLt _ _ _ _ _ _ => true
  | .vcmpLtX _ _ _ _ _ _ => true
  | .vcmpLe _ _ _ _ _ _ => true
  | .vcmpLeX _ _ _ _ _ _ => true
  | .vcmpEq _ _ _ _ _ _ => true
  | .vcmpEqX _ _ _ _ _ _ => true
  | .vsel _ _ _ _ _ _ => true
  | .vselX _ _ _ _ _ _ => true
  | .vmov _ _ _ _ _ => true
  | .vmovX _ _ _ _ _ => true
  | .vfma _ _ _ _ _ _ => true
  | .vfmaX _ _ _ _ _ _ => true
  | .vrcp _ _ _ _ _ => true
  | .vrcpX _ _ _ _ _ => true
  | .vrsq _ _ _ _ _ => true
  | .vrsqX _ _ _ _ _ => true
  | .vrfn _ _ _ _ _ _ => true
  | .vrfnX _ _ _ _ _ _ => true
  | .vrfs _ _ _ _ _ _ => true
  | .vrfsX _ _ _ _ _ _ => true
  | .vexp2 _ _ _ _ _ => true
  | .vexp2X _ _ _ _ _ => true
  | .vlog2 _ _ _ _ _ => true
  | .vlog2X _ _ _ _ _ => true
  | .vcvt _ _ _ _ _ _ _ => true
  | .vcvtX _ _ _ _ _ _ _ => true
  | .vqnt _ _ _ _ _ _ => true
  | .vqntX _ _ _ _ _ _ => true
  | .vdq _ _ _ _ _ _ => true
  | .vdqX _ _ _ _ _ _ => true
  | .vredSum _ _ _ _ _ => true
  | .vredSumX _ _ _ _ _ => true
  | .vredMin _ _ _ _ _ => true
  | .vredMinX _ _ _ _ _ => true
  | .vredMax _ _ _ _ _ => true
  | .vredMaxX _ _ _ _ _ => true
  | .vredAmax _ _ _ _ _ => true
  | .vredAmaxX _ _ _ _ _ => true
  | .vscan _ _ _ _ _ => true
  | .vscanX _ _ _ _ _ => true
  | .vperm _ _ _ _ _ _ => true
  | .vins _ _ _ _ _ _ => true
  | .vext _ _ _ _ _ _ => true
  | .vbcast _ _ _ _ _ _ => true
  | .vneur _ _ _ _ _ _ => true
  | .mva _ _ _ _ _ => true
  | .amv _ _ _ _ _ => true
  | .trap _ _ => true
  | .sysc _ _ => true
  | .eret _ => true
  | .tlbi _ _ => true
  | .tlbiAll _ => true
  | .nlog _ _ _ => true
  | .ckpt _ _ _ _ => true
  | .ctxcQuery _ _ _ => true
  | .ctxcRdf _ _ _ => true
  | .ctxcWrf _ _ _ _ => true
  | .ctxcFrz _ _ _ => true
  | .ctxcThaw _ _ _ => true
  | .ctxcTear _ _ _ => true
  | .bfill _ _ => false
  | .badd _ _ => false
  | .baxpy _ _ => false
  | .bred _ _ => false
  | .mma _ _ => false
  | .mmz _ _ => false
  | .acrd _ _ => false
  | .acwr _ _ => false
  | .mtr _ _ => false
  | .wload _ _ => false
  | .wstore _ _ => false
  | .wstq _ _ => false
  | .wmcast _ _ => false
  | .wdeal _ _ => false
  | .wgather _ _ => false
  | .wscatter _ _ => false
  | .wfill _ _ => false
  | .signal _ _ => false
  | .illegalWord _ => false
  | .tendComplete _ => false
  | .yieldComplete _ => false
  | .stRelStoreLeaves _ _ => false
  | .caddAdditionSent _ _ => false
  | .tlnewAtCluster _ _ => false
  | .tlnewResult _ _ => false
  | .tlfreeArrival _ _ => false
  | .sendInject _ => false
  | .chopenAtTarget _ _ => false
  | .chopenResult _ _ => false
  | .tsubRecordWrite _ _ => false
  | .krelSent _ _ => false
  | .barArrivalSent _ _ => false
  | .pushEntersQueue _ _ => false
  | .vectorUnitStart _ => false
  | .rowWrite _ => false
  | .tlbiInvalidate _ _ _ _ _ => false
  | .qreqWrite _ _ => false
  | .oqcapWrite _ _ => false
  | .trapEntry _ => false
  | .watchdog _ => false
  | .translationWalk _ _ _ => false
  | .bankLoad _ => false
  | .bankStore _ => false
  | .rowLoadRequest _ => false
  | .rowStoreRequest _ => false
  | .scaleSlotWrite _ => false
  | .amoAtBank _ => false
  | .casAtBank _ => false
  | .counterAddAtBank _ => false
  | .daddAtBank _ => false
  | .dsealAtBank _ => false
  | .loadResponse _ => false
  | .storeAck _ => false
  | .rowLoadResponse _ => false
  | .flitInject _ => false
  | .flitArrival _ => false
  | .receiptArrival _ _ => false
  | .nakArrival _ _ _ => false
  | .injectionStop _ => false
  | .throttleWindow _ => false
  | .bulkDeferExpiry _ _ => false
  | .overflowWrite _ => false
  | .recall _ _ => false
  | .ovminRecomputeDone _ _ => false
  | .linkReplay _ _ _ => false
  | .retrainEnd _ _ => false
  | .pcieCompletionTimeout _ => false
  | .promiseArrival _ _ _ _ => false
  | .transit _ _ => false
  | .promiseSend _ _ => false
  | .askSend _ _ => false
  | .askArrival _ _ => false
  | .tokenStart _ => false
  | .surveyVisit _ => false
  | .survstall _ => false
  | .eventArrival _ _ _ _ _ _ => false
  | .taskEntry _ => false
  | .deskKreq _ _ _ _ _ => false
  | .kgrantArrival _ _ _ => false
  | .krefuseArrival _ _ _ => false
  | .keyRetry _ _ => false
  | .deskKrel _ _ _ _ _ => false
  | .deskKcancel _ _ _ _ _ => false
  | .krunAtDesk _ _ _ _ _ => false
  | .kqueryAtDesk _ _ => false
  | .kstatArrival _ _ => false
  | .wregAtSlice _ _ _ => false
  | .wmetArrival _ _ _ => false
  | .wrefuseArrival _ _ _ => false
  | .watchPoll _ _ _ => false
  | .wcancelAtSlice _ _ _ _ => false
  | .dwait _ _ => false
  | .dispatch _ => false
  | .priorityPromotion _ _ => false
  | .quadHoldRequest _ _ => false
  | .quadGangStart _ => false
  | .barrierArrival _ => false
  | .barrierExit _ => false
  | .barrierWake _ => false
  | .slwinWrite _ => false
  | .slwinSwitchDone _ _ => false
  | .slcolsWrite _ => false
  | .slcolsSwitch _ => false
  | .patrolScrub _ _ => false
  | .leaseGrant _ => false
  | .releaseMarkerHead _ => false
  | .waithRecheck _ _ => false
  | .engineCommandComplete _ _ _ => false
  | .sighAnswer _ _ _ => false
  | .scalingExchange _ _ => false
  | .mcastTransfer _ => false
  | .drainAddition _ _ => false
  | .freezeGraceEnd _ => false
  | .freezeDone _ => false
  | .thawDone _ => false
  | .pagePreserve _ _ => false
  | .archiveStart _ => false
  | .archivePage _ _ => false
  | .checkpointComplete _ => false
  | .nlctlWrite _ => false
  | .lnkstWrite _ => false
  | .cnrectWrite _ => false
  | .cnctlFence _ _ => false
  | .cnctlReset _ => false
  | .containmentResetDone _ => false
  | .registerWrite _ _ => false
  | .hostPostWrite _ _ _ _ => false
  | .hostPromise _ _ _ _ => false
  | .hostReplyWrite _ => false
  | .rrheadWrite _ _ => false
  | .vfbindWrite _ _ => false
  | .domidWrite _ => false
  | .firmwareRequestTake _ => false
  | .reductionDescriptorWrite _ => false
  | .reductionContribution _ _ _ _ _ _ => false
  | .fabricFrameArrival _ _ => false
  | .thermalTrip => false
  | .thermalRecover => false
  | .perstRelease => false
  | .contextCreate _ _ => false
  | .pcieCompletionArrival _ _ => false

/-- The core word stored little-endian at four bytes, the first at the lowest address (R24, R3). -/
def wordBytes (x : BitVec 32) : List (BitVec 8) :=
  [x.extractLsb' 0 8, x.extractLsb' 8 8, x.extractLsb' 16 8, x.extractLsb' 24 8]

/-- The core word in the first four of these bytes (R24, R3). -/
def bytesWord : List (BitVec 8) → Option (BitVec 32)
  | b0 :: b1 :: b2 :: b3 :: _ => some (b3 ++ b2 ++ b1 ++ b0)
  | _ => none

/-- The instruction the decoder reads from the first bytes of a program. -/
def decodeBytes (bs : List (BitVec 8)) : Option Instr :=
  match bytesWord bs with
  | none => none
  | some x => match decode x with
    | .ok i => some i
    | .error _ => none

/-- The decoder on an instruction numbered as the opcode table numbers its bits: every core word is one
32-bit word, laid out in its byte order and given to the decoder; a command is 256 bits (R40). -/
def decodeTableWord (nbits w : Nat) : Option Instr :=
  if nbits ≤ 32 then decodeBytes (wordBytes (BitVec.ofNat 32 (w % 2 ^ nbits)))
  else decodeCommand 0 (BitVec.ofNat 256 (w % 2 ^ nbits))

end Sys2Proof
end

