-- ==== Sys2Proof/Machine/Words.lean ====
section
/-! DEFINITION. What the front end of a core asks of every word: the wait marker, the privilege, the issue interval
(R24, R30, R35, R85, R361). -/

namespace Sys2Proof.Machine

open Sys2Proof

/-- The wait marker W of a core word (R30). -/
def waits : Instr → Bool
  | .add w _ _ _ => w
  | .sub w _ _ _ => w
  | .mul w _ _ _ => w
  | .mulh w _ _ _ => w
  | .mulhu w _ _ _ => w
  | .div w _ _ _ => w
  | .divu w _ _ _ => w
  | .rem w _ _ _ => w
  | .remu w _ _ _ => w
  | .and w _ _ _ => w
  | .or w _ _ _ => w
  | .xor w _ _ _ => w
  | .andn w _ _ _ => w
  | .orn w _ _ _ => w
  | .sll w _ _ _ => w
  | .srl w _ _ _ => w
  | .sra w _ _ _ => w
  | .rol w _ _ _ => w
  | .min w _ _ _ => w
  | .max w _ _ _ => w
  | .minu w _ _ _ => w
  | .maxu w _ _ _ => w
  | .slt w _ _ _ => w
  | .sltu w _ _ _ => w
  | .seq w _ _ _ => w
  | .clz w _ _ => w
  | .ctz w _ _ => w
  | .popc w _ _ => w
  | .sel w _ _ _ _ => w
  | .ext w _ _ _ _ => w
  | .exts w _ _ _ _ => w
  | .ins w _ _ _ _ => w
  | .addi w _ _ _ => w
  | .andi w _ _ _ => w
  | .ori w _ _ _ => w
  | .xori w _ _ _ => w
  | .slli w _ _ _ => w
  | .srli w _ _ _ => w
  | .srai w _ _ _ => w
  | .slti w _ _ _ => w
  | .sltiu w _ _ _ => w
  | .lui w _ _ => w
  | .auipc w _ _ => w
  | .fadd w _ _ _ _ => w
  | .fsub w _ _ _ _ => w
  | .fmul w _ _ _ _ => w
  | .fmin w _ _ _ _ => w
  | .fmax w _ _ _ _ => w
  | .fdiv w _ _ _ _ => w
  | .fsqrt w _ _ _ => w
  | .fcmpLt w _ _ _ _ => w
  | .fcmpLe w _ _ _ _ => w
  | .fcmpEq w _ _ _ _ => w
  | .fclass w _ _ _ => w
  | .fma w _ _ _ _ _ => w
  | .fcvt w _ _ _ _ _ => w
  | .beq w _ _ _ => w
  | .bne w _ _ _ => w
  | .blt w _ _ _ => w
  | .bge w _ _ _ => w
  | .bltu w _ _ _ => w
  | .bgeu w _ _ _ => w
  | .j w _ => w
  | .jal w _ => w
  | .jalr w _ _ _ => w
  | .tend w _ _ => w
  | .yield w _ => w
  | .csrr w _ _ => w
  | .csrw w _ _ _ => w
  | .csrs w _ _ _ => w
  | .csrc w _ _ _ => w
  | .ldB w _ _ _ => w
  | .ldBz w _ _ _ => w
  | .ldH w _ _ _ => w
  | .ldHz w _ _ _ => w
  | .ldW w _ _ _ => w
  | .ldWz w _ _ _ => w
  | .ldD w _ _ _ => w
  | .stB w _ _ _ => w
  | .stH w _ _ _ => w
  | .stW w _ _ _ => w
  | .stD w _ _ _ => w
  | .ldAcq w _ _ _ _ => w
  | .stRel w _ _ _ _ => w
  | .fenceFull w _ => w
  | .fenceAcq w _ => w
  | .fenceRel w _ => w
  | .amoAdd w _ _ _ _ => w
  | .amoAnd w _ _ _ _ => w
  | .amoOr w _ _ _ _ => w
  | .amoXor w _ _ _ _ => w
  | .amoMin w _ _ _ _ => w
  | .amoMax w _ _ _ _ => w
  | .amoMinu w _ _ _ _ => w
  | .amoMaxu w _ _ _ _ => w
  | .amoSwap w _ _ _ _ => w
  | .amoFaddF32 w _ _ _ => w
  | .amoFaddBf16 w _ _ _ => w
  | .amoFmaxF32 w _ _ _ => w
  | .casI64 w _ _ _ _ => w
  | .casI32 w _ _ _ _ => w
  | .dadd w _ _ _ _ => w
  | .cadd w _ _ _ _ => w
  | .dseal w _ _ => w
  | .tlnew w _ _ _ => w
  | .tlfree w _ => w
  | .send w _ _ _ _ => w
  | .post w _ _ _ => w
  | .reply w _ _ => w
  | .replyTo w _ _ _ => w
  | .promise w _ => w
  | .chopen w _ _ _ => w
  | .chclose w _ => w
  | .nstat w _ _ _ => w
  | .tsub w _ _ _ => w
  | .krel w _ => w
  | .kheld w _ _ => w
  | .bara w _ => w
  | .barw w => w
  | .bar w _ => w
  | .mrls w => w
  | .push w _ _ => w
  | .pushm w _ _ _ _ => w
  | .pop w _ _ => w
  | .qstat w _ _ => w
  | .tldr w _ _ _ _ _ => w
  | .tstr w _ _ _ _ _ => w
  | .tld w _ _ _ => w
  | .tst w _ _ _ => w
  | .vadd w _ _ _ _ _ => w
  | .vaddX w _ _ _ _ _ => w
  | .vsub w _ _ _ _ _ => w
  | .vsubX w _ _ _ _ _ => w
  | .vmul w _ _ _ _ _ => w
  | .vmulX w _ _ _ _ _ => w
  | .vmin w _ _ _ _ _ => w
  | .vminX w _ _ _ _ _ => w
  | .vmax w _ _ _ _ _ => w
  | .vmaxX w _ _ _ _ _ => w
  | .vabs w _ _ _ _ => w
  | .vabsX w _ _ _ _ => w
  | .vneg w _ _ _ _ => w
  | .vnegX w _ _ _ _ => w
  | .vand w _ _ _ _ _ => w
  | .vandX w _ _ _ _ _ => w
  | .vor w _ _ _ _ _ => w
  | .vorX w _ _ _ _ _ => w
  | .vxor w _ _ _ _ _ => w
  | .vxorX w _ _ _ _ _ => w
  | .vshl w _ _ _ _ _ => w
  | .vshlX w _ _ _ _ _ => w
  | .vshr w _ _ _ _ _ => w
  | .vshrX w _ _ _ _ _ => w
  | .vsra w _ _ _ _ _ => w
  | .vsraX w _ _ _ _ _ => w
  | .vcmpLt w _ _ _ _ _ => w
  | .vcmpLtX w _ _ _ _ _ => w
  | .vcmpLe w _ _ _ _ _ => w
  | .vcmpLeX w _ _ _ _ _ => w
  | .vcmpEq w _ _ _ _ _ => w
  | .vcmpEqX w _ _ _ _ _ => w
  | .vsel w _ _ _ _ _ => w
  | .vselX w _ _ _ _ _ => w
  | .vmov w _ _ _ _ => w
  | .vmovX w _ _ _ _ => w
  | .vfma w _ _ _ _ _ => w
  | .vfmaX w _ _ _ _ _ => w
  | .vrcp w _ _ _ _ => w
  | .vrcpX w _ _ _ _ => w
  | .vrsq w _ _ _ _ => w
  | .vrsqX w _ _ _ _ => w
  | .vrfn w _ _ _ _ _ => w
  | .vrfnX w _ _ _ _ _ => w
  | .vrfs w _ _ _ _ _ => w
  | .vrfsX w _ _ _ _ _ => w
  | .vexp2 w _ _ _ _ => w
  | .vexp2X w _ _ _ _ => w
  | .vlog2 w _ _ _ _ => w
  | .vlog2X w _ _ _ _ => w
  | .vcvt w _ _ _ _ _ _ => w
  | .vcvtX w _ _ _ _ _ _ => w
  | .vqnt w _ _ _ _ _ => w
  | .vqntX w _ _ _ _ _ => w
  | .vdq w _ _ _ _ _ => w
  | .vdqX w _ _ _ _ _ => w
  | .vredSum w _ _ _ _ => w
  | .vredSumX w _ _ _ _ => w
  | .vredMin w _ _ _ _ => w
  | .vredMinX w _ _ _ _ => w
  | .vredMax w _ _ _ _ => w
  | .vredMaxX w _ _ _ _ => w
  | .vredAmax w _ _ _ _ => w
  | .vredAmaxX w _ _ _ _ => w
  | .vscan w _ _ _ _ => w
  | .vscanX w _ _ _ _ => w
  | .vperm w _ _ _ _ _ => w
  | .vins w _ _ _ _ _ => w
  | .vext w _ _ _ _ _ => w
  | .vbcast w _ _ _ _ _ => w
  | .vneur w _ _ _ _ _ => w
  | .mva w _ _ _ _ => w
  | .amv w _ _ _ _ => w
  | .trap w _ => w
  | .sysc w _ => w
  | .eret w => w
  | .tlbi w _ => w
  | .tlbiAll w => w
  | .nlog w _ _ => w
  | .ckpt w _ _ _ => w
  | .ctxcQuery w _ _ => w
  | .ctxcRdf w _ _ => w
  | .ctxcWrf w _ _ _ => w
  | .ctxcFrz w _ _ => w
  | .ctxcThaw w _ _ => w
  | .ctxcTear w _ _ => w
  | .bfill _ _ => false
  | .badd _ _ => false
  | .baxpy _ _ => false
  | .bred _ _ => false
  | .mma _ _ => false
  | .mmz _ _ => false
  | .acrd _ _ => false
  | .acwr _ _ => false
  | .mtr _ _ => false
  | .wload _ _ => false
  | .wstore _ _ => false
  | .wstq _ _ => false
  | .wmcast _ _ => false
  | .wdeal _ _ => false
  | .wgather _ _ => false
  | .wscatter _ _ => false
  | .wfill _ _ => false
  | .signal _ _ => false
  | .illegalWord _ => false
  | .tendComplete _ => false
  | .yieldComplete _ => false
  | .stRelStoreLeaves _ _ => false
  | .caddAdditionSent _ _ => false
  | .tlnewAtCluster _ _ => false
  | .tlnewResult _ _ => false
  | .tlfreeArrival _ _ => false
  | .sendInject _ => false
  | .chopenAtTarget _ _ => false
  | .chopenResult _ _ => false
  | .tsubRecordWrite _ _ => false
  | .krelSent _ _ => false
  | .barArrivalSent _ _ => false
  | .pushEntersQueue _ _ => false
  | .vectorUnitStart _ => false
  | .rowWrite _ => false
  | .tlbiInvalidate _ _ _ _ _ => false
  | .qreqWrite _ _ => false
  | .oqcapWrite _ _ => false
  | .trapEntry _ => false
  | .watchdog _ => false
  | .translationWalk _ _ _ => false
  | .bankLoad _ => false
  | .bankStore _ => false
  | .rowLoadRequest _ => false
  | .rowStoreRequest _ => false
  | .scaleSlotWrite _ => false
  | .amoAtBank _ => false
  | .casAtBank _ => false
  | .counterAddAtBank _ => false
  | .daddAtBank _ => false
  | .dsealAtBank _ => false
  | .loadResponse _ => false
  | .storeAck _ => false
  | .rowLoadResponse _ => false
  | .flitInject _ => false
  | .flitArrival _ => false
  | .receiptArrival _ _ => false
  | .nakArrival _ _ _ => false
  | .injectionStop _ => false
  | .throttleWindow _ => false
  | .bulkDeferExpiry _ _ => false
  | .overflowWrite _ => false
  | .recall _ _ => false
  | .ovminRecomputeDone _ _ => false
  | .linkReplay _ _ _ => false
  | .retrainEnd _ _ => false
  | .pcieCompletionTimeout _ => false
  | .promiseArrival _ _ _ _ => false
  | .transit _ _ => false
  | .promiseSend _ _ => false
  | .askSend _ _ => false
  | .askArrival _ _ => false
  | .tokenStart _ => false
  | .surveyVisit _ => false
  | .survstall _ => false
  | .eventArrival _ _ _ _ _ _ => false
  | .taskEntry _ => false
  | .deskKreq _ _ _ _ _ => false
  | .kgrantArrival _ _ _ => false
  | .krefuseArrival _ _ _ => false
  | .keyRetry _ _ => false
  | .deskKrel _ _ _ _ _ => false
  | .deskKcancel _ _ _ _ _ => false
  | .krunAtDesk _ _ _ _ _ => false
  | .kqueryAtDesk _ _ => false
  | .kstatArrival _ _ => false
  | .wregAtSlice _ _ _ => false
  | .wmetArrival _ _ _ => false
  | .wrefuseArrival _ _ _ => false
  | .watchPoll _ _ _ => false
  | .wcancelAtSlice _ _ _ _ => false
  | .dwait _ _ => false
  | .dispatch _ => false
  | .priorityPromotion _ _ => false
  | .quadHoldRequest _ _ => false
  | .quadGangStart _ => false
  | .barrierArrival _ => false
  | .barrierExit _ => false
  | .barrierWake _ => false
  | .slwinWrite _ => false
  | .slwinSwitchDone _ _ => false
  | .slcolsWrite _ => false
  | .slcolsSwitch _ => false
  | .patrolScrub _ _ => false
  | .leaseGrant _ => false
  | .releaseMarkerHead _ => false
  | .waithRecheck _ _ => false
  | .engineCommandComplete _ _ _ => false
  | .sighAnswer _ _ _ => false
  | .scalingExchange _ _ => false
  | .mcastTransfer _ => false
  | .drainAddition _ _ => false
  | .freezeGraceEnd _ => false
  | .freezeDone _ => false
  | .thawDone _ => false
  | .pagePreserve _ _ => false
  | .archiveStart _ => false
  | .archivePage _ _ => false
  | .checkpointComplete _ => false
  | .nlctlWrite _ => false
  | .lnkstWrite _ => false
  | .cnrectWrite _ => false
  | .cnctlFence _ _ => false
  | .cnctlReset _ => false
  | .containmentResetDone _ => false
  | .registerWrite _ _ => false
  | .hostPostWrite _ _ _ _ => false
  | .hostPromise _ _ _ _ => false
  | .hostReplyWrite _ => false
  | .rrheadWrite _ _ => false
  | .vfbindWrite _ _ => false
  | .domidWrite _ => false
  | .firmwareRequestTake _ => false
  | .reductionDescriptorWrite _ => false
  | .reductionContribution _ _ _ _ _ _ => false
  | .fabricFrameArrival _ _ => false
  | .thermalTrip => false
  | .thermalRecover => false
  | .perstRelease => false
  | .contextCreate _ _ => false
  | .pcieCompletionArrival _ _ => false

/-- The least mode a word needs (R361): a word used below it traps PRIV. -/
def needs : Instr → Mode
  | .add _ _ _ _ => .task
  | .sub _ _ _ _ => .task
  | .mul _ _ _ _ => .task
  | .mulh _ _ _ _ => .task
  | .mulhu _ _ _ _ => .task
  | .div _ _ _ _ => .task
  | .divu _ _ _ _ => .task
  | .rem _ _ _ _ => .task
  | .remu _ _ _ _ => .task
  | .and _ _ _ _ => .task
  | .or _ _ _ _ => .task
  | .xor _ _ _ _ => .task
  | .andn _ _ _ _ => .task
  | .orn _ _ _ _ => .task
  | .sll _ _ _ _ => .task
  | .srl _ _ _ _ => .task
  | .sra _ _ _ _ => .task
  | .rol _ _ _ _ => .task
  | .min _ _ _ _ => .task
  | .max _ _ _ _ => .task
  | .minu _ _ _ _ => .task
  | .maxu _ _ _ _ => .task
  | .slt _ _ _ _ => .task
  | .sltu _ _ _ _ => .task
  | .seq _ _ _ _ => .task
  | .clz _ _ _ => .task
  | .ctz _ _ _ => .task
  | .popc _ _ _ => .task
  | .sel _ _ _ _ _ => .task
  | .ext _ _ _ _ _ => .task
  | .exts _ _ _ _ _ => .task
  | .ins _ _ _ _ _ => .task
  | .addi _ _ _ _ => .task
  | .andi _ _ _ _ => .task
  | .ori _ _ _ _ => .task
  | .xori _ _ _ _ => .task
  | .slli _ _ _ _ => .task
  | .srli _ _ _ _ => .task
  | .srai _ _ _ _ => .task
  | .slti _ _ _ _ => .task
  | .sltiu _ _ _ _ => .task
  | .lui _ _ _ => .task
  | .auipc _ _ _ => .task
  | .fadd _ _ _ _ _ => .task
  | .fsub _ _ _ _ _ => .task
  | .fmul _ _ _ _ _ => .task
  | .fmin _ _ _ _ _ => .task
  | .fmax _ _ _ _ _ => .task
  | .fdiv _ _ _ _ _ => .task
  | .fsqrt _ _ _ _ => .task
  | .fcmpLt _ _ _ _ _ => .task
  | .fcmpLe _ _ _ _ _ => .task
  | .fcmpEq _ _ _ _ _ => .task
  | .fclass _ _ _ _ => .task
  | .fma _ _ _ _ _ _ => .task
  | .fcvt _ _ _ _ _ _ => .task
  | .beq _ _ _ _ => .task
  | .bne _ _ _ _ => .task
  | .blt _ _ _ _ => .task
  | .bge _ _ _ _ => .task
  | .bltu _ _ _ _ => .task
  | .bgeu _ _ _ _ => .task
  | .j _ _ => .task
  | .jal _ _ => .task
  | .jalr _ _ _ _ => .task
  | .tend _ _ _ => .task
  | .yield _ _ => .task
  | .csrr _ _ _ => .task
  | .csrw _ _ _ _ => .task
  | .csrs _ _ _ _ => .task
  | .csrc _ _ _ _ => .task
  | .ldB _ _ _ _ => .task
  | .ldBz _ _ _ _ => .task
  | .ldH _ _ _ _ => .task
  | .ldHz _ _ _ _ => .task
  | .ldW _ _ _ _ => .task
  | .ldWz _ _ _ _ => .task
  | .ldD _ _ _ _ => .task
  | .stB _ _ _ _ => .task
  | .stH _ _ _ _ => .task
  | .stW _ _ _ _ => .task
  | .stD _ _ _ _ => .task
  | .ldAcq _ _ _ _ _ => .task
  | .stRel _ _ _ _ _ => .task
  | .fenceFull _ _ => .task
  | .fenceAcq _ _ => .task
  | .fenceRel _ _ => .task
  | .amoAdd _ _ _ _ _ => .task
  | .amoAnd _ _ _ _ _ => .task
  | .amoOr _ _ _ _ _ => .task
  | .amoXor _ _ _ _ _ => .task
  | .amoMin _ _ _ _ _ => .task
  | .amoMax _ _ _ _ _ => .task
  | .amoMinu _ _ _ _ _ => .task
  | .amoMaxu _ _ _ _ _ => .task
  | .amoSwap _ _ _ _ _ => .task
  | .amoFaddF32 _ _ _ _ => .task
  | .amoFaddBf16 _ _ _ _ => .task
  | .amoFmaxF32 _ _ _ _ => .task
  | .casI64 _ _ _ _ _ => .task
  | .casI32 _ _ _ _ _ => .task
  | .dadd _ _ _ _ _ => .task
  | .cadd _ _ _ _ _ => .task
  | .dseal _ _ _ => .task
  | .tlnew _ _ _ _ => .task
  | .tlfree _ _ => .task
  | .send _ _ _ _ _ => .task
  | .post _ _ _ _ => .task
  | .reply _ _ _ => .task
  | .replyTo _ _ _ _ => .task
  | .promise _ _ => .task
  | .chopen _ _ _ _ => .task
  | .chclose _ _ => .task
  | .nstat _ _ _ _ => .task
  | .tsub _ _ _ _ => .task
  | .krel _ _ => .task
  | .kheld _ _ _ => .task
  | .bara _ _ => .task
  | .barw _ => .task
  | .bar _ _ => .task
  | .mrls _ => .task
  | .push _ _ _ => .task
  | .pushm _ _ _ _ _ => .task
  | .pop _ _ _ => .task
  | .qstat _ _ _ => .task
  | .tldr _ _ _ _ _ _ => .task
  | .tstr _ _ _ _ _ _ => .task
  | .tld _ _ _ _ => .task
  | .tst _ _ _ _ => .task
  | .vadd _ _ _ _ _ _ => .task
  | .vaddX _ _ _ _ _ _ => .task
  | .vsub _ _ _ _ _ _ => .task
  | .vsubX _ _ _ _ _ _ => .task
  | .vmul _ _ _ _ _ _ => .task
  | .vmulX _ _ _ _ _ _ => .task
  | .vmin _ _ _ _ _ _ => .task
  | .vminX _ _ _ _ _ _ => .task
  | .vmax _ _ _ _ _ _ => .task
  | .vmaxX _ _ _ _ _ _ => .task
  | .vabs _ _ _ _ _ => .task
  | .vabsX _ _ _ _ _ => .task
  | .vneg _ _ _ _ _ => .task
  | .vnegX _ _ _ _ _ => .task
  | .vand _ _ _ _ _ _ => .task
  | .vandX _ _ _ _ _ _ => .task
  | .vor _ _ _ _ _ _ => .task
  | .vorX _ _ _ _ _ _ => .task
  | .vxor _ _ _ _ _ _ => .task
  | .vxorX _ _ _ _ _ _ => .task
  | .vshl _ _ _ _ _ _ => .task
  | .vshlX _ _ _ _ _ _ => .task
  | .vshr _ _ _ _ _ _ => .task
  | .vshrX _ _ _ _ _ _ => .task
  | .vsra _ _ _ _ _ _ => .task
  | .vsraX _ _ _ _ _ _ => .task
  | .vcmpLt _ _ _ _ _ _ => .task
  | .vcmpLtX _ _ _ _ _ _ => .task
  | .vcmpLe _ _ _ _ _ _ => .task
  | .vcmpLeX _ _ _ _ _ _ => .task
  | .vcmpEq _ _ _ _ _ _ => .task
  | .vcmpEqX _ _ _ _ _ _ => .task
  | .vsel _ _ _ _ _ _ => .task
  | .vselX _ _ _ _ _ _ => .task
  | .vmov _ _ _ _ _ => .task
  | .vmovX _ _ _ _ _ => .task
  | .vfma _ _ _ _ _ _ => .task
  | .vfmaX _ _ _ _ _ _ => .task
  | .vrcp _ _ _ _ _ => .task
  | .vrcpX _ _ _ _ _ => .task
  | .vrsq _ _ _ _ _ => .task
  | .vrsqX _ _ _ _ _ => .task
  | .vrfn _ _ _ _ _ _ => .task
  | .vrfnX _ _ _ _ _ _ => .task
  | .vrfs _ _ _ _ _ _ => .task
  | .vrfsX _ _ _ _ _ _ => .task
  | .vexp2 _ _ _ _ _ => .task
  | .vexp2X _ _ _ _ _ => .task
  | .vlog2 _ _ _ _ _ => .task
  | .vlog2X _ _ _ _ _ => .task
  | .vcvt _ _ _ _ _ _ _ => .task
  | .vcvtX _ _ _ _ _ _ _ => .task
  | .vqnt _ _ _ _ _ _ => .task
  | .vqntX _ _ _ _ _ _ => .task
  | .vdq _ _ _ _ _ _ => .task
  | .vdqX _ _ _ _ _ _ => .task
  | .vredSum _ _ _ _ _ => .task
  | .vredSumX _ _ _ _ _ => .task
  | .vredMin _ _ _ _ _ => .task
  | .vredMinX _ _ _ _ _ => .task
  | .vredMax _ _ _ _ _ => .task
  | .vredMaxX _ _ _ _ _ => .task
  | .vredAmax _ _ _ _ _ => .task
  | .vredAmaxX _ _ _ _ _ => .task
  | .vscan _ _ _ _ _ => .task
  | .vscanX _ _ _ _ _ => .task
  | .vperm _ _ _ _ _ _ => .task
  | .vins _ _ _ _ _ _ => .task
  | .vext _ _ _ _ _ _ => .task
  | .vbcast _ _ _ _ _ _ => .task
  | .vneur _ _ _ _ _ _ => .task
  | .mva _ _ _ _ _ => .task
  | .amv _ _ _ _ _ => .task
  | .trap _ _ => .task
  | .sysc _ _ => .task
  | .eret _ => .supervisor
  | .tlbi _ _ => .supervisor
  | .tlbiAll _ => .supervisor
  | .nlog _ _ _ => .supervisor
  | .ckpt _ _ _ _ => .supervisor
  | .ctxcQuery _ _ _ => .supervisor
  | .ctxcRdf _ _ _ => .supervisor
  | .ctxcWrf _ _ _ _ => .supervisor
  | .ctxcFrz _ _ _ => .firmware
  | .ctxcThaw _ _ _ => .firmware
  | .ctxcTear _ _ _ => .firmware
  | .bfill _ _ => .task
  | .badd _ _ => .task
  | .baxpy _ _ => .task
  | .bred _ _ => .task
  | .mma _ _ => .task
  | .mmz _ _ => .task
  | .acrd _ _ => .task
  | .acwr _ _ => .task
  | .mtr _ _ => .task
  | .wload _ _ => .task
  | .wstore _ _ => .task
  | .wstq _ _ => .task
  | .wmcast _ _ => .task
  | .wdeal _ _ => .task
  | .wgather _ _ => .task
  | .wscatter _ _ => .task
  | .wfill _ _ => .task
  | .signal _ _ => .task
  | .illegalWord _ => .task
  | .tendComplete _ => .task
  | .yieldComplete _ => .task
  | .stRelStoreLeaves _ _ => .task
  | .caddAdditionSent _ _ => .task
  | .tlnewAtCluster _ _ => .task
  | .tlnewResult _ _ => .task
  | .tlfreeArrival _ _ => .task
  | .sendInject _ => .task
  | .chopenAtTarget _ _ => .task
  | .chopenResult _ _ => .task
  | .tsubRecordWrite _ _ => .task
  | .krelSent _ _ => .task
  | .barArrivalSent _ _ => .task
  | .pushEntersQueue _ _ => .task
  | .vectorUnitStart _ => .task
  | .rowWrite _ => .task
  | .tlbiInvalidate _ _ _ _ _ => .task
  | .qreqWrite _ _ => .task
  | .oqcapWrite _ _ => .task
  | .trapEntry _ => .task
  | .watchdog _ => .task
  | .translationWalk _ _ _ => .task
  | .bankLoad _ => .task
  | .bankStore _ => .task
  | .rowLoadRequest _ => .task
  | .rowStoreRequest _ => .task
  | .scaleSlotWrite _ => .task
  | .amoAtBank _ => .task
  | .casAtBank _ => .task
  | .counterAddAtBank _ => .task
  | .daddAtBank _ => .task
  | .dsealAtBank _ => .task
  | .loadResponse _ => .task
  | .storeAck _ => .task
  | .rowLoadResponse _ => .task
  | .flitInject _ => .task
  | .flitArrival _ => .task
  | .receiptArrival _ _ => .task
  | .nakArrival _ _ _ => .task
  | .injectionStop _ => .task
  | .throttleWindow _ => .task
  | .bulkDeferExpiry _ _ => .task
  | .overflowWrite _ => .task
  | .recall _ _ => .task
  | .ovminRecomputeDone _ _ => .task
  | .linkReplay _ _ _ => .task
  | .retrainEnd _ _ => .task
  | .pcieCompletionTimeout _ => .task
  | .promiseArrival _ _ _ _ => .task
  | .transit _ _ => .task
  | .promiseSend _ _ => .task
  | .askSend _ _ => .task
  | .askArrival _ _ => .task
  | .tokenStart _ => .task
  | .surveyVisit _ => .task
  | .survstall _ => .task
  | .eventArrival _ _ _ _ _ _ => .task
  | .taskEntry _ => .task
  | .deskKreq _ _ _ _ _ => .task
  | .kgrantArrival _ _ _ => .task
  | .krefuseArrival _ _ _ => .task
  | .keyRetry _ _ => .task
  | .deskKrel _ _ _ _ _ => .task
  | .deskKcancel _ _ _ _ _ => .task
  | .krunAtDesk _ _ _ _ _ => .task
  | .kqueryAtDesk _ _ => .task
  | .kstatArrival _ _ => .task
  | .wregAtSlice _ _ _ => .task
  | .wmetArrival _ _ _ => .task
  | .wrefuseArrival _ _ _ => .task
  | .watchPoll _ _ _ => .task
  | .wcancelAtSlice _ _ _ _ => .task
  | .dwait _ _ => .task
  | .dispatch _ => .task
  | .priorityPromotion _ _ => .task
  | .quadHoldRequest _ _ => .task
  | .quadGangStart _ => .task
  | .barrierArrival _ => .task
  | .barrierExit _ => .task
  | .barrierWake _ => .task
  | .slwinWrite _ => .task
  | .slwinSwitchDone _ _ => .task
  | .slcolsWrite _ => .task
  | .slcolsSwitch _ => .task
  | .patrolScrub _ _ => .task
  | .leaseGrant _ => .task
  | .releaseMarkerHead _ => .task
  | .waithRecheck _ _ => .task
  | .engineCommandComplete _ _ _ => .task
  | .sighAnswer _ _ _ => .task
  | .scalingExchange _ _ => .task
  | .mcastTransfer _ => .task
  | .drainAddition _ _ => .task
  | .freezeGraceEnd _ => .task
  | .freezeDone _ => .task
  | .thawDone _ => .task
  | .pagePreserve _ _ => .task
  | .archiveStart _ => .task
  | .archivePage _ _ => .task
  | .checkpointComplete _ => .task
  | .nlctlWrite _ => .task
  | .lnkstWrite _ => .task
  | .cnrectWrite _ => .task
  | .cnctlFence _ _ => .task
  | .cnctlReset _ => .task
  | .containmentResetDone _ => .task
  | .registerWrite _ _ => .task
  | .hostPostWrite _ _ _ _ => .task
  | .hostPromise _ _ _ _ => .task
  | .hostReplyWrite _ => .task
  | .rrheadWrite _ _ => .task
  | .vfbindWrite _ _ => .task
  | .domidWrite _ => .task
  | .firmwareRequestTake _ => .task
  | .reductionDescriptorWrite _ => .task
  | .reductionContribution _ _ _ _ _ _ => .task
  | .fabricFrameArrival _ _ => .task
  | .thermalTrip => .task
  | .thermalRecover => .task
  | .perstRelease => .task
  | .contextCreate _ _ => .task
  | .pcieCompletionArrival _ _ => .task

/-- The issue interval in cycles (R85, and the entries of the other chapters); a taken branch adds its own. -/
def interval : Instr → Nat
  | .add _ _ _ _ => 1
  | .sub _ _ _ _ => 1
  | .mul _ _ _ _ => 3
  | .mulh _ _ _ _ => 3
  | .mulhu _ _ _ _ => 3
  | .div _ _ _ _ => 34
  | .divu _ _ _ _ => 34
  | .rem _ _ _ _ => 34
  | .remu _ _ _ _ => 34
  | .and _ _ _ _ => 1
  | .or _ _ _ _ => 1
  | .xor _ _ _ _ => 1
  | .andn _ _ _ _ => 1
  | .orn _ _ _ _ => 1
  | .sll _ _ _ _ => 1
  | .srl _ _ _ _ => 1
  | .sra _ _ _ _ => 1
  | .rol _ _ _ _ => 1
  | .min _ _ _ _ => 1
  | .max _ _ _ _ => 1
  | .minu _ _ _ _ => 1
  | .maxu _ _ _ _ => 1
  | .slt _ _ _ _ => 1
  | .sltu _ _ _ _ => 1
  | .seq _ _ _ _ => 1
  | .clz _ _ _ => 1
  | .ctz _ _ _ => 1
  | .popc _ _ _ => 1
  | .sel _ _ _ _ _ => 1
  | .ext _ _ _ _ _ => 1
  | .exts _ _ _ _ _ => 1
  | .ins _ _ _ _ _ => 1
  | .addi _ _ _ _ => 1
  | .andi _ _ _ _ => 1
  | .ori _ _ _ _ => 1
  | .xori _ _ _ _ => 1
  | .slli _ _ _ _ => 1
  | .srli _ _ _ _ => 1
  | .srai _ _ _ _ => 1
  | .slti _ _ _ _ => 1
  | .sltiu _ _ _ _ => 1
  | .lui _ _ _ => 1
  | .auipc _ _ _ => 1
  | .fadd _ _ _ _ _ => 4
  | .fsub _ _ _ _ _ => 4
  | .fmul _ _ _ _ _ => 4
  | .fmin _ _ _ _ _ => 4
  | .fmax _ _ _ _ _ => 4
  | .fdiv _ _ _ _ y => if y = 1 then 20 else 12
  | .fsqrt _ _ _ y => if y = 1 then 24 else 14
  | .fcmpLt _ _ _ _ _ => 4
  | .fcmpLe _ _ _ _ _ => 4
  | .fcmpEq _ _ _ _ _ => 4
  | .fclass _ _ _ _ => 4
  | .fma _ _ _ _ _ _ => 4
  | .fcvt _ _ _ _ _ _ => 4
  | .beq _ _ _ _ => 1
  | .bne _ _ _ _ => 1
  | .blt _ _ _ _ => 1
  | .bge _ _ _ _ => 1
  | .bltu _ _ _ _ => 1
  | .bgeu _ _ _ _ => 1
  | .j _ _ => 3
  | .jal _ _ => 3
  | .jalr _ _ _ _ => 3
  | .tend _ _ _ => 1
  | .yield _ _ => 1
  | .csrr _ _ _ => 1
  | .csrw _ _ _ _ => 1
  | .csrs _ _ _ _ => 1
  | .csrc _ _ _ _ => 1
  | .ldB _ _ _ _ => 1
  | .ldBz _ _ _ _ => 1
  | .ldH _ _ _ _ => 1
  | .ldHz _ _ _ _ => 1
  | .ldW _ _ _ _ => 1
  | .ldWz _ _ _ _ => 1
  | .ldD _ _ _ _ => 1
  | .stB _ _ _ _ => 1
  | .stH _ _ _ _ => 1
  | .stW _ _ _ _ => 1
  | .stD _ _ _ _ => 1
  | .ldAcq _ _ _ _ _ => 1
  | .stRel _ _ _ _ _ => 1
  | .fenceFull _ _ => 1
  | .fenceAcq _ _ => 1
  | .fenceRel _ _ => 1
  | .amoAdd _ _ _ _ _ => 1
  | .amoAnd _ _ _ _ _ => 1
  | .amoOr _ _ _ _ _ => 1
  | .amoXor _ _ _ _ _ => 1
  | .amoMin _ _ _ _ _ => 1
  | .amoMax _ _ _ _ _ => 1
  | .amoMinu _ _ _ _ _ => 1
  | .amoMaxu _ _ _ _ _ => 1
  | .amoSwap _ _ _ _ _ => 1
  | .amoFaddF32 _ _ _ _ => 1
  | .amoFaddBf16 _ _ _ _ => 1
  | .amoFmaxF32 _ _ _ _ => 1
  | .casI64 _ _ _ _ _ => 1
  | .casI32 _ _ _ _ _ => 1
  | .dadd _ _ _ _ _ => 1
  | .cadd _ _ _ _ _ => 2
  | .dseal _ _ _ => 1
  | .tlnew _ _ _ _ => 2
  | .tlfree _ _ => 2
  | .send _ _ _ _ _ => 2
  | .post _ _ _ _ => 2
  | .reply _ _ _ => 2
  | .replyTo _ _ _ _ => 2
  | .promise _ _ => 2
  | .chopen _ _ _ _ => 2
  | .chclose _ _ => 2
  | .nstat _ _ _ _ => 2
  | .tsub _ _ _ _ => 2
  | .krel _ _ => 1
  | .kheld _ _ _ => 1
  | .bara _ _ => 1
  | .barw _ => 1
  | .bar _ _ => 1
  | .mrls _ => 1
  | .push _ _ _ => 1
  | .pushm _ _ _ _ _ => 1
  | .pop _ _ _ => 1
  | .qstat _ _ _ => 2
  | .tldr _ _ _ _ _ _ => 1
  | .tstr _ _ _ _ _ _ => 1
  | .tld _ _ _ _ => 1
  | .tst _ _ _ _ => 1
  | .vadd _ _ _ _ _ _ => 1
  | .vaddX _ _ _ _ _ _ => 1
  | .vsub _ _ _ _ _ _ => 1
  | .vsubX _ _ _ _ _ _ => 1
  | .vmul _ _ _ _ _ _ => 1
  | .vmulX _ _ _ _ _ _ => 1
  | .vmin _ _ _ _ _ _ => 1
  | .vminX _ _ _ _ _ _ => 1
  | .vmax _ _ _ _ _ _ => 1
  | .vmaxX _ _ _ _ _ _ => 1
  | .vabs _ _ _ _ _ => 1
  | .vabsX _ _ _ _ _ => 1
  | .vneg _ _ _ _ _ => 1
  | .vnegX _ _ _ _ _ => 1
  | .vand _ _ _ _ _ _ => 1
  | .vandX _ _ _ _ _ _ => 1
  | .vor _ _ _ _ _ _ => 1
  | .vorX _ _ _ _ _ _ => 1
  | .vxor _ _ _ _ _ _ => 1
  | .vxorX _ _ _ _ _ _ => 1
  | .vshl _ _ _ _ _ _ => 1
  | .vshlX _ _ _ _ _ _ => 1
  | .vshr _ _ _ _ _ _ => 1
  | .vshrX _ _ _ _ _ _ => 1
  | .vsra _ _ _ _ _ _ => 1
  | .vsraX _ _ _ _ _ _ => 1
  | .vcmpLt _ _ _ _ _ _ => 1
  | .vcmpLtX _ _ _ _ _ _ => 1
  | .vcmpLe _ _ _ _ _ _ => 1
  | .vcmpLeX _ _ _ _ _ _ => 1
  | .vcmpEq _ _ _ _ _ _ => 1
  | .vcmpEqX _ _ _ _ _ _ => 1
  | .vsel _ _ _ _ _ _ => 1
  | .vselX _ _ _ _ _ _ => 1
  | .vmov _ _ _ _ _ => 1
  | .vmovX _ _ _ _ _ => 1
  | .vfma _ _ _ _ _ _ => 1
  | .vfmaX _ _ _ _ _ _ => 1
  | .vrcp _ _ _ _ _ => 1
  | .vrcpX _ _ _ _ _ => 1
  | .vrsq _ _ _ _ _ => 1
  | .vrsqX _ _ _ _ _ => 1
  | .vrfn _ _ _ _ _ _ => 1
  | .vrfnX _ _ _ _ _ _ => 1
  | .vrfs _ _ _ _ _ _ => 1
  | .vrfsX _ _ _ _ _ _ => 1
  | .vexp2 _ _ _ _ _ => 1
  | .vexp2X _ _ _ _ _ => 1
  | .vlog2 _ _ _ _ _ => 1
  | .vlog2X _ _ _ _ _ => 1
  | .vcvt _ _ _ _ _ _ _ => 1
  | .vcvtX _ _ _ _ _ _ _ => 1
  | .vqnt _ _ _ _ _ _ => 1
  | .vqntX _ _ _ _ _ _ => 1
  | .vdq _ _ _ _ _ _ => 1
  | .vdqX _ _ _ _ _ _ => 1
  | .vredSum _ _ _ _ _ => 1
  | .vredSumX _ _ _ _ _ => 1
  | .vredMin _ _ _ _ _ => 1
  | .vredMinX _ _ _ _ _ => 1
  | .vredMax _ _ _ _ _ => 1
  | .vredMaxX _ _ _ _ _ => 1
  | .vredAmax _ _ _ _ _ => 1
  | .vredAmaxX _ _ _ _ _ => 1
  | .vscan _ _ _ _ _ => 1
  | .vscanX _ _ _ _ _ => 1
  | .vperm _ _ _ _ _ _ => 1
  | .vins _ _ _ _ _ _ => 1
  | .vext _ _ _ _ _ _ => 1
  | .vbcast _ _ _ _ _ _ => 1
  | .vneur _ _ _ _ _ _ => 1
  | .mva _ _ _ _ _ => 2
  | .amv _ _ _ _ _ => 2
  | .trap _ _ => 1
  | .sysc _ _ => 1
  | .eret _ => 6
  | .tlbi _ _ => 1
  | .tlbiAll _ => 1
  | .nlog _ _ _ => 1
  | .ckpt _ _ _ _ => 1
  | .ctxcQuery _ _ _ => 1
  | .ctxcRdf _ _ _ => 1
  | .ctxcWrf _ _ _ _ => 1
  | .ctxcFrz _ _ _ => 1
  | .ctxcThaw _ _ _ => 1
  | .ctxcTear _ _ _ => 1
  | .bfill _ _ => 1
  | .badd _ _ => 1
  | .baxpy _ _ => 1
  | .bred _ _ => 1
  | .mma _ _ => 1
  | .mmz _ _ => 1
  | .acrd _ _ => 1
  | .acwr _ _ => 1
  | .mtr _ _ => 1
  | .wload _ _ => 1
  | .wstore _ _ => 1
  | .wstq _ _ => 1
  | .wmcast _ _ => 1
  | .wdeal _ _ => 1
  | .wgather _ _ => 1
  | .wscatter _ _ => 1
  | .wfill _ _ => 1
  | .signal _ _ => 1
  | .illegalWord _ => 1
  | .tendComplete _ => 1
  | .yieldComplete _ => 1
  | .stRelStoreLeaves _ _ => 1
  | .caddAdditionSent _ _ => 1
  | .tlnewAtCluster _ _ => 1
  | .tlnewResult _ _ => 1
  | .tlfreeArrival _ _ => 1
  | .sendInject _ => 1
  | .chopenAtTarget _ _ => 1
  | .chopenResult _ _ => 1
  | .tsubRecordWrite _ _ => 1
  | .krelSent _ _ => 1
  | .barArrivalSent _ _ => 1
  | .pushEntersQueue _ _ => 1
  | .vectorUnitStart _ => 1
  | .rowWrite _ => 1
  | .tlbiInvalidate _ _ _ _ _ => 1
  | .qreqWrite _ _ => 1
  | .oqcapWrite _ _ => 1
  | .trapEntry _ => 1
  | .watchdog _ => 1
  | .translationWalk _ _ _ => 1
  | .bankLoad _ => 1
  | .bankStore _ => 1
  | .rowLoadRequest _ => 1
  | .rowStoreRequest _ => 1
  | .scaleSlotWrite _ => 1
  | .amoAtBank _ => 1
  | .casAtBank _ => 1
  | .counterAddAtBank _ => 1
  | .daddAtBank _ => 1
  | .dsealAtBank _ => 1
  | .loadResponse _ => 1
  | .storeAck _ => 1
  | .rowLoadResponse _ => 1
  | .flitInject _ => 1
  | .flitArrival _ => 1
  | .receiptArrival _ _ => 1
  | .nakArrival _ _ _ => 1
  | .injectionStop _ => 1
  | .throttleWindow _ => 1
  | .bulkDeferExpiry _ _ => 1
  | .overflowWrite _ => 1
  | .recall _ _ => 1
  | .ovminRecomputeDone _ _ => 1
  | .linkReplay _ _ _ => 1
  | .retrainEnd _ _ => 1
  | .pcieCompletionTimeout _ => 1
  | .promiseArrival _ _ _ _ => 1
  | .transit _ _ => 1
  | .promiseSend _ _ => 1
  | .askSend _ _ => 1
  | .askArrival _ _ => 1
  | .tokenStart _ => 1
  | .surveyVisit _ => 1
  | .survstall _ => 1
  | .eventArrival _ _ _ _ _ _ => 1
  | .taskEntry _ => 1
  | .deskKreq _ _ _ _ _ => 1
  | .kgrantArrival _ _ _ => 1
  | .krefuseArrival _ _ _ => 1
  | .keyRetry _ _ => 1
  | .deskKrel _ _ _ _ _ => 1
  | .deskKcancel _ _ _ _ _ => 1
  | .krunAtDesk _ _ _ _ _ => 1
  | .kqueryAtDesk _ _ => 1
  | .kstatArrival _ _ => 1
  | .wregAtSlice _ _ _ => 1
  | .wmetArrival _ _ _ => 1
  | .wrefuseArrival _ _ _ => 1
  | .watchPoll _ _ _ => 1
  | .wcancelAtSlice _ _ _ _ => 1
  | .dwait _ _ => 1
  | .dispatch _ => 1
  | .priorityPromotion _ _ => 1
  | .quadHoldRequest _ _ => 1
  | .quadGangStart _ => 1
  | .barrierArrival _ => 1
  | .barrierExit _ => 1
  | .barrierWake _ => 1
  | .slwinWrite _ => 1
  | .slwinSwitchDone _ _ => 1
  | .slcolsWrite _ => 1
  | .slcolsSwitch _ => 1
  | .patrolScrub _ _ => 1
  | .leaseGrant _ => 1
  | .releaseMarkerHead _ => 1
  | .waithRecheck _ _ => 1
  | .engineCommandComplete _ _ _ => 1
  | .sighAnswer _ _ _ => 1
  | .scalingExchange _ _ => 1
  | .mcastTransfer _ => 1
  | .drainAddition _ _ => 1
  | .freezeGraceEnd _ => 1
  | .freezeDone _ => 1
  | .thawDone _ => 1
  | .pagePreserve _ _ => 1
  | .archiveStart _ => 1
  | .archivePage _ _ => 1
  | .checkpointComplete _ => 1
  | .nlctlWrite _ => 1
  | .lnkstWrite _ => 1
  | .cnrectWrite _ => 1
  | .cnctlFence _ _ => 1
  | .cnctlReset _ => 1
  | .containmentResetDone _ => 1
  | .registerWrite _ _ => 1
  | .hostPostWrite _ _ _ _ => 1
  | .hostPromise _ _ _ _ => 1
  | .hostReplyWrite _ => 1
  | .rrheadWrite _ _ => 1
  | .vfbindWrite _ _ => 1
  | .domidWrite _ => 1
  | .firmwareRequestTake _ => 1
  | .reductionDescriptorWrite _ => 1
  | .reductionContribution _ _ _ _ _ _ => 1
  | .fabricFrameArrival _ _ => 1
  | .thermalTrip => 1
  | .thermalRecover => 1
  | .perstRelease => 1
  | .contextCreate _ _ => 1
  | .pcieCompletionArrival _ _ => 1

/-- The registers of a message's payload: s10 to s15. -/
def payloadRegs : List Nat := [10, 11, 12, 13, 14, 15]

/-- The scalar registers that a word reads, s0 among them: the entries of the chapters (R403). -/
def regsRead : Instr → List Nat
  | .add _ _ a b | .sub _ _ a b | .mul _ _ a b | .mulh _ _ a b | .mulhu _ _ a b | .div _ _ a b | .divu _ _ a b
  | .rem _ _ a b | .remu _ _ a b | .and _ _ a b | .or _ _ a b | .xor _ _ a b | .andn _ _ a b | .orn _ _ a b | .sll _ _ a b
  | .srl _ _ a b | .sra _ _ a b | .rol _ _ a b | .min _ _ a b | .max _ _ a b | .minu _ _ a b | .maxu _ _ a b | .slt _ _ a b
  | .sltu _ _ a b | .seq _ _ a b | .fadd _ _ a b _ | .fsub _ _ a b _ | .fmul _ _ a b _ | .fmin _ _ a b _ | .fmax _ _ a b _
  | .fdiv _ _ a b _ | .fcmpLt _ _ a b _ | .fcmpLe _ _ a b _ | .fcmpEq _ _ a b _ | .beq _ a b _ | .bne _ a b _
  | .blt _ a b _ | .bge _ a b _ | .bltu _ a b _ | .bgeu _ a b _ | .stB _ b a _ | .stH _ b a _ | .stW _ b a _ | .stD _ b a _
  | .stRel _ b a _ _ | .amoAdd _ _ a b _ | .amoAnd _ _ a b _ | .amoOr _ _ a b _ | .amoXor _ _ a b _ | .amoMin _ _ a b _
  | .amoMax _ _ a b _ | .amoMinu _ _ a b _ | .amoMaxu _ _ a b _ | .amoSwap _ _ a b _ | .amoFaddF32 _ _ a b
  | .amoFaddBf16 _ _ a b | .amoFmaxF32 _ _ a b | .cadd _ _ a b _ | .tlnew _ _ a b | .chopen _ _ a b | .nlog _ a b
  | .ckpt _ _ a b | .ctxcWrf _ _ a b => [a.toNat, b.toNat]
  | .clz _ _ a | .ctz _ _ a | .popc _ _ a | .ext _ _ a _ _ | .exts _ _ a _ _ | .addi _ _ a _ | .andi _ _ a _ | .ori _ _ a _
  | .xori _ _ a _ | .slli _ _ a _ | .srli _ _ a _ | .srai _ _ a _ | .slti _ _ a _ | .sltiu _ _ a _ | .fsqrt _ _ a _
  | .fclass _ _ a _ | .fcvt _ _ a _ _ _ | .jalr _ _ a _ | .tend _ a _ | .csrw _ _ a _ | .csrs _ _ a _ | .csrc _ _ a _
  | .ldB _ _ a _ | .ldBz _ _ a _ | .ldH _ _ a _ | .ldHz _ _ a _ | .ldW _ _ a _ | .ldWz _ _ a _ | .ldD _ _ a _
  | .ldAcq _ _ a _ _ | .dseal _ _ a | .tlfree _ a | .promise _ a | .chclose _ a | .nstat _ _ a _ | .krel _ a | .kheld _ _ a
  | .pushm _ _ a _ _ | .tldr _ _ _ a _ _ | .tstr _ _ _ a _ _ | .tld _ _ a _ | .tst _ _ a _ | .tlbi _ a | .ctxcQuery _ _ a
  | .ctxcRdf _ _ a | .ctxcFrz _ _ a | .ctxcThaw _ _ a | .ctxcTear _ _ a => [a.toNat]
  | .sel _ _ a b c | .fma _ _ a b c _ | .casI64 _ _ a b c | .casI32 _ _ a b c => [a.toNat, b.toNat, c.toNat]
  | .ins _ d a _ _ => [d.toNat, a.toNat]
  | .yield _ _ => payloadRegs
  | .dadd _ d a b _ => [d.toNat, a.toNat, b.toNat]
  | .send _ d a b _ => [d.toNat, a.toNat, b.toNat] ++ payloadRegs
  | .post _ d a _ | .replyTo _ d a _ => [d.toNat, a.toNat] ++ payloadRegs
  | .reply _ d _ => [d.toNat] ++ payloadRegs
  | .tsub _ d a _ => d.toNat :: (List.range 6).map fun i => (a.toNat + i) % 32
  | .push _ _ a => (List.range 4).map fun i => (a.toNat + i) % 32
  | .vaddX _ _ _ _ x _ | .vsubX _ _ _ _ x _ | .vmulX _ _ _ _ x _ | .vminX _ _ _ _ x _ | .vmaxX _ _ _ _ x _
  | .vabsX _ _ _ x _ | .vnegX _ _ _ x _ | .vandX _ _ _ _ x _ | .vorX _ _ _ _ x _ | .vxorX _ _ _ _ x _ | .vshlX _ _ _ _ x _
  | .vshrX _ _ _ _ x _ | .vsraX _ _ _ _ x _ | .vcmpLtX _ _ _ _ x _ | .vcmpLeX _ _ _ _ x _ | .vcmpEqX _ _ _ _ x _
  | .vselX _ _ _ _ x _ | .vmovX _ _ _ x _ | .vfmaX _ _ _ _ x _ | .vrcpX _ _ _ x _ | .vrsqX _ _ _ x _ | .vrfnX _ _ _ _ x _
  | .vrfsX _ _ _ _ x _ | .vexp2X _ _ _ x _ | .vlog2X _ _ _ x _ | .vcvtX _ _ _ _ x _ _ | .vqntX _ _ _ _ x _
  | .vdqX _ _ _ _ x _ | .vredSumX _ _ _ x _ | .vredMinX _ _ _ x _ | .vredMaxX _ _ _ x _ | .vredAmaxX _ _ _ x _
  | .vscanX _ _ _ x _ => [x.toNat]
  | .lui _ _ _ | .auipc _ _ _ | .j _ _ | .jal _ _ | .csrr _ _ _ | .fenceFull _ _ | .fenceAcq _ _ | .fenceRel _ _
  | .bara _ _ | .barw _ | .bar _ _ | .mrls _ | .pop _ _ _ | .qstat _ _ _ | .vadd _ _ _ _ _ _ | .vsub _ _ _ _ _ _
  | .vmul _ _ _ _ _ _ | .vmin _ _ _ _ _ _ | .vmax _ _ _ _ _ _ | .vabs _ _ _ _ _ | .vneg _ _ _ _ _ | .vand _ _ _ _ _ _
  | .vor _ _ _ _ _ _ | .vxor _ _ _ _ _ _ | .vshl _ _ _ _ _ _ | .vshr _ _ _ _ _ _ | .vsra _ _ _ _ _ _ | .vcmpLt _ _ _ _ _ _
  | .vcmpLe _ _ _ _ _ _ | .vcmpEq _ _ _ _ _ _ | .vsel _ _ _ _ _ _ | .vmov _ _ _ _ _ | .vfma _ _ _ _ _ _ | .vrcp _ _ _ _ _
  | .vrsq _ _ _ _ _ | .vrfn _ _ _ _ _ _ | .vrfs _ _ _ _ _ _ | .vexp2 _ _ _ _ _ | .vlog2 _ _ _ _ _ | .vcvt _ _ _ _ _ _ _
  | .vqnt _ _ _ _ _ _ | .vdq _ _ _ _ _ _ | .vredSum _ _ _ _ _ | .vredMin _ _ _ _ _ | .vredMax _ _ _ _ _
  | .vredAmax _ _ _ _ _ | .vscan _ _ _ _ _ | .vperm _ _ _ _ _ _ | .vins _ _ _ _ _ _ | .vext _ _ _ _ _ _
  | .vbcast _ _ _ _ _ _ | .vneur _ _ _ _ _ _ | .mva _ _ _ _ _ | .amv _ _ _ _ _ | .trap _ _ | .sysc _ _ | .eret _
  | .tlbiAll _ | .bfill _ _ | .badd _ _ | .baxpy _ _ | .bred _ _ | .mma _ _ | .mmz _ _ | .acrd _ _ | .acwr _ _ | .mtr _ _
  | .wload _ _ | .wstore _ _ | .wstq _ _ | .wmcast _ _ | .wdeal _ _ | .wgather _ _ | .wscatter _ _ | .wfill _ _
  | .signal _ _ | .illegalWord _ | .tendComplete _ | .yieldComplete _ | .stRelStoreLeaves _ _ | .caddAdditionSent _ _
  | .tlnewAtCluster _ _ | .tlnewResult _ _ | .tlfreeArrival _ _ | .sendInject _ | .chopenAtTarget _ _ | .chopenResult _ _
  | .tsubRecordWrite _ _ | .krelSent _ _ | .barArrivalSent _ _ | .pushEntersQueue _ _ | .vectorUnitStart _ | .rowWrite _
  | .tlbiInvalidate _ _ _ _ _ | .qreqWrite _ _ | .oqcapWrite _ _ | .trapEntry _ | .watchdog _ | .translationWalk _ _ _
  | .bankLoad _ | .bankStore _ | .rowLoadRequest _ | .rowStoreRequest _ | .scaleSlotWrite _ | .amoAtBank _ | .casAtBank _
  | .counterAddAtBank _ | .daddAtBank _ | .dsealAtBank _ | .loadResponse _ | .storeAck _ | .rowLoadResponse _
  | .flitInject _ | .flitArrival _ | .receiptArrival _ _ | .nakArrival _ _ _ | .injectionStop _ | .throttleWindow _
  | .bulkDeferExpiry _ _ | .overflowWrite _ | .recall _ _ | .ovminRecomputeDone _ _ | .linkReplay _ _ _ | .retrainEnd _ _
  | .pcieCompletionTimeout _ | .promiseArrival _ _ _ _ | .transit _ _ | .promiseSend _ _ | .askSend _ _ | .askArrival _ _
  | .tokenStart _ | .surveyVisit _ | .survstall _ | .eventArrival _ _ _ _ _ _ | .taskEntry _ | .deskKreq _ _ _ _ _
  | .kgrantArrival _ _ _ | .krefuseArrival _ _ _ | .keyRetry _ _ | .deskKrel _ _ _ _ _ | .deskKcancel _ _ _ _ _
  | .krunAtDesk _ _ _ _ _ | .kqueryAtDesk _ _ | .kstatArrival _ _ | .wregAtSlice _ _ _ | .wmetArrival _ _ _
  | .wrefuseArrival _ _ _ | .watchPoll _ _ _ | .wcancelAtSlice _ _ _ _ | .dwait _ _ | .dispatch _ | .priorityPromotion _ _
  | .quadHoldRequest _ _ | .quadGangStart _ | .barrierArrival _ | .barrierExit _ | .barrierWake _ | .slwinWrite _
  | .slwinSwitchDone _ _ | .slcolsWrite _ | .slcolsSwitch _ | .patrolScrub _ _ | .leaseGrant _ | .releaseMarkerHead _
  | .waithRecheck _ _ | .engineCommandComplete _ _ _ | .sighAnswer _ _ _ | .scalingExchange _ _ | .mcastTransfer _
  | .drainAddition _ _ | .freezeGraceEnd _ | .freezeDone _ | .thawDone _ | .pagePreserve _ _ | .archiveStart _
  | .archivePage _ _ | .checkpointComplete _ | .nlctlWrite _ | .lnkstWrite _ | .cnrectWrite _ | .cnctlFence _ _
  | .cnctlReset _ | .containmentResetDone _ | .registerWrite _ _ | .hostPostWrite _ _ _ _ | .hostPromise _ _ _ _
  | .hostReplyWrite _ | .rrheadWrite _ _ | .vfbindWrite _ _ | .domidWrite _ | .firmwareRequestTake _
  | .reductionDescriptorWrite _ | .reductionContribution _ _ _ _ _ _ | .fabricFrameArrival _ _ | .thermalTrip
  | .thermalRecover | .perstRelease | .contextCreate _ _ | .pcieCompletionArrival _ _ => []

/-- The CSR that a word reads: `csrr`, `csrs`, `csrc`, and `csrw` that returns the old value (R91, R403). -/
def csrReadBy : Instr → Option Nat
  | .csrr _ _ c => some c.toNat
  | .csrs _ _ _ c => some c.toNat
  | .csrc _ _ _ c => some c.toNat
  | .csrw _ d _ c => if d = 0 then none else some c.toNat
  | _ => none

/-- Whether a word reads register or CSR `n`: scalar registers by their numbers but s0, CSRs by 32 plus theirs (R403). -/
def readsState (i : Instr) (n : Nat) : Bool :=
  if n < 32 then n != 0 && (regsRead i).contains n else csrReadBy i = some (n - 32)

/-- A mode as a number: task, supervisor, firmware (R361, R367). -/
def Mode.level : Mode → Nat
  | .task => 0
  | .supervisor => 1
  | .firmware => 2

end Sys2Proof.Machine
end

