-- ==== Sys2Proof/Machine/Ops.lean ====
section
/-! DEFINITION. What every core word shares: the checks before it (R33, R35), the wait marker (R30), taking a trap
and returning from one (R368, R369, R374), what a core lets go when its earlier accesses are done, and the keys'
homes (R214). -/

namespace Sys2Proof.Machine

open Sys2Proof

/-! ### What a core lets go -/

/-- The step by which an entry of `held` leaves. -/
def heldEvent (c : Nat) (p : Nat × HeldEntry) : Event :=
  match p.2.what with
  | .request _ => .stRelStoreLeaves c p.1
  | .addition _ => .caddAdditionSent c p.1
  | .submit _ => .tsubRecordWrite c p.1
  | .key _ => .krelSent c p.1
  | .arrival => .barArrivalSent c p.1
  | .push _ => .pushEntersQueue c p.1

/-- Whether nothing of the core's is left to leave or to return, and every store is performed for every class: the waits of `tend`
(R107). -/
def Core.quiet (k : Core) : Bool :=
  !k.waiting && k.sendQ.isEmpty && k.stores.isEmpty && k.lags.isEmpty && k.held.all (fun p => match p.2.what with
    | .push _ => true
    | _ => false)

/-- The waits of `yield` (R109): every result and every store, for every class. -/
def Core.drained (k : Core) : Bool := !k.waiting && k.stores.isEmpty && k.lags.isEmpty

/-- The steps that a core's finished accesses allow; a task ends 4 cycles after its waits (R107). -/
def State.kick (s : State) (c : Nat) : State :=
  let k := s.core c
  let s := k.held.foldl (fun s p => if p.2.free k then s.post (heldEvent c p) else s) s
  let s := match k.sendQ with
    | [] => s
    | e :: _ => if e.free k then s.post (if e.host then .hostReplyWrite c else .sendInject c) else s
  match k.run with
  | .trapping _ => if k.waiting then s else s.post (.trapEntry c)
  | .ending _ _ => if k.quiet then s.postIn 4 (.tendComplete c) else s
  | .yielding _ _ => if k.drained then s.post (.yieldComplete c) else s
  | _ => s

/-! ### Traps (R364 to R369) -/

/-- `cause` of a trap (R365). -/
def Trap.causeWord (t : Trap) : Word :=
  Word.of (t.code.toNat + (if t.df then 256 else 0) + (if t.sc then 512 else 0))

/-- `epc`: X, or X + 4 for `sysc` (R368). -/
def Trap.epcOf (t : Trap) : Word := if t.sc then t.pc + 4 else t.pc

/-- `tinfo` [63:0] (R366). -/
def Trap.tinfoWord (t : Trap) (caddn : BitVec 16) : Word :=
  Word.of (caddn.toNat * 2 ^ 48 + ((t.iaddr.getD t.epcOf).toNat % 2 ^ 48) / 4 * 4 + (if t.recf then 2 else 0))

/-- `tinfo` [127:64] (R366). -/
def Trap.tinfohWord (t : Trap) : Word :=
  Word.of (t.stp.toNat + t.lvl.toNat * 2 ^ 8 + t.why.toNat * 2 ^ 12 + t.row.toNat * 2 ^ 16)

/-- The fault issued first among those deferred (R32). -/
def firstDeferred : List Deferred → Option Deferred
  | [] => none
  | d :: t => match firstDeferred t with
    | none => some d
    | some e => if e.seq < d.seq then some e else some d

/-- The trap that is taken at X: a fault that a returning result reported replaces it (R32, R368). -/
def Trap.replaced (t : Trap) (ds : List Deferred) : Trap :=
  match firstDeferred ds with
  | none => t
  | some d => { d.t with pc := t.pc, df := true, sc := false }

/-- The members of a core's gang that have not ended (R234, R249). -/
def State.members (s : State) (k : Core) : List Nat :=
  let anchor := k.gang.toNat / 64
  let shape := k.gang.toNat / 16 % 4
  ((List.range (if shape = 2 then 16 else 4)).map (4 * anchor + ·)).filter fun c =>
    let m := s.core c
    m.gang.toNat / 16 = k.gang.toNat / 16 && m.run != .free && m.run != .held

/-- A gang's barrier entry (R240): in the cluster, or in the router of a quad gang. -/
def State.barrierOf (s : State) (gang : BitVec 16) : Barrier :=
  let anchor := gang.toNat / 64
  if gang.toNat / 16 % 4 = 2 then (s.router (routerOfCluster anchor)).barrier else (s.cluster anchor).barrier

/-- A gang's barrier entry written. -/
def State.setBarrier (s : State) (gang : BitVec 16) (b : Barrier) : State :=
  let anchor := gang.toNat / 64
  if gang.toNat / 16 % 4 = 2 then s.modRouter (routerOfCluster anchor) fun r => { r with barrier := b }
  else s.modCluster anchor fun k => { k with barrier := b }

/-- The watchdog's step at the end of a budget, when the watchdog is on (R372). -/
def State.watch (s : State) (c : Nat) : State :=
  let k := s.core c
  if k.wdogOn then s.postIn (k.budgetAt + k.budget - s.cycle) (.watchdog c) else s

/-- A task ended by a trap, as by `tend` in supervisor mode (R224, R369); a gang is killed as a unit (R249): every
member stops, waits for its results and stores, and makes no signal. R249 gives its parts no times: the model sends GKILL in the
killing step, with the code of the trap at hand, a double trap's second one, and frees each core as it comes to rest (DESIGN CHOICE, log
139, log 152). -/
def State.endTrapped (s : State) (c : Nat) (code : Nat) : State :=
  let k := s.core c
  if k.gang = 0 then (s.setCore c { k with run := .ending none true, deferred := [] }).kick c
  else
    let b := s.barrierOf k.gang
    let s := (s.members k).foldl (fun s m =>
      if (s.core m).run = .exiting then s
      else (s.modCore m fun q => { q with run := .ending none true, deferred := [] }).kick m) s
    s.note (routerOfSrc c) k.ctx 8 (Word.of k.gang.toNat) (Word.of code) (Word.of b.exit.toNat)

/-- Taking a trap once nothing is outstanding (R368): the double trap and the unhandled trap end the task (R369),
every other trap saves the pc, the status and the budget and goes to the vector. GKILL of a gang that a double trap kills names the second
trap (R249; DESIGN CHOICE, log 152). A `bar` of the task that has arrived is kept apart from
those of the handler (R243). -/
def State.enterTrap (s : State) (c : Nat) (t0 : Trap) : State :=
  let k := s.core c
  let t := t0.replaced k.deferred
  let x := s.ctx k.ctx
  if k.intrap then
    (s.note (routerOfSrc c) k.ctx 16 (Word.of (k.cause.fld 7 0)) (Word.of t.code.toNat) t.epcOf).endTrapped c t.code.toNat
  else if x.tvec = 0 then
    (s.note (routerOfSrc c) k.ctx 15 (Word.of t.code.toNat) t.epcOf t.tval).endTrapped c t.code.toNat
  else
    (s.setCore c { k with
      deferred := []
      run := .running
      savedBudget := (s.budgetOf k).toNat
      budget := x.wdog, budgetAt := s.cycle, wdogOn := x.wdog != 0
      pmode := BitVec.ofNat 2 k.mode.level
      intrap := true
      arrived := none, arrivedSaved := k.arrived
      retry := false
      mode := .supervisor
      cause := t.causeWord
      tval := t.tval
      epc := t.epcOf
      tinfo := t.tinfoWord k.caddn
      tinfoh := t.tinfohWord
      pc := x.tvec }).watch c

/-- A trap raised by a core: taken at once, or when its outstanding results have returned (R30, R368). -/
def State.takeTrap (s : State) (c : Nat) (t : Trap) : State :=
  let k := s.core c
  if k.waiting then s.setCore c { k with run := .trapping t } else s.enterTrap c t

/-- A trap of the core whose word runs, at that word. -/
def State.trap (s : State) (code : Nat) (tval : Word) : State :=
  s.takeTrap s.cur { code := BitVec.ofNat 8 code, pc := s.me.pc, tval := tval }

/-- A trap with the parts of `tinfo` given. -/
def State.trapWith (s : State) (t : Trap) : State := s.takeTrap s.cur { t with pc := s.me.pc }

/-- The trap of the operand tests of a chapter: CHAN, its `tval` and its STEP (R366). -/
def State.trapChan (s : State) (tval : Word) (stp : Nat) : State :=
  s.trapWith { code := 0x0A, pc := 0, tval := tval, stp := BitVec.ofNat 8 stp }

/-- The word's own bits, which an ILLEGAL or PRIV trap reports (R33, R371). -/
def wordTval (i : Instr) : Word := Word.of (encode i).toNat

/-- Returning from a trap (R374): the budget saved, or WDOG after WATCHDOG; the watchdog is off where that WDOG was 0 (R372). A `bar`
that had arrived waits on at `epc`; elsewhere it has been left, and arrives anew when it is executed again (R243, log 42). -/
def State.returnTrap (s : State) (c : Nat) : State :=
  let k := s.core c
  if k.epc.fld 1 0 != 0 then s.takeTrap c { code := 0x03, pc := k.pc, tval := k.epc }
  else
    let wasDog := k.cause.fld 7 0 = 0x0E
    let x := s.ctx k.ctx
    (s.setCore c { k with
      budget := if wasDog then x.wdog else k.savedBudget
      budgetAt := s.cycle
      wdogOn := if wasDog then x.wdog != 0 else k.savedBudget != 2 ^ 64 - 1
      arrived := k.arrivedSaved.filter (· = k.epc), arrivedSaved := none
      mode := if k.pmode = 1 then .supervisor else .task
      intrap := false
      pc := k.epc }).watch c

/-! ### The front end of a word -/

/-- The word stalls: nothing of it has happened and it is tried again in the next cycle (R30, R126). -/
def State.stall (s : State) : State := s.modMe fun k => { k with ready := s.cycle + 1 }

/-- The word is done: the next word follows it. -/
def State.advance (s : State) : State := s.modMe fun k => { k with pc := k.pc + 4 }

/-- A register result: written whole, and the next word follows. -/
def State.result (s : State) (d : BitVec 5) (v : Word) : State := s.modMe fun k => { k.put d v with pc := k.pc + 4 }

/-- The wait of R30 with the fault of R32: the body runs once nothing is outstanding and no fault is reported. -/
def State.waited (s : State) (body : State → State) : State :=
  if s.me.waiting then s.stall
  else if s.me.deferred.isEmpty then body s
  else s.trap 0 0

/-- A core word (R33, R35): encoding, privilege, the wait marker, then the instruction's own part. -/
def word (i : Instr) (body : State → State) (s : State) : Result State :=
  .next (
    if !i.wf then s.trap 0x01 (wordTval i)
    else if s.me.mode.level < (needs i).level then s.trap 0x02 (wordTval i)
    else if waits i then s.waited body
    else body s)

/-- A core word whose entry waits whether or not W is set (R30). -/
def wordWaits (i : Instr) (body : State → State) (s : State) : Result State := word i (fun s => s.waited body) s

/-! ### Keys (R214) -/

/-- The home desk of a key of a context (R214). -/
def State.deskOf (s : State) (x : Nat) (key : BitVec 16) : Nat :=
  let h := (key.toNat * 0x9E37 + x * 0x61C9) % 65536
  s.sliceAt (h * (24 * s.columns.length) / 65536)

end Sys2Proof.Machine
end

