-- ==== Sys2Proof/Machine/Operands.lean ====
section
/-! DEFINITION. The operand forms (R25 to R28, R51): immediates, branch targets, addresses, row indices, the fields of command words. -/

namespace Sys2Proof.Machine

open Sys2Proof

/-- A signed 14-bit immediate (R95). -/
def imm14 (i : BitVec 14) : Word := i.signExtend 64

/-- The target of a branch: its own address plus the offset in words (R27). -/
def branchTarget (pc : Word) (o : BitVec 14) : Word := pc + (o.signExtend 64 <<< 2)

/-- The target of a jump (R27). -/
def jumpTarget (pc : Word) (o : BitVec 24) : Word := pc + (o.signExtend 64 <<< 2)

/-- The value of lui: imm shifted by 14 and sign-extended from 33 bits (R96). -/
def upperImm (i : BitVec 19) : Word := (i ++ 0#14).signExtend 64

/-- The effective address of a load or store (R127). -/
def Core.ea (k : Core) (a : BitVec 5) (i : BitVec 14) : Word := k.get a + imm14 i

/-- The effective address of `ld.acq` and `st.rel` (R130). -/
def Core.ea9 (k : Core) (a : BitVec 5) (o : BitVec 9) : Word := k.get a + o.signExtend 64

/-- The effective address of `tldr` and `tstr`: the offset counts rows of 64 bytes (R28, R135). -/
def Core.eaRow (k : Core) (a : BitVec 5) (o : BitVec 10) : Word := k.get a + (o.signExtend 64 <<< 6)

/-- The effective address of `tld` and `tst` (R135). -/
def Core.eaTile (k : Core) (a : BitVec 5) (o : BitVec 11) : Word := k.get a + (o.signExtend 64 <<< 6)

/-- The row of `tldr` and `tstr`: five bits in the row field, the sixth in bit 10 (R28). -/
def rowIndex (r : BitVec 5) (h : BitVec 1) : BitVec 6 := h ++ r

/-- The row of a T-form word (R286). -/
def rowT (r : BitVec 5) : BitVec 6 := r.setWidth 6

/-- The row of an X-form word: s[a][5:0] (R286). -/
def Core.rowX (k : Core) (x : BitVec 5) : BitVec 6 := (k.get x).setWidth 6

/-- `n` bytes of a register as a number. -/
def lowBytes (v : Word) (n : Nat) : Nat := v.toNat % 256 ^ n

/-- `n` bytes as a register value, sign- or zero-extended (R127). -/
def extendBytes (n : Nat) (signed : Bool) (v : Nat) : Word :=
  let m := v % 256 ^ n
  if signed && m / (256 ^ n / 2) = 1 then Word.of (2 ^ 64 - 256 ^ n + m) else Word.of m

/-! ### Command words (R40 to R43) -/

/-- A field of word `i` of a command word. -/
def cwFld (cw : BitVec 256) (i hi lo : Nat) : Nat := Word.fld (cw.extractLsb' (64 * i) 64) hi lo
/-- A word of a command word. -/
def cwWord (cw : BitVec 256) (i : Nat) : Word := cw.extractLsb' (64 * i) 64
/-- CWOP. -/
def cwOp (cw : BitVec 256) : Nat := cwFld cw 0 7 0
/-- The flag ORD (R41). -/
def cwOrd (cw : BitVec 256) : Bool := cwFld cw 0 8 8 = 1
/-- The flag CHK (R41). -/
def cwChk (cw : BitVec 256) : Bool := cwFld cw 0 9 9 = 1
/-- The flag MASK (R41). -/
def cwMask (cw : BitVec 256) : Bool := cwFld cw 0 10 10 = 1
/-- SIGADD (R40). -/
def cwSigadd (cw : BitVec 256) : Nat := cwFld cw 0 50 47
/-- SIGH (R40). -/
def cwSigh (cw : BitVec 256) : BitVec 16 := BitVec.ofNat 16 (cwFld cw 3 63 48)
/-- WAITT (R40). -/
def cwWaitt (cw : BitVec 256) : BitVec 32 := BitVec.ofNat 32 (cwFld cw 3 47 16)
/-- WAITH (R40). -/
def cwWaith (cw : BitVec 256) : BitVec 16 := BitVec.ofNat 16 (cwFld cw 3 15 0)

/-- The queue of a command's class: 0 matrix, 1 walker, 2 bulk; 3 for a reserved CWOP (R42). -/
def cwClass (cw : BitVec 256) : Nat :=
  let o := cwOp cw
  if 1 ≤ o && o ≤ 5 then 0
  else if 0x20 ≤ o && o ≤ 0x28 then 1
  else if 0x40 ≤ o && o ≤ 0x43 then 2
  else 3

/-- The tiles a matrix command reads, held against later writing (R321). -/
def cwTiles (cw : BitVec 256) : List (BitVec 3) :=
  if cwOp cw != 1 && cwOp cw != 2 then []
  else
    (if cwFld cw 0 29 29 = 0 then [BitVec.ofNat 3 (cwFld cw 0 27 25)] else []) ++
    (if cwFld cw 0 28 28 = 0 then [BitVec.ofNat 3 (cwFld cw 0 24 22)] else [])

/-- Whether a stage is past the start of the command. -/
def QStage.started : QStage → Bool
  | .queued => false
  | .hold => false
  | .armed => false
  | .granted => false
  | .running => true
  | .complete => true
  | .adding => true
  | .done => true

end Sys2Proof.Machine
end

