-- ==== Sys2Proof/Machine/Access.lean ====
section
/-! DEFINITION. Translation (R112 to R122), the homes of addresses (R253 to R256), and how a core's memory word
becomes a request (R120, R126, R130, R163). -/

namespace Sys2Proof.Machine

open Sys2Proof

/-! ### Page tables (R114 to R118) -/

/-- What a translation answers: a physical address with the leaf's two words, or a fault's cause, WHY and LVL. -/
inductive Xlate where
  | ok (pa : Nat) (w0 w1 : Word) (lvl : Nat)
  | bad (code why lvl : Nat)
deriving DecidableEq, Repr

/-- The address bits below an entry's index at a level: 39, 30, 21, 16 (R114). -/
def lvlShift (lvl : Nat) : Nat := match lvl with
  | 0 => 39
  | 1 => 30
  | 2 => 21
  | _ => 16

/-- The index of a virtual address at a level (R114). -/
def lvlIndex (lvl va : Nat) : Nat := va / 2 ^ lvlShift lvl % (if lvl = 3 then 32 else 512)

/-- Whether a leaf is malformed (R116, R117). DEDUCED: a nonzero SCBASE of a leaf that does not use it is accepted, since
R116 marks no nonzero value of that field as malformed (log 118). -/
def leafBad (lvl : Nat) (w0 w1 : Word) : Bool :=
  lvl = 0 || w0.fld 63 52 != 0 || w0.fld 15 9 != 0 || w1.fld 63 54 != 0 || w1.fld 2 0 != 0 ||
  w0.toNat / 2 ^ 16 % 2 ^ (lvlShift lvl - 16) != 0 ||
  (w0.fld 6 6 = 1 && w0.fld 3 3 = 1) || (w1.fld 48 48 = 1 && w1.fld 52 49 = 15)

/-- Whether a pointer is malformed (R115, R117). -/
def pointerBad (lvl : Nat) (w0 w1 : Word) : Bool :=
  lvl = 3 || w1 != 0 || w0.fld 63 52 != 0 || w0.fld 8 2 != 0 || (lvl < 2 && w0.fld 12 9 != 0)

/-- The walk from a table at a level: the leaf's words, its level and the address of its entry, or a fault. `n`
bounds the levels left. DESIGN CHOICE: a table that PTROOT or NEXT places outside HBM and the bank windows is read there
as memory (log 25). -/
def walk (m : List Host.Cell) (va : Nat) : Nat → Nat → Nat → Except (Nat × Nat × Nat) (Word × Word × Nat × Nat)
  | 0, _, lvl => .error (4, 1, lvl)
  | n + 1, table, lvl =>
    let ea := table + 16 * lvlIndex lvl va
    let w0 := Word.of (memRead m ea 8)
    let w1 := Word.of (memRead m (ea + 8) 8)
    if w0.fld 0 0 = 0 then .error (4, 0, lvl)
    else if w0.fld 1 1 = 1 then
      if leafBad lvl w0 w1 then .error (4, 1, lvl)
      else if region (w0.fld 51 16 * 65536) = .reserved then .error (4, 7, 0)
      else .ok (w0, w1, lvl, ea)
    else if pointerBad lvl w0 w1 then .error (4, 1, lvl)
    else if region (w0.fld 51 9 * 512) = .reserved then .error (4, 7, 0)
    else walk m va n (w0.fld 51 9 * 512) (lvl + 1)

/-- The addresses of the entries that a walk reads. -/
def walkReads (m : List Host.Cell) (va : Nat) : Nat → Nat → Nat → List Nat
  | 0, _, _ => []
  | n + 1, table, lvl =>
    let ea := table + 16 * lvlIndex lvl va
    let w0 := Word.of (memRead m ea 8)
    if w0.fld 0 0 = 0 || w0.fld 1 1 = 1 || pointerBad lvl w0 (Word.of (memRead m (ea + 8) 8)) then [ea]
    else ea :: walkReads m va n (w0.fld 51 9 * 512) (lvl + 1)

/-- Whether a leaf allows a kind of access (R116, R258). -/
def leafAllows (w0 : Word) (kind : Access) : Bool :=
  match kind with
  | .load => w0.fld 2 2 = 1
  | .store => w0.fld 3 3 = 1
  | .both => w0.fld 2 2 = 1 && w0.fld 3 3 = 1
  | .fetch => w0.fld 4 4 = 1

/-- Whether an access writes. -/
def accessWrites : Access → Bool
  | .load => false
  | .store => true
  | .both => true
  | .fetch => false

/-- The physical address that a leaf gives a virtual one. -/
def leafPa (w0 : Word) (lvl va : Nat) : Nat := w0.fld 51 16 * 65536 + va % 2 ^ lvlShift lvl

/-- A leaf's answer to an access (R113, R117): an address in a reserved range, then the kind, then U. -/
def leafAnswer (w0 w1 : Word) (lvl va : Nat) (kind : Access) (m : Mode) : Xlate :=
  if region (leafPa w0 lvl va) = .reserved then .bad 4 7 0
  else if !leafAllows w0 kind then .bad 5 2 lvl
  else if m = .task && w0.fld 5 5 = 0 then .bad 5 3 lvl
  else .ok (leafPa w0 lvl va) w0 w1 lvl

/-- Whether a TLB entry covers an address of a context. -/
def TlbEntry.covers (e : TlbEntry) (x va : Nat) : Bool :=
  e.ctx = x && e.vpn * 65536 / 2 ^ lvlShift e.lvl = va / 2 ^ lvlShift e.lvl

/-- A translation a TLB may serve: a write needs D already set (R118). -/
def tlbFind (l : List TlbEntry) (x va : Nat) (kind : Access) : Option TlbEntry :=
  l.find? fun e => e.covers x va && (!accessWrites kind || e.w0.fld 8 8 = 1)

/-- A TLB of `n` entries with a new one, the oldest leaving (log 11). -/
def tlbPut (l : List TlbEntry) (n : Nat) (e : TlbEntry) : List TlbEntry :=
  (e :: l.filter fun o => !(o.ctx = e.ctx && o.vpn = e.vpn && o.lvl = e.lvl)).take n

/-- The entries that a walk reads: it waits for a window switch (R254), and single-bit errors are corrected (R260). -/
def State.readWalk (s : State) (x va : Nat) : State :=
  if s.soft.isEmpty && s.slwinNew.isEmpty && s.links.isEmpty then s
  else (walkReads s.mem va 4 (s.ctx x).ptroot.toNat 0).foldl (fun (s : State) a => s.deviceRead a 16) s

/-- A walk of a context's tables with the A and D updates (R117, R118); also the entry for the TLBs. An entry with an uncorrectable error
is read as its bytes stand: R118 says nothing of one (DESIGN CHOICE, log 145). -/
def State.walkVa (s : State) (x va : Nat) (kind : Access) (m : Mode) : Xlate × Option TlbEntry × State :=
  let s := s.readWalk x va
  match walk s.mem va 4 (s.ctx x).ptroot.toNat 0 with
  | .error (c, w, l) => (.bad c w l, none, s)
  | .ok (w0, w1, lvl, ea) =>
    match leafAnswer w0 w1 lvl va kind m with
    | .bad c w l => (.bad c w l, none, s)
    | .ok pa _ _ _ =>
      let w0' := w0 ||| 0x80 ||| (if accessWrites kind then 0x100 else 0)
      let s := if w0' = w0 then s else ({ s with mem := memWrite s.mem ea w0'.toNat 8 } : State).watchesIn ea 8
      (.ok pa w0' w1 lvl, some { ctx := x, vpn := va / 65536, w0 := w0', w1 := w1, lvl := lvl }, s)

/-- The answer of the virtual map before any table (R112): none for a general address. -/
def State.mapVa (s : State) (x cl : Nat) (ea : Word) (kind : Access) : Option Xlate :=
  let va := ea.toNat
  if 2 ^ 48 ≤ va then some (.bad 4 6 0)
  else if va < 0xFFFFE0000000 then none
  else if va < 0xFFFFF2000000 then
    let c := (va - 0xFFFFE0000000) / 0x80000
    if kind = .fetch || !(s.ctx x).hasCluster c then some (.bad 5 4 0)
    else some (.ok (scratchPa c ((va - 0xFFFFE0000000) % 0x80000)) 0 0 0)
  else if va < 0xFFFFFFF80000 then some (.bad 4 7 0)
  else if kind = .fetch then some (.bad 5 4 0)
  else some (.ok (scratchPa cl (va - 0xFFFFFFF80000)) 0 0 0)

/-- Whether a physical target exists for a core's access (R113, R366): WHY 8 otherwise. -/
def State.physOk (s : State) (pa : Nat) : Bool :=
  match region pa with
  | .window sl off => sl < 96 && off < (s.slice sl).win * 0x100000 && (s.columns.contains (sl / 2 % 4))
  | .scratch cl => cl < 576
  | .peer d => d < 256 && d != s.domid.toNat && Config.inDomain d
  | .reserved => false
  | _ => true

/-- The physical check after a translation. -/
def State.checked (s : State) (t : Xlate) : Xlate :=
  match t with
  | .ok pa _ _ _ => if s.physOk pa then t else .bad 5 8 0
  | .bad _ _ _ => t

/-- The translation of a core (R112, R119, R120): the map, the core's micro-TLB, the cluster's TLB, a walk. -/
def State.translate (s : State) (c : Nat) (ea : Word) (kind : Access) : Xlate × State :=
  let k := s.core c
  let cl := c / 4
  match s.mapVa k.ctx cl ea kind with
  | some t => (t, s)
  | none =>
    let va := ea.toNat
    match tlbFind k.tlb k.ctx va kind with
    | some e => (s.checked (leafAnswer e.w0 e.w1 e.lvl va kind k.mode), s)
    | none =>
      match tlbFind (s.cluster cl).tlb k.ctx va kind with
      | some e => (s.checked (leafAnswer e.w0 e.w1 e.lvl va kind k.mode),
          s.modCore c fun k => { k with tlb := tlbPut k.tlb 32 e })
      | none =>
        match s.walkVa k.ctx va kind k.mode with
        | (t, none, s) => (t, s)
        | (t, some e, s) =>
          (s.checked t, (s.modCore c fun k => { k with tlb := tlbPut k.tlb 32 e }).modCluster cl fun q =>
            { q with tlb := tlbPut q.tlb 512 e })

/-- The translation of a counter's address outside any core's word: a walk (R265). -/
def State.counterPa (s : State) (x cl : Nat) (base : Word) (handle : BitVec 16) (m : Mode) : Xlate × State :=
  let ea := base + Word.of (8 * handle.toNat)
  let r := match s.mapVa x cl ea .both with
    | some t => (t, s)
    | none => ((s.walkVa x ea.toNat .both m).1, (s.walkVa x ea.toNat .both m).2.2)
  match r.1 with
  | .bad _ _ _ => r
  | .ok pa _ _ _ =>
    match region pa with
    | .hbm => r
    | .window _ _ => (r.2.checked r.1, r.2)
    | _ => (.bad 5 8 0, r.2)

/-! ### Targets (R163) -/

/-- The PCIe link that a context's accesses to host memory take: its function's, 192 functions on each (R415); link 0 for a
context without a function and for firmware (DESIGN CHOICE, log 121). -/
def State.hostLink (s : State) (x : Nat) : Nat := match s.fnOf x with
  | some fn => fn / 192 % 2
  | none => 0

/-- The memory target of a context's access to an address (R163): a slice, a scratchpad port, a PCIe link or a fabric port. A
contribution to a reduction window is given the port of its number (DESIGN CHOICE, log 121). -/
def State.target (s : State) (x pa : Nat) : Nat :=
  match region pa with
  | .hbm => s.hbmHome pa
  | .window sl _ => sl
  | .scratch cl => 1000 + cl
  | .host => 2000 + s.hostLink x
  | .peer d => 3000 + s.peerPort d
  | .reduction w _ => 3000 + w % 24
  | .reserved => 0

/-- The entries of a target's reorder store (R163). -/
def storeCap (target : Nat) : Nat := if target < 96 then 256 else if target < 2000 then 64 else 128

/-- The source id of a target (R145): a scratchpad port's is that of its cluster's message unit. -/
def targetSrc (target : Nat) : Nat :=
  if target < 96 then 0xA00 + target
  else if target < 2000 then (target - 1000) * 4
  else if target < 3000 then 0xC00 + target % 2
  else 0xD00 + (target - 3000)

/-! ### Checkpointed pages (R390) -/

/-- The place of the declared page that holds a physical address. -/
def Ckpt.pageOf (k : Ckpt) (pa : Nat) : Option Nat := k.pages.findIdx? fun p => p.pa = pa / 65536 * 65536

/-- The declared page of a context that a store of tick `t` must have preserved before it proceeds (R390). -/
def State.unpreserved (s : State) (x t pa : Nat) : Option Nat :=
  match (s.ctx x).ckpt with
  | none => none
  | some k =>
    if t < k.t then none
    else match k.pageOf pa with
      | none => none
      | some i => if k.archived.contains i || k.preserved.any fun p => p.1 = i then none else some i

/-- The contexts and declared pages that a store of a core must have preserved before it proceeds: its own context's, for its tick, and
those of every context for a store in firmware mode, which is taken as at or after every checkpoint's tick (R390). -/
def State.unpreservedBy (s : State) (k : Core) (pa : Nat) : List (Nat × Nat) :=
  if k.mode = .firmware then s.ctxs.filterMap fun p => (s.unpreserved p.1 (2 ^ 48) pa).map fun i => (p.1, i)
  else ((s.unpreserved k.ctx (tick k.now) pa).map fun i => (k.ctx, i)).toList

/-- A page of memory with its poison copied, its single-bit errors corrected (R260), once no slice keeps it off (R254); the watches of what
was written are tested (R265). -/
def State.copyPage (s : State) (src dst : Nat) : State :=
  let bad := s.poison.filter fun w => src / 8 ≤ w && w < src / 8 + 8192
  let s := ((s.deviceRead src 65536).touchAll dst 65536).correct dst 65536 true
  let s := s.writeMem dst 65536 (s.readMem src 65536)
  (bad.foldl (fun s w => s.addPoison (dst + (8 * w - src))) s).watchesIn dst 65536

/-- D cleared in a page's leaf; no TLB keeps the page (R118, R390). -/
def State.clearD (s : State) (x : Nat) (p : CkPage) : State :=
  let drop := fun (l : List TlbEntry) => l.filter fun e => !e.covers x p.va
  let s := s.deviceRead p.leaf 8
  ({ s with
    mem := memWrite s.mem p.leaf (memRead s.mem p.leaf 8 &&& (2 ^ 64 - 257)) 8
    cores := s.cores.map fun q => (q.1, { q.2 with tlb := drop q.2.tlb })
    clusters := s.clusters.map fun q => (q.1, { q.2 with tlb := drop q.2.tlb })
    walkers := s.walkers.map fun q => (q.1, { q.2 with tlb := drop q.2.tlb }) } : State).watchesIn p.leaf 8

/-- A checkpoint fails: the note CKFAIL with its reason, every shadow page freed (R392). -/
def State.ckptFails (s : State) (x reason : Nat) : State :=
  match (s.ctx x).ckpt with
  | none => s
  | some k => (s.modCtx x fun c => { c with ckpt := none }).note 0 x 0x12 k.number (Word.of reason) 0

/-- A declared page copied to the next free shadow page, D cleared; a full shadow fails the checkpoint (R390, R392). -/
def State.preservePage (s : State) (x i : Nat) : State :=
  match (s.ctx x).ckpt with
  | none => s
  | some k =>
    if k.archived.contains i || k.preserved.any (fun p => p.1 = i) then s
    else match k.pages[i]?, k.shadow with
      | none, _ => s
      | some _, [] => s.ckptFails x 1
      | some p, sh :: rest =>
        ((s.copyPage p.pa sh).clearD x p).modCtx x fun c => { c with
          ckpt := some { k with shadow := rest, preserved := k.preserved ++ [(i, sh)] } }

/-- A store of an engine to a declared page: the page is preserved first when its tick asks for it, and D is set again
(R390). -/
def State.preserveFor (s : State) (x t pa va : Nat) (m : Mode) : State :=
  match s.unpreserved x t pa with
  | none => s
  | some i => ((s.preservePage x i).walkVa x va .store m).2.2

/-- A store of the host, a peer or firmware is taken as at or after the tick of every checkpoint: the declared pages that hold the
address are preserved first (R390). -/
def State.preserveAll (s : State) (pa : Nat) : State :=
  s.ctxs.foldl (fun s p => match s.unpreserved p.1 (2 ^ 48) pa with
    | none => s
    | some i => s.preservePage p.1 i) s

/-- A store below the checkpoint's tick goes to the page's preserved copy as well (R390). -/
def State.mirror (s : State) (x t pa n : Nat) : State :=
  match (s.ctx x).ckpt with
  | none => s
  | some k =>
    if k.t ≤ t then s
    else match k.pageOf pa with
      | none => s
      | some i => match k.preserved.find? fun p => p.1 = i with
        | none => s
        | some (_, sh) => (s.touch (sh + pa % 65536)).bankWrite (sh + pa % 65536) n (s.readMem pa n) (s.homeUnit pa).2 x

/-! ### Requests -/

/-- The step by which a request is applied at its target. -/
def MReq.event (r : MReq) (id : Nat) : Event :=
  match r.kind with
  | .load => .bankLoad id
  | .store => .bankStore id
  | .amo _ _ => .amoAtBank id
  | .cas _ => .casAtBank id
  | .rowLoad => .rowLoadRequest id
  | .rowStore => .rowStoreRequest id
  | .cadd => .counterAddAtBank id
  | .dadd _ => .daddAtBank id
  | .dseal => .dsealAtBank id
  | .scale _ => .scaleSlotWrite id
  | .cmd _ => .bankLoad id
  | .group => .bankLoad id
  | .engRead _ _ _ => .bankLoad id
  | .engWrite _ _ _ _ => .bankStore id

/-- The step by which a request's answer reaches its core. -/
def MReq.reply (r : MReq) (id : Nat) : Event :=
  match r.kind with
  | .store => .storeAck id
  | .rowStore => .storeAck id
  | .scale _ => .storeAck id
  | .dadd _ => .storeAck id
  | .engWrite _ _ _ _ => .storeAck id
  | .rowLoad => .rowLoadResponse id
  | .group => .rowLoadResponse id
  | _ => .loadResponse id

/-- A request changed. -/
def State.setReq (s : State) (id : Nat) (r : MReq) : State := { s with reqs := s.reqs.set id r }

/-- A result of the running word that comes later: `s[d]` is outstanding and its value is on its way (R30). -/
def State.lateResult (s : State) (d : BitVec 5) (v : Word) : State :=
  let k := s.me
  let (id, s) := (s.setCore s.cur { k with
    outs := k.outs.set k.seq { iaddr := k.pc, dest := .reg d 8 false }, seq := k.seq + 1, pc := k.pc + 4 }).newId
  (s.setReq id { core := s.cur, seq := k.seq, kind := .load, pa := 0, data := v, stage := 2, dest := .reg d 8 false,
                 ctx := k.ctx }).postLate (.loadResponse id)

/-- The memory target of a request. -/
def State.targetOf (s : State) (r : MReq) : Nat := s.target r.ctx r.pa

/-- Whether every request of the same core with a lower number to the same target has been applied (R163). -/
def State.inOrder (s : State) (r : MReq) : Bool :=
  s.reqs.all fun p => !(p.2.core = r.core && p.2.mseq < r.mseq && p.2.stage = 1 && s.targetOf p.2 = s.targetOf r)

/-! ### The flits of requests and responses (R144, R146) -/

/-- Whether a request is answered with a row: a row load, or the read of a command word or of an engine, to which the spec gives no size
of its own and which travels as a row load (log 35). -/
def MReq.isRow (r : MReq) : Bool := match r.kind with
  | .rowLoad => true
  | .cmd _ => true
  | .engRead _ _ _ => true
  | _ => false

/-- OPC (R146). -/
def MReq.opc (r : MReq) : Nat := match r.kind with
  | .load => 0
  | .group => 0
  | .store => 1
  | .amo _ _ => 2
  | .cas _ => 3
  | .rowLoad => 4
  | .cmd _ => 4
  | .rowStore => 5
  | .cadd => 6
  | .dadd _ => 7
  | .dseal => 8
  | .scale _ => 9
  | .engRead _ _ _ => 4
  | .engWrite _ _ _ none => 5
  | .engWrite _ _ _ (some _) => 9

/-- [63:56] of FI 0: the byte mask, the function of an `amo`, the slot mask, zero for a row (R146). -/
def MReq.maskByte (r : MReq) : Nat := match r.kind with
  | .amo fn _ => fn.toNat
  | .scale slots => slots.toNat
  | .rowLoad => 0
  | .rowStore => 0
  | .cmd _ => 0
  | .engRead _ _ _ => 0
  | .engWrite _ _ _ slots => (slots.getD 0).toNat
  | _ => (2 ^ r.bytes - 1) * 2 ^ (r.pa % 8) % 256

/-- [127:64] of FI 0: the operand or store data, the compare value of a `cas` (R146). R146 does not say which byte lanes the data of a
store narrower than 8 bytes take: the model leaves them at bit 64, whatever the address (DESIGN CHOICE, log 132). -/
def MReq.operand (r : MReq) : Word := match r.kind with
  | .amo _ _ => r.data2
  | .cadd => r.data2
  | .store => r.data
  | .cas _ => r.data
  | .dadd _ => r.data
  | .scale _ => r.data
  | .engWrite _ _ _ (some _) => r.data
  | _ => 0

/-- The payloads of a request's flits (R146). -/
def MReq.payloads (r : MReq) : List (BitVec 128) :=
  (r.operand ++ Word.of (r.pa % 2 ^ 52 + r.opc * 2 ^ 52 + r.maskByte * 2 ^ 56)) ::
    match r.kind with
    | .cas _ => [r.data2.setWidth 128]
    | .rowStore => (List.range 4).map fun i => r.row.extractLsb' (128 * i) 128
    | .engWrite _ _ _ none => (List.range 4).map fun i => r.row.extractLsb' (128 * i) 128
    | _ => []

/-- The payloads of a response's flits (R146). -/
def MReq.rspPayloads (r : MReq) : List (BitVec 128) :=
  if r.isRow && r.status = 0 then (List.range 4).map fun i => r.row.extractLsb' (128 * i) 128
  else [(r.status.setWidth 64) ++ (if r.isRow then 0 else r.data)]

/-- Flits of a request or a response: number FI and payload of each. -/
def numbered (f : Flit) (ps : List (BitVec 128)) : List Flit :=
  ((List.range ps.length).zip ps).map fun p => { f with fi := p.1, pay := p.2 }

/-- The flits of a request on its way to its target (R143, R146). -/
def State.reqFlits (s : State) (id : Nat) (r : MReq) : List Flit :=
  numbered { flitBack r.core (targetSrc (s.targetOf r)) 0 with
    mtag := BitVec.ofNat 8 id, ctx := r.ctx, mseq := BitVec.ofNat 6 r.mseq, req := some id } r.payloads

/-- The flits of its response (R143, R146). -/
def State.rspFlits (s : State) (id : Nat) (r : MReq) : List Flit :=
  numbered { flitBack (targetSrc (s.targetOf r)) r.core 1 with
    mtag := BitVec.ofNat 8 id, ctx := r.ctx, mseq := BitVec.ofNat 6 r.mseq, errs := r.isRow && r.status != 0, req := some id }
    r.rspPayloads

/-- A request leaves its core under the next number to its target, its flits through its cluster's port (R149, R163). -/
def State.sendReq (s : State) (id : Nat) (r : MReq) : State :=
  let t := s.targetOf r
  let n := (s.core r.core).mseqs.get t 0
  let r := { r with stage := 1, mseq := n, left := r.payloads.length }
  ((s.setReq id r).modCore r.core fun k => { k with mseqs := k.mseqs.set t (n + 1) }).inject (r.core / 4) (s.reqFlits id r)

/-- A response leaves its target, after a time that nothing fixes (R31, log 7). -/
def State.sendRsp (s : State) (id : Nat) (r : MReq) : State :=
  let (n, s) := s.newId
  let r := { r with stage := 2, left := r.rspPayloads.length }
  let s := s.setReq id r
  let t := s.targetOf r
  if t < 96 then s.injectIn (576 + t) (Config.latency n) (s.rspFlits id r)
  else if t < 2000 then s.injectIn (t - 1000) (Config.latency n) (s.rspFlits id r)
  else s.offerIn (Config.latency n) (s.rspFlits id r)

/-- Whether a request touches one of `n` bytes at `pa`. -/
def MReq.overlaps (r : MReq) (pa n : Nat) : Bool :=
  r.pa < pa + n && pa < r.pa + r.bytes

/-- Load entries in use (R126). -/
def Core.loads (k : Core) : Nat := k.outs.foldl (fun n p => n + p.2.load) 0
/-- Store entries in use (R126). -/
def Core.storeCount (k : Core) : Nat := k.stores.foldl (fun n p => n + p.2) 0

/-- Whether an `ld.acq` under way holds an access to an address (R130): C device memory, P peer, H host. R130 names no class for a
reduction window: the model holds one under P (DESIGN CHOICE, log 131). -/
def Core.acqHolds (k : Core) (pa : Nat) : Bool :=
  let b := match region pa with
    | .host => 4
    | .peer _ => 3
    | .reduction _ _ => 3
    | _ => 0
  k.outs.any fun p => p.2.acq.getLsbD b

/-- Whether an `ld.acq` under way holds a push (R130): C holds qb, W qw, M qm. -/
def Core.acqHoldsPush (k : Core) (q : BitVec 2) : Bool := k.outs.any fun p => p.2.acq.getLsbD (2 - q.toNat)

/-- Whether an access must wait at issue: no entries free (R126), an acquire under way (R130), a declared page to be
preserved (R390), or an own store to the same bytes that has not left (R133, log 12). -/
def State.mustWait (s : State) (pa n loads stores : Nat) : Bool :=
  let k := s.me
  (loads != 0 && 16 < k.loads + loads) || (stores != 0 && 32 < k.storeCount + stores) || k.acqHolds pa ||
  (stores != 0 && !(s.unpreservedBy k pa).isEmpty) ||
  s.reqs.any fun p => p.2.core = s.cur && p.2.stage = 0 && p.2.overlaps pa n

/-- The running word stalls on accesses to some addresses: the declared pages that its stores need preserved are copied
(R390). -/
def State.stallOn (s : State) (pas : List Nat) : State :=
  let k := s.me
  (pas.foldl (fun s pa => (s.unpreservedBy k pa).foldl (fun s p => s.post (.pagePreserve p.1 p.2)) s) s).stall

/-- Requests entered under new numbers, held or on their way. -/
def State.enterReqs (s : State) (held : Bool) : List MReq → State
  | [] => s
  | r :: t =>
    let (id, s) := s.newId
    (if held then s.setReq id { r with stage := 0 } else s.sendReq id r).enterReqs held t

/-- The word's requests issued: an outstanding result when one is due, store entries when it stores, and on their way
at once unless an earlier release condition holds them. `rel` is the word's own condition: every earlier load
and store, these for a mask (R130, R266). -/
def State.issueAll (s : State) (rs : List MReq) (out : Option OutRes) (stores : Nat) (rel : Option (BitVec 5)) (add : Bool) : State :=
  let k := s.me
  let seq := k.seq
  let rs := rs.map fun (r : MReq) => { r with core := s.cur, seq := seq, ctx := k.ctx, issuer := k.issuer, tick := tick k.now }
  let h : HeldEntry := {
    what := if add then .addition s.nextId else .request s.nextId
    bound := if rel.isSome then seq else if stores = 0 then 0 else k.relFence
    mask := rel.getD maskC
    fence := if rel.isNone && stores = 0 then Vector.replicate 5 0 else k.relAll }
  let waitsFor := !h.free k
  let k := { k with
    seq := seq + 1
    outs := match out with
      | none => k.outs
      | some o => k.outs.set seq o
    stores := if stores = 0 then k.stores else k.stores.set seq stores
    held := if waitsFor then k.held.set seq h else k.held }
  (s.setCore s.cur k).enterReqs waitsFor rs

/-- One request issued. -/
def State.issue (s : State) (r : MReq) (out : Option OutRes) (stores : Nat) (rel : Option (BitVec 5)) (add : Bool) : State :=
  s.issueAll [r] out stores rel add

/-- The held requests of a word leave (R130, R132, R266). -/
def State.leave (s : State) (c seq : Nat) : State :=
  (s.reqs.filter fun p => p.2.core = c && p.2.seq = seq && p.2.stage = 0).foldl (fun s p => s.sendReq p.1 p.2) s

/-- The checks of an effective address (R127): bits [63:48], then alignment to `n`. -/
def eaBad (ea : Word) (n : Nat) : Option Trap :=
  if ea.fld 63 48 != 0 then some { code := 0x04, pc := 0, tval := ea, why := 6 }
  else if ea.toNat % n != 0 then some { code := 0x03, pc := 0, tval := ea }
  else none

/-- The trap of a failed translation. -/
def xlateTrap (code why lvl : Nat) (tval : Word) : Trap :=
  { code := BitVec.ofNat 8 code, pc := 0, tval := tval, why := BitVec.ofNat 4 why, lvl := BitVec.ofNat 2 lvl }

/-- A scalar access of the running word: checks, translation, then `go` with the physical address and the leaf. -/
def State.access (s : State) (ea : Word) (n : Nat) (kind : Access) (go : Nat → Word → State → State) : State :=
  match eaBad ea n with
  | some t => s.trapWith t
  | none =>
    match s.translate s.cur ea kind with
    | (.bad c w l, s) => s.trapWith (xlateTrap c w l ea)
    | (.ok pa w0 _ _, s) => go pa w0 s

end Sys2Proof.Machine
end

