-- ==== Sys2Proof/Machine/Float.lean ====
section
/-! DEFINITION. Numbers, rounding and flags (R58 to R62, R72 to R81). Every operation forms the exact value
as a dyadic number and rounds it once. A tie of tininess and overflow to the rounded value follows R74. -/

namespace Sys2Proof.Machine

open Sys2Proof

/-! ### Exact values -/

/-- An exact value: (-1)^neg times m times 2^e, and, where `more` is set, a magnitude larger by less than one
unit of 2^e. -/
structure Ex where
  neg : Bool
  m : Nat
  e : Int
  more : Bool := false
deriving DecidableEq, Repr

/-- A value of a floating-point type (R59). -/
inductive FVal where
  | nan (neg : Bool)
  | inf (neg : Bool)
  | fin (x : Ex)
deriving DecidableEq, Repr

/-- The number of bits of `m`: 0 for 0, else floor(log2 m) + 1. -/
def bitLen (m : Nat) : Nat := if m = 0 then 0 else Nat.log2 m + 1

/-- The signed mantissa of `x` at the exponent `e`, which is not above the exponent of `x`. -/
def Ex.at (x : Ex) (e : Int) : Int :=
  let n : Int := ((x.m <<< (x.e - e).toNat : Nat) : Int)
  if x.neg then -n else n

/-- An integer times 2^e; `negZero` is the sign a zero takes. -/
def Ex.ofInt (n : Int) (e : Int) (negZero : Bool) : Ex :=
  { neg := if n = 0 then negZero else decide (n < 0), m := n.natAbs, e := e }

/-- The exact sum. An exact zero takes the common sign of two zeros, else the sign `negZero` (R74, IEEE 754). -/
def Ex.add (x y : Ex) (negZero : Bool) : Ex :=
  let e := min x.e y.e
  Ex.ofInt (x.at e + y.at e) e (if x.neg = y.neg then x.neg else negZero)

/-- The exact product. -/
def Ex.mul (x y : Ex) : Ex := { neg := x.neg != y.neg, m := x.m * y.m, e := x.e + y.e }

/-- The negation. -/
def Ex.negate (x : Ex) : Ex := { x with neg := !x.neg }

/-- `x < y` as numbers; -0 = +0. -/
def Ex.lt (x y : Ex) : Bool :=
  let e := min x.e y.e
  decide (x.at e < y.at e)

/-- `x = y` as numbers; -0 = +0. -/
def Ex.eqv (x y : Ex) : Bool :=
  let e := min x.e y.e
  x.at e = y.at e

/-! ### Rounding modes and flags -/

/-- NX, UF, OF, DZ, NV, SAT in the places of R77. -/
def fNX : Flags := 1
/-- Underflow (R77). -/
def fUF : Flags := 2
/-- Overflow (R77). -/
def fOF : Flags := 4
/-- Division by zero (R77). -/
def fDZ : Flags := 8
/-- Invalid operation (R77). -/
def fNV : Flags := 16
/-- A saturating mode clamped a result (R77). -/
def fSAT : Flags := 32

/-- Whether a rounding mode is saturating (R72). -/
def rmSat (rm : BitVec 3) : Bool := rm.getLsbD 2

/-- Whether a magnitude is taken up, given its sign, whether it is odd, and the discarded part against half a
unit: `lt`, `eq` or `gt`, with `zero` when nothing is discarded (R72). -/
def roundsUp (rm : BitVec 3) (neg odd zero : Bool) (half : Ordering) : Bool :=
  match (rm.extractLsb' 0 2).toNat with
  | 0 => match half with
    | .gt => true
    | .eq => odd
    | .lt => false
  | 1 => false
  | 2 => !zero && !neg
  | _ => !zero && neg

/-- The magnitude of `x` in units of 2^q, rounded, and whether it was inexact (R72). -/
def Ex.roundAt (x : Ex) (rm : BitVec 3) (q : Int) : Nat × Bool :=
  if q ≤ x.e then
    let n := x.m <<< (x.e - q).toNat
    (if roundsUp rm x.neg (n % 2 = 1) (!x.more) .lt then n + 1 else n, x.more)
  else
    let s := (q - x.e).toNat
    let n := x.m >>> s
    let r := x.m % 2 ^ s
    let half := compare (2 * r) (2 ^ s)
    let half := match half with
      | .eq => if x.more then .gt else .eq
      | o => o
    let zero := r = 0 && !x.more
    (if roundsUp rm x.neg (n % 2 = 1) zero half then n + 1 else n, !zero)

/-! ### Formats -/

/-- A floating-point type (R59): exponent bits, mantissa bits, container bits below the mantissa (R60), and
whether it is e4m3, which has no infinity. -/
structure Fmt where
  eb : Nat
  mb : Nat
  pad : Nat := 0
  e4 : Bool := false
deriving DecidableEq, Repr

/-- f32, f64, f19, bf16, f16, e4m3 and e5m2 by type code (R58, R59); none for any other code. -/
def fmtOf (code : Nat) : Option Fmt :=
  match code with
  | 0 => some { eb := 8, mb := 23 }
  | 1 => some { eb := 11, mb := 52 }
  | 2 => some { eb := 8, mb := 10, pad := 13 }
  | 3 => some { eb := 8, mb := 7 }
  | 4 => some { eb := 5, mb := 10 }
  | 5 => some { eb := 4, mb := 3, e4 := true }
  | 6 => some { eb := 5, mb := 2 }
  | _ => none

/-- The format of a type code, f32 for a code that is no floating-point type. -/
def fmtD (code : Nat) : Fmt := (fmtOf code).getD { eb := 8, mb := 23 }

/-- Storage bits of one element by type code (R58); four-bit codes take 4. -/
def tyBits (code : Nat) : Nat :=
  match code with
  | 0 => 32 | 1 => 64 | 2 => 32 | 3 => 16 | 4 => 16 | 5 => 8 | 6 => 8 | 7 => 8 | 8 => 8 | 9 => 16 | 10 => 32
  | 15 => 64
  | _ => 4

/-- Whether a type code is two's complement: i8, i16, i32, i64 (R58). -/
def tySigned (code : Nat) : Bool := code = 7 || code = 9 || code = 10 || code = 15

/-- The bias (R59). -/
def Fmt.bias (f : Fmt) : Int := 2 ^ (f.eb - 1) - 1

/-- The exponent of the unit of the least place: of a subnormal (R59). -/
def Fmt.emin (f : Fmt) : Int := 1 - f.bias - f.mb

/-- The storage width. -/
def Fmt.bits (f : Fmt) : Nat := 1 + f.eb + f.mb + f.pad

/-- The encoding of the largest finite value, without its sign (R58, R59). -/
def Fmt.maxEnc (f : Fmt) : Nat := if f.e4 then 0x7E else (2 ^ f.eb - 1) * 2 ^ f.mb - 1

/-- Sign and magnitude bits in the container. -/
def Fmt.pack (f : Fmt) (neg : Bool) (mag : Nat) : Nat :=
  ((if neg then 2 ^ (f.eb + f.mb) else 0) + mag) * 2 ^ f.pad

/-- The canonical NaN with a sign (R59, R61). -/
def Fmt.nan (f : Fmt) (neg : Bool) : Nat :=
  f.pack neg (if f.e4 then 0x7F else (2 ^ f.eb - 1) * 2 ^ f.mb + 2 ^ (f.mb - 1))

/-- Infinity, or the largest finite value where there is none (R59, R79). -/
def Fmt.inf (f : Fmt) (neg : Bool) : Nat :=
  f.pack neg (if f.e4 then f.maxEnc else (2 ^ f.eb - 1) * 2 ^ f.mb)

/-- The value of a magnitude encoding that is no NaN and no infinity (R59). -/
def Fmt.magVal (f : Fmt) (neg : Bool) (mag : Nat) : Ex :=
  let ex := mag / 2 ^ f.mb
  let mant := mag % 2 ^ f.mb
  if ex = 0 then { neg := neg, m := mant, e := f.emin }
  else { neg := neg, m := 2 ^ f.mb + mant, e := f.emin + (ex - 1) }

/-- The value of a pattern; bits above the storage width and the container's low bits are ignored (R59, R60,
R62). -/
def Fmt.val (f : Fmt) (v : Nat) : FVal :=
  let v := v / 2 ^ f.pad % 2 ^ (1 + f.eb + f.mb)
  let neg := v / 2 ^ (f.eb + f.mb) = 1
  let mag := v % 2 ^ (f.eb + f.mb)
  let ex := mag / 2 ^ f.mb
  if f.e4 then
    if mag = 0x7F then .nan neg else .fin (f.magVal neg mag)
  else if ex = 2 ^ f.eb - 1 then
    if mag % 2 ^ f.mb = 0 then .inf neg else .nan neg
  else .fin (f.magVal neg mag)

/-- The result of a finite value beyond the range (R72, R79). -/
def Fmt.beyond (f : Fmt) (rm : BitVec 3) (neg : Bool) : Nat × Flags :=
  if rmSat rm then (f.pack neg f.maxEnc, fSAT ||| fNX)
  else
    let toInf := match (rm.extractLsb' 0 2).toNat with
      | 0 => true
      | 1 => false
      | 2 => !neg
      | _ => neg
    (if toInf then f.inf neg else f.pack neg f.maxEnc, fOF ||| fNX)

/-- The single rounding of an exact value to a type (R72, R74, R79). -/
def Fmt.round (f : Fmt) (rm : BitVec 3) (x : Ex) : Nat × Flags :=
  if x.m = 0 && !x.more then (f.pack x.neg 0, 0)
  else
    let top : Int := x.e + bitLen x.m - (f.mb + 1)
    let q := max top f.emin
    let (n, inexact) := x.roundAt rm q
    let mag := (q - f.emin).toNat * 2 ^ f.mb + n
    if mag > f.maxEnc then f.beyond rm x.neg
    else
      let (n', _) := x.roundAt rm top
      let tiny := top + bitLen n' ≤ f.emin + f.mb
      (f.pack x.neg mag, if inexact then (if tiny then fUF ||| fNX else fNX) else 0)

/-- A conversion to a floating-point type (R79, R80, R81). -/
def Fmt.convert (f : Fmt) (rm : BitVec 3) (v : FVal) : Nat × Flags :=
  match v with
  | .nan s => (f.nan s, 0)
  | .inf s => (f.inf s, if f.e4 then fOF else 0)
  | .fin x => f.round rm x

/-- An arithmetic result: a NaN is canonical with the sign bit 0 (R61). -/
def Fmt.result (f : Fmt) (rm : BitVec 3) (v : FVal) (fl : Flags) : Nat × Flags :=
  match v with
  | .nan _ => (f.nan false, fl)
  | .inf s => (f.inf s, fl)
  | .fin x => ((f.round rm x).1, (f.round rm x).2 ||| fl)

/-- A conversion to an integer of `w` bits, signed or not (R79, R80); the result modulo 2^w. -/
def toInteger (signed : Bool) (w : Nat) (rm : BitVec 3) (v : FVal) : Nat × Flags :=
  let lo : Int := if signed then -(2 ^ (w - 1)) else 0
  let hi : Int := if signed then 2 ^ (w - 1) - 1 else 2 ^ w - 1
  let enc : Int → Nat := fun n => (n % 2 ^ w).toNat
  match v with
  | .nan _ => (0, fNV)
  | .inf s => (enc (if s then lo else hi), fNV)
  | .fin x =>
    let (n, inexact) := x.roundAt rm 0
    let n : Int := if x.neg then -(n : Int) else n
    if n < lo then (enc lo, if rmSat rm then fSAT else fNV)
    else if hi < n then (enc hi, if rmSat rm then fSAT else fNV)
    else (enc n, if inexact then fNX else 0)

/-- The value of an element under a type code that is no block type; `uns` reads a signed integer type as
unsigned of the same width (R62, R101). -/
def tyVal (code : Nat) (uns : Bool) (v : Nat) : FVal :=
  match fmtOf code with
  | some f => f.val v
  | none =>
    let w := tyBits code
    let n := v % 2 ^ w
    if tySigned code && !uns && n / 2 ^ (w - 1) = 1 then .fin { neg := true, m := 2 ^ w - n, e := 0 }
    else .fin { neg := false, m := n, e := 0 }

/-- A conversion to a type code that is no block type, as an element of its width (R79, R80). -/
def tyConvert (code : Nat) (uns : Bool) (rm : BitVec 3) (v : FVal) : Nat × Flags :=
  match fmtOf code with
  | some f => f.convert rm v
  | none => toInteger (tySigned code && !uns) (tyBits code) rm v

/-- An element as it lies in a 64-bit register: a signed integer extends its sign, all else zero (R62). -/
def tyExtend (code : Nat) (uns : Bool) (v : Nat) : Word :=
  let w := tyBits code
  let n := v % 2 ^ w
  if tySigned code && !uns && n / 2 ^ (w - 1) = 1 then Word.of (2 ^ 64 - 2 ^ w + n) else Word.of n

/-! ### Arithmetic (R75, R97 to R100) -/

/-- Whether a value is a NaN. -/
def FVal.isNan : FVal → Bool
  | .nan _ => true
  | .inf _ => false
  | .fin _ => false

/-- The sign of a value. -/
def FVal.sign : FVal → Bool
  | .nan s => s
  | .inf s => s
  | .fin x => x.neg

/-- Whether a value is a zero. -/
def FVal.isZero : FVal → Bool
  | .nan _ => false
  | .inf _ => false
  | .fin x => x.m = 0 && !x.more

/-- The negation of a value. -/
def FVal.negate : FVal → FVal
  | .nan s => .nan (!s)
  | .inf s => .inf (!s)
  | .fin x => .fin x.negate

/-- The exact sum (R75). The sign of an exact zero from unlike signs is minus only toward -Inf (IEEE 754). -/
def fAddV (rm : BitVec 3) (a b : FVal) : FVal × Flags :=
  match a, b with
  | .nan _, _ => (.nan false, 0)
  | _, .nan _ => (.nan false, 0)
  | .inf s, .inf t => if s = t then (.inf s, 0) else (.nan false, fNV)
  | .inf s, .fin _ => (.inf s, 0)
  | .fin _, .inf t => (.inf t, 0)
  | .fin x, .fin y => (.fin (x.add y (rm.extractLsb' 0 2 = 3#2)), 0)

/-- The exact product (R75). -/
def fMulV (a b : FVal) : FVal × Flags :=
  match a, b with
  | .nan _, _ => (.nan false, 0)
  | _, .nan _ => (.nan false, 0)
  | .inf s, .inf t => (.inf (s != t), 0)
  | .inf s, .fin y => if y.m = 0 then (.nan false, fNV) else (.inf (s != y.neg), 0)
  | .fin x, .inf t => if x.m = 0 then (.nan false, fNV) else (.inf (x.neg != t), 0)
  | .fin x, .fin y => (.fin (x.mul y), 0)

/-- a times b plus c before its one rounding (R75, R100): 0 times Inf is invalid even when c is a NaN. -/
def fFmaV (rm : BitVec 3) (a b c : FVal) : FVal × Flags :=
  let (p, fl) := fMulV a b
  if fl = fNV then (.nan false, fNV) else fAddV rm p c

/-- The quotient, exact or with what lies below 128 bits of it (R75, R97). -/
def fDivV (a b : FVal) : FVal × Flags :=
  match a, b with
  | .nan _, _ => (.nan false, 0)
  | _, .nan _ => (.nan false, 0)
  | .inf _, .inf _ => (.nan false, fNV)
  | .inf s, .fin y => (.inf (s != y.neg), 0)
  | .fin x, .inf t => (.fin { neg := x.neg != t, m := 0, e := 0 }, 0)
  | .fin x, .fin y =>
    let neg := x.neg != y.neg
    if y.m = 0 then (if x.m = 0 then (.nan false, fNV) else (.inf neg, fDZ))
    else
      let k := 128 + bitLen y.m
      let n := x.m <<< k
      (.fin { neg := neg, m := n / y.m, e := x.e - y.e - k, more := n % y.m != 0 }, 0)

/-- The integer square root by its bits, from bit `k - 1` down, above the root `r` already found. -/
def sqrtBits (n : Nat) : Nat → Nat → Nat
  | 0, r => r
  | k + 1, r => let t := r + 2 ^ k
    sqrtBits n k (if t * t ≤ n then t else r)

/-- floor(sqrt n). -/
def natSqrt (n : Nat) : Nat := sqrtBits n (bitLen n / 2 + 1) 0

/-- The square root of a positive value, with what lies below 128 bits of it. -/
def Ex.sqrt (x : Ex) : Ex :=
  let odd : Nat := (x.e % 2).toNat
  let n := x.m <<< (256 + odd)
  let r := natSqrt n
  { neg := false, m := r, e := (x.e - odd) / 2 - 128, more := r * r != n }

/-- The square root (R97). -/
def fSqrtV (a : FVal) : FVal × Flags :=
  match a with
  | .nan _ => (.nan false, 0)
  | .inf false => (.inf false, 0)
  | .inf true => (.nan false, fNV)
  | .fin x =>
    if x.m = 0 then (.fin x, 0)
    else if x.neg then (.nan false, fNV)
    else (.fin x.sqrt, 0)

/-- `a < b` of values that are no NaN. -/
def FVal.lt (a b : FVal) : Bool :=
  match a, b with
  | .nan _, _ => false
  | _, .nan _ => false
  | .inf s, .inf t => s && !t
  | .inf s, .fin _ => s
  | .fin _, .inf t => !t
  | .fin x, .fin y => x.lt y

/-- `a = b` of values that are no NaN; -0 = +0. -/
def FVal.eqv (a b : FVal) : Bool :=
  match a, b with
  | .inf s, .inf t => s = t
  | .fin x, .fin y => x.eqv y
  | _, _ => false

/-- Whether `a` comes before `b` in the order of R98: -0 below +0. -/
def FVal.before (a b : FVal) : Bool :=
  a.lt b || (a.isZero && b.isZero && a.sign && !b.sign)

/-- The bits of a container that are part of a value; the others are written zero (R60). -/
def Fmt.kept (f : Fmt) (v : Nat) : Nat := v / 2 ^ f.pad % 2 ^ (1 + f.eb + f.mb) * 2 ^ f.pad

/-- A value that a unit passes on as a result: a NaN canonical (R61), an f19 with its low bits zero (R60). -/
def Fmt.passed (f : Fmt) (v : Nat) : Nat := if (f.val v).isNan then f.nan false else f.kept v

/-- fmin and fmax of R98 on patterns of a type: no rounding, no flag. -/
def Fmt.minMax (f : Fmt) (takeMax : Bool) (a b : Nat) : Nat :=
  let va := f.val a
  let vb := f.val b
  let keep := f.kept
  if va.isNan && vb.isNan then f.nan false
  else if va.isNan then keep b
  else if vb.isNan then keep a
  else if takeMax then (if va.before vb then keep b else keep a)
  else (if vb.before va then keep b else keep a)

/-- The two-operand and one-operand arithmetic of a type on patterns (R97): the value of `op` rounded once. -/
def Fmt.op2 (f : Fmt) (rm : BitVec 3) (op : FVal → FVal → FVal × Flags) (a b : Nat) : Nat × Flags :=
  let (v, fl) := op (f.val a) (f.val b)
  f.result rm v fl

/-- round(a + b) (R97). -/
def Fmt.add (f : Fmt) (rm : BitVec 3) (a b : Nat) : Nat × Flags := f.op2 rm (fAddV rm) a b
/-- round(a - b) (R97). -/
def Fmt.sub (f : Fmt) (rm : BitVec 3) (a b : Nat) : Nat × Flags := f.op2 rm (fun x y => fAddV rm x y.negate) a b
/-- round(a b) (R97). -/
def Fmt.mul (f : Fmt) (rm : BitVec 3) (a b : Nat) : Nat × Flags := f.op2 rm fMulV a b
/-- round(a / b) (R97). -/
def Fmt.div (f : Fmt) (rm : BitVec 3) (a b : Nat) : Nat × Flags := f.op2 rm fDivV a b
/-- round(sqrt a) (R97). -/
def Fmt.sqrt (f : Fmt) (rm : BitVec 3) (a : Nat) : Nat × Flags :=
  let (v, fl) := fSqrtV (f.val a)
  f.result rm v fl
/-- round(a b + c), one rounding (R100). -/
def Fmt.fma (f : Fmt) (rm : BitVec 3) (a b c : Nat) : Nat × Flags :=
  let (v, fl) := fFmaV rm (f.val a) (f.val b) (f.val c)
  f.result rm v fl

/-- Less, less or equal, equal as R97 gives them: a NaN is false, with NV but for equality. -/
def Fmt.cmp (f : Fmt) (kind : Nat) (a b : Nat) : Bool × Flags :=
  let va := f.val a
  let vb := f.val b
  if va.isNan || vb.isNan then (false, if kind = 2 then 0 else fNV)
  else match kind with
    | 0 => (va.lt vb, 0)
    | 1 => (va.lt vb || va.eqv vb, 0)
    | _ => (va.eqv vb, 0)

/-- The class bit of a pattern (R99). -/
def Fmt.classBit (f : Fmt) (a : Nat) : Nat :=
  match f.val a with
  | .nan _ => 8
  | .inf s => if s then 0 else 7
  | .fin x =>
    if x.m = 0 then (if x.neg then 3 else 4)
    else if x.m < 2 ^ f.mb then (if x.neg then 2 else 5)
    else (if x.neg then 1 else 6)

/-! ### Special functions and refinement (R296, R297) -/

/-- `x` rounded to `p` significant bits, to nearest, ties to even, with an unbounded exponent range. -/
def Ex.roundBits (x : Ex) (p : Nat) : Ex :=
  let q : Int := x.e + bitLen x.m - p
  let (n, _) := x.roundAt 0 q
  { neg := x.neg, m := n, e := q }

/-- Whether `m` is a power of two. -/
def isPow2 (m : Nat) : Bool := m != 0 && 2 ^ Nat.log2 m = m

/-- floor(2^160 ln 2). -/
def ln2 : Nat := 1013035739299659071135698605846798551586536899366

/-- The sum 1 + t/k + t^2/(k (k+1)) + ... of n terms, in units of 2^-160, for t in the same units. -/
def expTail (t : Nat) : Nat → Nat → Nat
  | 0, _ => 2 ^ 160
  | n + 1, k => 2 ^ 160 + t * expTail t n (k + 1) / (k * 2 ^ 160)

/-- 2^f for a fraction f in units of 2^-160, in units of 2^-160, to about 150 bits. -/
def exp2Frac (f : Nat) : Nat := expTail (f * ln2 / 2 ^ 160) 44 1

/-- 1/x, 1/sqrt x, 2^x and log2 x of a finite value outside the special cases: the true value, with what lies
below its last bit (R296), whether log2 rounds absolutely, and whether the result is exact. -/
def rcpTrue (x : Ex) : Ex :=
  let k := 128 + bitLen x.m
  { neg := x.neg, m := 2 ^ k / x.m, e := -x.e - k, more := 2 ^ k % x.m != 0 }

/-- 1/sqrt x of a positive value. -/
def rsqTrue (x : Ex) : Ex :=
  let odd : Nat := (x.e % 2).toNat
  let m := x.m <<< odd
  let k := 256 + bitLen m + bitLen m % 2
  let r := natSqrt (2 ^ k / m)
  { neg := false, m := r, e := -((x.e - odd) / 2) - (k / 2 : Nat), more := r * r * m != 2 ^ k }

/-- 2^x. Beyond an exponent of 2^20 either way the value is replaced by 2^(±2^20), which every type rounds the
same way. -/
def exp2True (x : Ex) : Ex :=
  if x.e + bitLen x.m > 20 then { neg := false, m := 1, e := if x.neg then -(2 ^ 20) else 2 ^ 20, more := true }
  else
    -- x in units of 2^-160, rounded toward minus infinity
    let t : Int := if -160 ≤ x.e then x.at (-160)
      else
        let s := (-160 - x.e).toNat
        let n : Int := ((x.m >>> s : Nat) : Int)
        if x.neg then -n - (if x.m % 2 ^ s = 0 then 0 else 1) else n
    let k := t / 2 ^ 160
    let f := (t % 2 ^ 160).toNat
    { neg := false, m := exp2Frac f, e := k - 160, more := !(f = 0 && -160 ≤ x.e) }

/-- log2 x of a positive value, in units of 2^-14: exact for a power of two, else with what lies below. -/
def log2True (x : Ex) : Ex :=
  let n : Int := 16384 * x.e + (Nat.log2 (x.m ^ 16384) : Nat)
  let exact := isPow2 x.m
  if 0 ≤ n then { neg := false, m := n.toNat, e := -14, more := !exact }
  else if exact then { neg := true, m := n.natAbs, e := -14 }
  else { neg := true, m := n.natAbs - 1, e := -14, more := true }

/-- The final rounding of an estimate: NX is raised for every result not listed as exact, and a result that overflows under a plain
mode is an infinity whatever the mode's direction (R296). -/
def Fmt.estimate (f : Fmt) (rm : BitVec 3) (y : Ex) (exact : Bool) : Nat × Flags :=
  let (v, fl) := f.round rm y
  if exact && fl = 0 then (v, 0)
  else if fl &&& fOF != 0 then (f.inf y.neg, fOF ||| fNX)
  else (v, fl ||| fNX)

/-- vrcp of one element (R296). -/
def Fmt.vrcp (f : Fmt) (rm : BitVec 3) (a : Nat) : Nat × Flags :=
  match f.val a with
  | .nan _ => (f.nan false, 0)
  | .inf s => (f.pack s 0, 0)
  | .fin x => if x.m = 0 then (f.inf x.neg, fDZ) else f.estimate rm ((rcpTrue x).roundBits 13) (isPow2 x.m)

/-- vrsq of one element (R296). -/
def Fmt.vrsq (f : Fmt) (rm : BitVec 3) (a : Nat) : Nat × Flags :=
  match f.val a with
  | .nan _ => (f.nan false, 0)
  | .inf s => if s then (f.nan false, fNV) else (f.pack false 0, 0)
  | .fin x =>
    if x.m = 0 then (f.inf x.neg, fDZ)
    else if x.neg then (f.nan false, fNV)
    else f.estimate rm ((rsqTrue x).roundBits 13) (isPow2 x.m && (x.e + Nat.log2 x.m) % 2 = 0)

/-- vexp2 of one element (R296). -/
def Fmt.vexp2 (f : Fmt) (rm : BitVec 3) (a : Nat) : Nat × Flags :=
  match f.val a with
  | .nan _ => (f.nan false, 0)
  | .inf s => if s then (f.pack false 0, 0) else (f.inf false, 0)
  | .fin x =>
    if x.m = 0 then f.round rm { neg := false, m := 1, e := 0 }
    else f.estimate rm ((exp2True x).roundBits 13) (0 ≤ x.e || x.m % 2 ^ (-x.e).toNat = 0)

/-- vlog2 of one element (R296). -/
def Fmt.vlog2 (f : Fmt) (rm : BitVec 3) (a : Nat) : Nat × Flags :=
  match f.val a with
  | .nan _ => (f.nan false, 0)
  | .inf s => if s then (f.nan false, fNV) else (f.inf false, 0)
  | .fin x =>
    if x.m = 0 then (f.inf true, fDZ)
    else if x.neg then (f.nan false, fNV)
    else
      let y := log2True x
      let (n, _) := y.roundAt 0 (-13)
      let e : Ex := if y.m < 2 ^ 14 then { neg := y.neg, m := n, e := -13 } else y.roundBits 13
      f.estimate rm e (isPow2 x.m)

/-- vrfn (`half` clear) and vrfs (`half` set) of one element (R297). -/
def Fmt.refine (f : Fmt) (rm : BitVec 3) (half : Bool) (a b : Nat) : Nat × Flags :=
  match f.val a, f.val b with
  | .nan _, _ => (f.nan false, 0)
  | _, .nan _ => (f.nan false, 0)
  | _, .inf s => (f.inf s, 0)
  | x, .fin e =>
    if e.m = 0 then (f.pack e.neg 0, 0)
    else
      let invalid := half && x.sign && !x.isZero
      if invalid then (f.nan false, fNV)
      else match x with
        | .nan _ => (f.nan false, 0)
        | .inf s => (f.pack s 0, 0)
        | .fin x =>
          if x.m = 0 then (f.inf x.neg, fDZ)
          else
            let one : Ex := { neg := false, m := 1, e := 0 }
            let xe := if half then (x.mul e).mul e else x.mul e
            let d := one.add xe.negate false
            let c := e.mul d
            let c := if half then { c with e := c.e - 1 } else c
            f.round rm (e.add c (rm.extractLsb' 0 2 = 3#2))

/-! ### The four-bit families and their scale (R63 to R71) -/

/-- The element value of a code in a family (0 INT4, 1 E2M1, 2 P4, 3 H4), in halves (R63); the second
component is the sign of a zero. -/
def codeMag (family code : Nat) : Nat :=
  match family with
  | 0 => if code < 8 then 2 * code else 2 * (16 - code)
  | 1 => match code % 8 with
    | 0 => 0 | 1 => 1 | 2 => 2 | 3 => 3 | 4 => 4 | 5 => 6 | 6 => 8 | _ => 12
  | 2 => match code % 8 with
    | 0 => 0 | n => 2 * 2 ^ (n - 1)
  | _ => match code % 8 with
    | 0 => 0 | 1 => 2 | 2 => 4 | 3 => 6 | 4 => 8 | 5 => 12 | 6 => 16 | _ => 24

/-- The sign of a code: INT4 has no minus zero (R63). -/
def codeNeg (family code : Nat) : Bool := 8 ≤ code && !(family = 0 && code = 0)

/-- The element maximum of a family (R63). -/
def elemMax (family : Nat) : Nat :=
  match family with
  | 0 => 7 | 1 => 6 | 2 => 64 | _ => 12

/-- emax of a family (R63). -/
def elemEmax (family : Nat) : Nat :=
  match family with
  | 0 => 2 | 1 => 2 | 2 => 6 | _ => 3

/-- A scale word (R65) from its fields. -/
def scaleWord (family exp mant : Nat) : BitVec 20 := BitVec.ofNat 20 (family * 2 ^ 18 + exp * 2 ^ 10 + mant)

/-- TYPE, EXP and MANT of a scale word (R65). -/
def scaleType (sw : BitVec 20) : Nat := (sw.extractLsb' 18 2).toNat
/-- EXP (R65). -/
def scaleExp (sw : BitVec 20) : Nat := (sw.extractLsb' 10 8).toNat
/-- MANT (R65). -/
def scaleMant (sw : BitVec 20) : Nat := (sw.extractLsb' 0 10).toNat

/-- The value of a code under a scale word, exactly (R63, R65, R66). -/
def codeVal (sw : BitVec 20) (code : Nat) : FVal :=
  let f := scaleType sw
  if scaleExp sw = 0xFF then .nan false
  else if scaleExp sw = 0 && scaleMant sw = 0 then .fin { neg := code = 8 && f != 0, m := 0, e := 0 }
  else .fin { neg := codeNeg f code, m := codeMag f code * (1024 + scaleMant sw), e := (scaleExp sw : Int) - 127 - 11 }

/-- floor(log2 x) of a positive value. -/
def Ex.floorLog2 (x : Ex) : Int := x.e + (Nat.log2 x.m : Nat)

/-- The OCP rule (R69) for a family and the largest magnitude of the block. -/
def scaleOcp (family : Nat) (amax : Ex) : BitVec 20 :=
  if amax.m = 0 then scaleWord family 0 0
  else
    let e := amax.floorLog2 - elemEmax family + 127
    scaleWord family (if e < 1 then 1 else if 254 < e then 0xFE else e.toNat) 0

/-- Delayed scaling (R70) for a family and the ring maximum. -/
def scaleDelayed (family : Nat) (g : FVal) : BitVec 20 :=
  match g with
  | .nan _ => scaleWord family 0xFF 0
  | .inf _ => scaleWord family 0xFE 0x3FF
  | .fin x =>
    -- s = g / emx compared with 2^-126 and 2^127 (1 + 1023/1024): g against emx times them
    let emx : Ex := { neg := false, m := elemMax family, e := 0 }
    let le := fun (a b : Ex) => !(b.lt a)
    if x.m = 0 || le x (emx.mul { neg := false, m := 1, e := -126 }) then scaleWord family 1 0
    else if (emx.mul { neg := false, m := 2047, e := 117 }).lt x then scaleWord family 0xFE 0x3FF
    else
      -- p = floor(log2 s): the largest p with emx 2^p ≤ g
      let p0 := x.floorLog2 - (Nat.log2 (elemMax family) : Nat)
      let p := if le (emx.mul { neg := false, m := 1, e := p0 }) x then p0 else p0 - 1
      -- ceil of (s / 2^p) 1024 = ceil(g 2^(10-p) / emx)
      let sh := x.e + 10 - p
      let num := if 0 ≤ sh then x.m <<< sh.toNat else x.m
      let den := if 0 ≤ sh then elemMax family else elemMax family * 2 ^ (-sh).toNat
      let t := (num + den - 1) / den - 1024
      if t = 1024 then scaleWord family (p + 128).toNat 0 else scaleWord family (p + 127).toNat t

/-- The points of a family's extended grid above zero, in halves, with the code of each (R71): the last is the
point beyond the end. -/
def gridUp (family : Nat) : List (Nat × Nat) :=
  match family with
  | 0 => [(0, 0), (2, 1), (4, 2), (6, 3), (8, 4), (10, 5), (12, 6), (14, 7), (16, 16)]
  | 1 => [(0, 0), (1, 1), (2, 2), (3, 3), (4, 4), (6, 5), (8, 6), (12, 7), (16, 16)]
  | 2 => [(0, 0), (2, 1), (4, 2), (8, 3), (16, 4), (32, 5), (64, 6), (128, 7), (256, 16)]
  | _ => [(0, 0), (2, 1), (4, 2), (6, 3), (8, 4), (12, 5), (16, 6), (24, 7), (32, 16)]

/-- The magnitudes below zero; INT4 has -8 as its end and -9 beyond, which counts as a code with bit 0 set. -/
def gridDown (family : Nat) : List (Nat × Nat) :=
  match family with
  | 0 => [(0, 0), (2, 1), (4, 2), (6, 3), (8, 4), (10, 5), (12, 6), (14, 7), (16, 8), (18, 17)]
  | _ => gridUp family

/-- The point of a grid that a magnitude num/den (in halves) rounds to, and whether it was inexact (R71). A
magnitude past the last point takes the last. -/
def gridRound (rm : BitVec 3) (neg : Bool) (num den : Nat) : List (Nat × Nat) → Nat × Bool
  | [] => (0, true)
  | [(_, c)] => (c, true)
  | (g, c) :: (h, d) :: t =>
    if num = g * den then (c, false)
    else if num = h * den then (d, false)
    else if num < h * den then
      let half := compare (2 * num) ((g + h) * den)
      (if roundsUp rm neg (c % 2 = 1) false half then d else c, true)
    else gridRound rm neg num den ((h, d) :: t)

/-- One element quantised under a scale word (R71, R79): its code and flags. -/
def quantise (rm : BitVec 3) (sw : BitVec 20) (v : FVal) : Nat × Flags :=
  let fam := scaleType sw
  let beyond := if rmSat rm then fSAT ||| fNX else fOF ||| fNX
  let top := fun (neg : Bool) => if neg then (if fam = 0 then 8 else 15) else 7
  match v with
  | .nan _ => (0, 0)
  | .inf s => if scaleExp sw = 0xFF then (0, 0) else (top s, fOF)
  | .fin x =>
    if scaleExp sw = 0xFF then (0, 0)
    else if x.m = 0 then (if x.neg && fam != 0 then 8 else 0, 0)
    else
      -- x / scale in halves: x.m 2^x.e 2 / ((1024 + MANT) 2^(EXP - 137))
      let sh := x.e + 1 - ((scaleExp sw : Int) - 137)
      let num := if 0 ≤ sh then x.m <<< sh.toNat else x.m
      let den := if 0 ≤ sh then 1024 + scaleMant sw else (1024 + scaleMant sw) * 2 ^ (-sh).toNat
      let (c, inexact) := gridRound rm x.neg num den (if x.neg then gridDown fam else gridUp fam)
      if 16 ≤ c then (top x.neg, beyond)
      else
        let code := if x.neg then (if fam = 0 then (16 - c) % 16 else 8 + c) else c
        (code, if inexact then (if c = 0 then fUF ||| fNX else fNX) else 0)

end Sys2Proof.Machine
end

