-- ==== Sys2Proof/Machine/Flags.lean ====
section
/-! DEFINITION. The flags of floating-point results and their traps (R77, R78, R102). -/

namespace Sys2Proof.Machine

open Sys2Proof

/-- Flags set by OR (R78). -/
def Core.orFlags (k : Core) (fl : Flags) : Core := { k with fflags := k.fflags ||| fl }

/-- A floating-point result: the flags are raised and the register is written, unless an enabled flag traps FPE,
which writes neither (R102). -/
def State.fpResult (s : State) (d : BitVec 5) (v : Word) (fl : Flags) : State :=
  if fl &&& s.me.fpen != 0 then s.trap 0x13 (Word.of fl.toNat)
  else s.modMe fun k => { (k.put d v).orFlags fl with pc := k.pc + 4 }

end Sys2Proof.Machine
end

