-- ==== Sys2Proof/Machine/Bank.lean ====
section
/-! DEFINITION. What a bank does with a word: writes with poison and watches (R222, R260, R261, R265), the functions of
`amo` (R262), counter additions (R265), rounds of deterministic addition (R268 to R270), the night log (R409). -/

namespace Sys2Proof.Machine

open Sys2Proof

/-! ### Writes -/

/-- The group word after a write of some of its slots (R138); bits [63:60] are written zero (R67). -/
def mergeSlots (slots : BitVec 3) (old new : Nat) : Nat :=
  (List.range 3).foldl (fun v i =>
    v + (if slots.getLsbD i then new else old) / 2 ^ (20 * i) % 2 ^ 20 * 2 ^ (20 * i)) 0

/-- Scale slots written by a unit at a group's home (R138): all three replace the word; fewer are a read-modify-write, which
leaves a poisoned word poisoned (R260). -/
def State.slotsAt (s : State) (pa : Nat) (slots : BitVec 3) (v src x : Nat) : State :=
  if slots = 7 then s.bankWrite pa 8 (mergeSlots 7 0 v) src x
  else
    let s := s.correct pa 8 false
    let bad := s.poisoned pa 8
    let s := s.bankWrite pa 8 (mergeSlots slots (s.readMem pa 8) v) src x
    if bad then
      ((s.addPoison pa).logAt (s.homeUnit pa).1 2 (s.homeUnit pa).2 0 x (Word.of pa) (Word.of src)).note
        (s.homeUnit pa).1 x 9 (Word.of pa) (Word.of src) 0
    else s

/-- A store of a core's request written at its home by `write`, and noted as performed for no class but C, with the bytes that stood there
(R125). What it does to the stores it follows there is left to `State.lagDone`: those are performed for a class when it is. -/
def State.lagAt (s : State) (id : Nat) (r : MReq) (write : State → State) : State :=
  let l : Lag := { id := id, core := r.core, seq := r.seq, pa := r.pa, n := r.bytes, old := s.readMem r.pa r.bytes }
  let t := write { s with lagging := [] }
  ({ t with lagging := s.lagging ++ [l] } : State).modCore r.core fun k => { k with lags := k.lags.set r.seq l.mask }

/-- The classes for which a store of a core, by its sequence number, is not yet performed. -/
def State.lagMask (s : State) (core seq : Nat) : BitVec 5 :=
  s.lagging.foldl (fun m l => if l.core = core && l.seq = seq then m ||| l.mask else m) 0

/-- A core's `lags` brought up to date with the stores that still lag; the words that wait for them go on (R125, R130). -/
def State.relag (s : State) (core seq : Nat) : State :=
  let m := s.lagMask core seq
  (s.modCore core fun k => { k with lags := if m = 0 then k.lags.erase seq else k.lags.set seq m }).kick core

/-- Some of the classes `m`: those that a free value names, or all where it names none of them. -/
def someOf (w : Word) (m : BitVec 5) : BitVec 5 := if w.setWidth 5 &&& m = 0 then m else w.setWidth 5 &&& m

/-- The stores of a list performed for some classes: the one of that number, and with it those it followed at any of its bytes, since a
store performed for a class leaves no read of an earlier value (R125). -/
def lagStep (id : Nat) (done : BitVec 5) : List Lag → List Lag × Option Lag
  | [] => ([], none)
  | l :: t =>
    if l.id = id then ({ l with mask := l.mask &&& ~~~done } :: t, some l)
    else match lagStep id done t with
      | (t, none) => (l :: t, none)
      | (t, some o) => ((if l.meets o then { l with mask := l.mask &&& ~~~done } else l) :: t, some o)

/-- A store becomes performed for some of the classes it is not yet performed for, which ones being a free value; it is noted for the others
until they follow (R125, log 45). -/
def State.lagDone (s : State) (id : Nat) : State :=
  match s.lagging.find? fun l => l.id = id with
  | none => s
  | some l =>
    let (w, s) := s.draw
    let now := (lagStep id (someOf w l.mask) s.lagging).1
    let s := { s with lagging := now.filter fun o => o.mask != 0 }
    let s := if s.lagging.any fun o => o.id = id then s.postLate (.storeAck id) else s
    (now.filter fun o => o.id = id || o.meets l).foldl (fun s o => s.relag o.core o.seq) s

/-- A write of a core's request at a home, with the checkpoint's copy (R390). -/
def State.bankStore (s : State) (r : MReq) (n v : Nat) : State :=
  (s.bankWrite r.pa n v r.core r.ctx).mirror r.ctx r.tick r.pa n

/-- An addition to a counter (R265): none on a poisoned word (R261), else saturating, then its watches. -/
def State.addCounter (s : State) (pa : Nat) (v : Word) : Bool × State :=
  let s := s.correct pa 8 false
  if s.poisoned pa 8 then (false, s)
  else
    let sum := memRead s.mem pa 8 + v.toNat
    (true, (s.writeMem pa 8 (min sum (2 ^ 64 - 1))).testWatches pa)

/-! ### Atomics (R262) -/

/-- A number of `n` bytes read as two's complement. -/
def signedOf (n v : Nat) : Int := if v % 256 ^ n / (256 ^ n / 2) = 1 then (v % 256 ^ n : Int) - 256 ^ n else (v % 256 ^ n : Nat)

/-- f(old, v) of R262 on `n` bytes. -/
def amoFn (fn : BitVec 4) (n old v : Nat) : Nat :=
  match fn.toNat with
  | 0 => (old + v) % 256 ^ n
  | 1 => old &&& v
  | 2 => old ||| v
  | 3 => old ^^^ v
  | 4 => if signedOf n old < signedOf n v then old else v
  | 5 => if signedOf n old < signedOf n v then v else old
  | 6 => min old v
  | 7 => max old v
  | 8 => v
  | 9 => ((fmtD 0).add 0 old v).1
  | 10 => (List.range 4).foldl (fun acc j =>
      acc + ((fmtD 3).add 0 (old / 65536 ^ j % 65536) (v / 65536 ^ j % 65536)).1 * 65536 ^ j) 0
  | _ => (fmtD 0).minMax true old v

/-- Whether the old value of a 4-byte `amo` extends its sign (R262). -/
def amoSigned (fn : BitVec 4) : Bool := fn.toNat ≤ 5 || fn = 8

/-! ### Deterministic addition (R268 to R270) -/

/-- apply(L, t, V) of R269: the sum in memory, its flags, or the mark of a poisoned word. -/
def State.daddApply (s : State) (l : HoldLine) (ty : BitVec 4) (v : Nat) : HoldLine × State :=
  let s := s.correct l.pa l.wd false
  if s.poisoned l.pa l.wd then ({ l with pois := true }, s)
  else
    let old := memRead s.mem l.pa l.wd
    let r : Nat × Flags := if ty = 15 then ((old + v) % 2 ^ 64, 0) else (fmtD ty.toNat).add 0 old v
    ({ l with flags := l.flags ||| r.2 }, (s.writeMem l.pa l.wd r.1).testWatches l.pa)

/-- drain(L) of R269: the entries applied in drain order, then cleared. -/
def State.drainLine (s : State) (l : HoldLine) : HoldLine × State :=
  let r := l.entries.foldl (fun (r : HoldLine × State) e => r.2.daddApply r.1 l.ty e.2) (l, s)
  ({ r.1 with entries := [] }, r.2)

/-- An entry put in drain order: ascending index, then ascending value (R268). -/
def drainInsert (e : Nat × Nat) : List (Nat × Nat) → List (Nat × Nat)
  | [] => [e]
  | f :: t => if e.1 < f.1 || (e.1 = f.1 && e.2 ≤ f.2) then e :: f :: t else f :: drainInsert e t

/-- The open line of a round (R268). -/
def Slice.line (v : Slice) (x pa wd : Nat) : Option HoldLine :=
  v.lines.find? fun l => l.ctx = x && l.pa = pa && l.wd = wd

/-- A line written. -/
def Slice.putLine (v : Slice) (l : HoldLine) : Slice :=
  { v with lines := l :: v.lines.filter fun o => !(o.ctx = l.ctx && o.pa = l.pa && o.wd = l.wd) }

/-- A contribution at its home bank (R269). -/
def State.daddAt (s : State) (x pa wd : Nat) (ty : BitVec 4) (idx v : Nat) : State :=
  let h := s.homeOf pa
  let sl := s.slice h
  let held := (sl.lines.filter fun l => l.holds && bankOf l.pa = bankOf pa).length
  let (l, fresh) := match sl.line x pa wd with
    | some l => (l, false)
    | none => ({ ctx := x, pa := pa, wd := wd, ty := ty, sp := 128 ≤ held, holds := held < 128 }, true)
  let s := if fresh && l.sp then s.modSlice h fun q => { q with spills := q.spills + 1 } else s
  let l := { l with ncon := min (l.ncon + 1) 65535 }
  if !l.sp && l.ty = ty && l.entries.length < 16 then
    s.modSlice h fun q => q.putLine { l with entries := drainInsert (idx, v) l.entries }
  else
    let (l, s) := if l.sp then (l, s)
      else
        let (l, s) := s.drainLine l
        ({ l with sp := true }, s.modSlice h fun q => { q with spills := q.spills + 1 })
    let (l, s) := s.daddApply l ty v
    s.modSlice h fun q => q.putLine l

/-- Whether a contribution just made was applied: its round has spilled. -/
def State.spilledAt (s : State) (x pa wd : Nat) : Bool := match (s.slice (s.homeOf pa)).line x pa wd with
  | some l => l.sp
  | none => false

/-- Whether a seal of a word would drain entries. -/
def State.drainsAt (s : State) (x pa : Nat) : Bool := [4, 8].any fun wd => match (s.slice (s.homeOf pa)).line x pa wd with
  | some l => !l.sp && !l.entries.isEmpty
  | none => false

/-- The status word of a closed round (R270). -/
def HoldLine.status (l : HoldLine) : Word :=
  Word.of ((if l.sp then 2 ^ 63 else 0) + l.ty.toNat * 2 ^ 28 + l.flags.toNat * 2 ^ 16 + l.ncon)

/-- The rounds of a word closed, width 4 then width 8 (R270): the status of the last and whether any was
poisoned. -/
def State.dsealAt (s : State) (x pa : Nat) : (Word × Bool) × State :=
  let h := s.homeOf pa
  [4, 8].foldl (fun (r : (Word × Bool) × State) wd =>
    match (r.2.slice h).line x pa wd with
    | none => r
    | some l =>
      let (l, s) := if l.sp then (l, r.2) else r.2.drainLine l
      ((l.status, r.1.2 || l.pois),
        s.modSlice h fun q => { q with lines := q.lines.filter fun o => !(o.ctx = x && o.pa = pa && o.wd = wd) })) ((0, false), s)

/-! ### Completion of a core's request -/

/-- The other requests of the same word of the core, the reads of scale groups apart, which belong to the rows. -/
def State.siblings (s : State) (id : Nat) (r : MReq) : Bool :=
  s.reqs.any fun p => p.1 != id && p.2.core = r.core && p.2.seq = r.seq && p.2.kind != .group

/-- Entries that the open requests of a word of several rows or words hold: a load entry for four rows, a store
entry for two, one for each command word (R126, R139, R315). -/
def State.openEntries (s : State) (c seq : Nat) : Nat × Nat :=
  let mine := (s.reqs.filter fun p => p.2.core = c && p.2.seq = seq).map Prod.snd
  let rowOf := fun (m : MReq) => match m.dest with
    | .row _ r => r.toNat
    | .reg _ _ _ => 0
    | .none => 0
  let rows := fun (n : Nat) (is : ReqKind → Bool) => ((mine.filter fun m => is m.kind).map (rowOf · / n)).eraseDups.length
  (rows 4 (fun k => k = .rowLoad) + (mine.filter fun m => m.kind = .cmd 0 || m.kind = .cmd 1 || m.kind = .cmd 2).length,
   rows 2 fun k => k != .rowLoad && k != ReqKind.group)

/-- A request done: its entries are freed (R126), and its result is no longer outstanding once no other request of
its word is left. A store that has reached its home is performed for every class a time later that the spec leaves open (R125, log
45). -/
def State.finish (s : State) (id : Nat) (r : MReq) : State :=
  let more := s.siblings id r
  let s := if s.lagging.any fun l => l.id = id then s.postLate (.storeAck id) else s
  let s := { s with reqs := s.reqs.filter fun p =>
    p.1 != id && (more || !(p.2.core = r.core && p.2.seq = r.seq && p.2.kind = ReqKind.group)) }
  if more then
    let n := s.openEntries r.core r.seq
    s.modCore r.core fun k => { k with
      stores := if k.stores.has r.seq then k.stores.set r.seq n.2 else k.stores
      outs := match k.outs.find r.seq with
        | none => k.outs
        | some o => k.outs.set r.seq { o with load := n.1 } }
  else (s.modCore r.core fun k => { k with stores := k.stores.erase r.seq, outs := k.outs.erase r.seq }).kick r.core

/-- A fault found when a result returned (R32). -/
def State.defer (s : State) (c seq : Nat) (t : Trap) : State :=
  s.modCore c fun k => { k with deferred := k.deferred ++ [{ seq := seq, t := t }] }

/-- The fault of an answer's status: POISON for 1, ACCESS with WHY 8 for 2 and 3, WHY 4 for a NAK (R366, R413,
R427). -/
def statusTrap (status : BitVec 4) (ea iaddr : Word) : Trap :=
  if status = 1 then { code := 6, pc := 0, tval := ea, iaddr := some iaddr }
  else { code := 5, pc := 0, tval := ea, iaddr := some iaddr, why := if status = 4 then 4 else 8 }

/-- The first failed row of a list, by row. -/
def lowestBad : List (Nat × BitVec 4 × Word) → Option (Nat × BitVec 4 × Word)
  | [] => none
  | b :: t => match lowestBad t with
    | none => some b
    | some c => if c.1 < b.1 then some c else some b

/-- The fault of a word whose rows or command words came back bad (R139, R315). -/
def badTrap (bad : List (Nat × BitVec 4 × Word)) (iaddr : Word) : Option Trap :=
  match lowestBad bad with
  | none => none
  | some (row, st, va) =>
    if bad.any fun b => b.2.1 = 1 then
      some { code := 6, pc := 0, tval := va, iaddr := some iaddr, row := BitVec.ofNat 6 row }
    else some { code := 5, pc := 0, tval := va, iaddr := some iaddr, why := if st = 4 then 4 else 8 }

/-- A row or command word back: a failure is kept with the word's others, and with the last one the fault is
reported (R32). -/
def State.finishRows (s : State) (id : Nat) (r : MReq) (row : Nat) : State :=
  let o := (s.core r.core).outs.get r.seq { iaddr := 0 }
  let o := if r.status = 0 then o else { o with bad := o.bad ++ [(row, r.status, r.badAt)] }
  let s := s.modCore r.core fun k => { k with outs := if k.outs.has r.seq then k.outs.set r.seq o else k.outs }
  let s := if s.siblings id r then s
    else match badTrap o.bad o.iaddr with
      | none => s
      | some t => s.defer r.core r.seq t
  s.finish id r

end Sys2Proof.Machine
end

