-- ==== Sys2Proof/Machine/Engine.lean ====
section
/-! DEFINITION. What the engines share: the entries of their queues, result elements, and their requests to memory (R41, R141, R163,
R312). -/

namespace Sys2Proof.Machine

open Sys2Proof

/-! ### Elements and entries -/

/-- A result element: ERR, CODE, what the class adds, and SER but in qb (R276, R313, R349). -/
def elemOf (q : Nat) (ser : BitVec 16) (code extra : Nat) : Word :=
  Word.of ((if code = 0 then 0 else 2 ^ 63) + code * 2 ^ 56 + extra + (if q < 2 then ser.toNat * 2 ^ 16 else 0))

/-- The first entry that has not started. -/
def Queue.front (Q : Queue) : Option QEntry := Q.entries.find? fun e => !e.stage.started

/-- The first entry that `is` holds of, changed. -/
def setFirst (is : QEntry → Bool) (f : QEntry → QEntry) : List QEntry → List QEntry
  | [] => []
  | e :: t => if is e then f e :: t else e :: setFirst is f t

/-- The first entry of a queue that `is` holds of, changed. -/
def State.modEntry (s : State) (c q : Nat) (is : QEntry → Bool) (f : QEntry → QEntry) : State :=
  s.modCore c fun k => k.setQueue q { k.queue q with entries := setFirst is f (k.queue q).entries }

/-- The front entry changed. -/
def State.modFront (s : State) (c q : Nat) (f : QEntry → QEntry) : State :=
  s.modEntry c q (fun e => !e.stage.started) f

/-- A core's queues are looked at again: a push that has nothing to release changes nothing else. -/
def State.kickQueues (s : State) (c : Nat) : State := s.post (.pushEntersQueue c 0)

/-- The source id of an engine: the walker's, else the pushing core's (R145). -/
def engineSrc (c q : Nat) : Nat := if q = 1 then 0x900 + c / 16 else c

/-! ### Requests to memory (R141, R146, R163) -/

/-- The core, the queue and the number of the command that a request belongs to, if it is an engine's. -/
def MReq.engine (r : MReq) : Option (Nat × Nat × Nat) := match r.kind with
  | .engRead c q uid => some (c, q, uid)
  | .engWrite c q uid _ => some (c, q, uid)
  | _ => none

/-- The walker that a request belongs to, if it is a walker's. -/
def MReq.walker (r : MReq) : Option Nat := match r.engine with
  | some (c, 1, _) => some (c / 16)
  | _ => none

/-- The clusters through whose ports a request's source injects: a core's own, or the four of a walker's router (R141). -/
def MReq.injectors (r : MReq) : List Nat := match r.walker with
  | some i => (List.range 4).map fun p => i * 4 + p
  | none => [r.core / 4]

/-- The bytes of a write cut into lines, each with one home: address, number and value. -/
def linePieces (pa n v : Nat) : List (Nat × Nat × Nat) :=
  if n = 0 then []
  else (List.range ((pa + n - 1) / 64 - pa / 64 + 1)).map fun i =>
    let lo := max pa (64 * (pa / 64 + i))
    let hi := min (pa + n) (64 * (pa / 64 + i + 1))
    (lo, hi - lo, v / 256 ^ (lo - pa) % 256 ^ (hi - lo))

/-- A request of a command, whose walker or core is its source (R145). -/
def QEntry.request (e : QEntry) (c q : Nat) (kind : ReqKind) (pa n : Nat) : MReq :=
  { core := engineSrc c q, seq := e.seq, kind := kind, pa := pa, bytes := n, ctx := e.ctx, issuer := e.issuer, tick := e.tick }

/-- The requests by which a command reads. -/
def QEntry.readReqs (e : QEntry) (c q : Nat) : List MReq :=
  e.reads.flatMap fun a => (linePieces a.1 a.2 0).map fun p => e.request c q (.engRead c q e.uid) p.1 p.2.1

/-- The requests by which a command writes: bytes line by line, scale slots as masked updates (R138). -/
def QEntry.writeReqs (e : QEntry) (c q : Nat) : List MReq :=
  (e.writes.flatMap fun w => (linePieces w.1 w.2.1 w.2.2).map fun p =>
    { e.request c q (.engWrite c q e.uid none) p.1 p.2.1 with row := BitVec.ofNat 512 p.2.2 }) ++
  e.slotWrites.map fun w =>
    { e.request c q (.engWrite c q e.uid (some (BitVec.ofNat 3 w.2.1))) w.1 8 with data := Word.of w.2.2 }

/-- The number of a walker's or a core's next request to a target, and the one after it noted (R163). -/
def State.takeNumber (s : State) (c q t : Nat) : Nat × State :=
  if q = 1 then
    let n := (s.walker (c / 16)).mseqs.get t 0
    (n, s.modWalker (c / 16) fun w => { w with mseqs := w.mseqs.set t (n + 1) })
  else
    let n := (s.core c).mseqs.get t 0
    (n, s.modCore c fun k => { k with mseqs := k.mseqs.set t (n + 1) })

/-- A request of an engine leaves: a walker's through any local port of its router, another's through its cluster's (R141, R163). -/
def State.sendEngine (s : State) (c q : Nat) (r : MReq) : State :=
  let (id, s) := s.newId
  let (n, s) := s.takeNumber c q (s.targetOf r)
  let r := { r with stage := 1, mseq := n, left := r.payloads.length }
  let s := s.setReq id r
  if q = 1 then s.walkerInject (c / 16) (s.reqFlits id r) else s.inject (c / 4) (s.reqFlits id r)

/-- Some requests of an engine leave, in their order. -/
def State.sendEngines (s : State) (c q : Nat) (rs : List MReq) : State := rs.foldl (fun s r => s.sendEngine c q r) s

/-- Work of a running command is done: with the last of it the drain addition is made, or the command completes (R352). -/
def State.workDone (s : State) (c q uid : Nat) (f : QEntry → QEntry) : State :=
  let is := fun (e : QEntry) => e.stage = .running && e.uid = uid && !e.marker
  let s := s.modEntry c q is fun e => { f e with openWork := e.openWork - 1 }
  match ((s.core c).queue q).entries.find? is with
  | none => s
  | some e =>
    if e.openWork != 0 then s
    else if e.drain.isSome then s.post (.drainAddition c e.ser)
    else s.postIn (e.due - s.cycle) (.engineCommandComplete c (BitVec.ofNat 2 q) e.ser)

/-- A command that a target's refusal ends (R427): CODE ACCESS, no addition, and what it has not yet written it does not write. -/
def QEntry.refused (q : Nat) (e : QEntry) : QEntry :=
  { e with elem := elemOf q e.ser 3 0, sigPa := none, drain := none, writes := [], slotWrites := [] }

/-- The answer to a request of an engine is back. Poison that a read meets has been found where its bytes were taken (log 16). -/
def State.engineAnswered (s : State) (id : Nat) (r : MReq) : State :=
  let s := { s with reqs := s.reqs.erase id }
  match r.engine with
  | none => s
  | some (c, q, uid) => s.workDone c q uid fun e => if 2 ≤ r.status.toNat then e.refused q else e

end Sys2Proof.Machine
end

