-- ==== Sys2Proof/Machine/Loads.lean ====
section
/-! DEFINITION. Scalar loads and stores, acquire, release and fence (R127 to R134), and the steps at banks and cores
that complete them. -/

namespace Sys2Proof.Machine

open Sys2Proof

/-! ### Words -/

/-- A load of `n` bytes into s[d] (R127), with the mask of an acquire (R130). -/
def load (i : Instr) (d : BitVec 5) (n : Nat) (signed : Bool) (ea : Core → Word) (acq : BitVec 5) (s : State) :
    Result State :=
  word i (fun s =>
    let a := ea s.me
    s.access a n .load fun pa w0 s =>
      if s.mustWait pa n 1 0 then s.stall
      else
        (s.issue { core := 0, seq := 0, kind := .load, pa := pa, bytes := n, dest := .reg d n signed,
                   kpage := w0.fld 6 6 = 1 }
          (some { iaddr := s.me.pc, ea := a, dest := .reg d n signed, acq := acq, load := 1 }) 0 none false).advance) s

/-- A store of the low `n` bytes of s[b] (R127), released for the mask `rel` (R130). -/
def store (i : Instr) (b : BitVec 5) (n : Nat) (ea : Core → Word) (rel : Option (BitVec 5)) (s : State) : Result State :=
  word i (fun s =>
    let a := ea s.me
    s.access a n .store fun pa _ s =>
      if s.mustWait pa n 0 1 then s.stallOn [pa]
      else
        (s.issue { core := 0, seq := 0, kind := .store, pa := pa, bytes := n,
                   data := Word.of (lowBytes (s.me.get b) n) } none 1 rel false).advance) s

/-- 1 byte, sign-extended loaded (R127). -/
def execLdB (w : Bool) (d a : BitVec 5) (i : BitVec 14) (s : State) : Result State :=
  load (.ldB w d a i) d 1 true (fun k => k.ea a i) 0 s

/-- 1 byte, zero-extended loaded (R127). -/
def execLdBz (w : Bool) (d a : BitVec 5) (i : BitVec 14) (s : State) : Result State :=
  load (.ldBz w d a i) d 1 false (fun k => k.ea a i) 0 s

/-- 2 bytes, sign-extended loaded (R127). -/
def execLdH (w : Bool) (d a : BitVec 5) (i : BitVec 14) (s : State) : Result State :=
  load (.ldH w d a i) d 2 true (fun k => k.ea a i) 0 s

/-- 2 bytes, zero-extended loaded (R127). -/
def execLdHz (w : Bool) (d a : BitVec 5) (i : BitVec 14) (s : State) : Result State :=
  load (.ldHz w d a i) d 2 false (fun k => k.ea a i) 0 s

/-- 4 bytes, sign-extended loaded (R127). -/
def execLdW (w : Bool) (d a : BitVec 5) (i : BitVec 14) (s : State) : Result State :=
  load (.ldW w d a i) d 4 true (fun k => k.ea a i) 0 s

/-- 4 bytes, zero-extended loaded (R127). -/
def execLdWz (w : Bool) (d a : BitVec 5) (i : BitVec 14) (s : State) : Result State :=
  load (.ldWz w d a i) d 4 false (fun k => k.ea a i) 0 s

/-- 8 bytes loaded (R127). -/
def execLdD (w : Bool) (d a : BitVec 5) (i : BitVec 14) (s : State) : Result State :=
  load (.ldD w d a i) d 8 false (fun k => k.ea a i) 0 s

/-- The low 1 byte of s[b] stored (R127). -/
def execStB (w : Bool) (b a : BitVec 5) (i : BitVec 14) (s : State) : Result State :=
  store (.stB w b a i) b 1 (fun k => k.ea a i) none s

/-- The low 2 bytes of s[b] stored (R127). -/
def execStH (w : Bool) (b a : BitVec 5) (i : BitVec 14) (s : State) : Result State :=
  store (.stH w b a i) b 2 (fun k => k.ea a i) none s

/-- The low 4 bytes of s[b] stored (R127). -/
def execStW (w : Bool) (b a : BitVec 5) (i : BitVec 14) (s : State) : Result State :=
  store (.stW w b a i) b 4 (fun k => k.ea a i) none s

/-- The low 8 bytes of s[b] stored (R127). -/
def execStD (w : Bool) (b a : BitVec 5) (i : BitVec 14) (s : State) : Result State :=
  store (.stD w b a i) b 8 (fun k => k.ea a i) none s

/-- ld.acq: 8 bytes; later words of the masked kinds wait until it has returned (R130). -/
def execLdAcq (w : Bool) (d a k : BitVec 5) (o : BitVec 9) (s : State) : Result State :=
  load (.ldAcq w d a k o) d 8 false (fun q => q.ea9 a o) k s

/-- st.rel: 8 bytes, leaving once every earlier load has returned and every earlier store is performed for its mask (R130). -/
def execStRel (w : Bool) (b a k : BitVec 5) (o : BitVec 9) (s : State) : Result State :=
  store (.stRel w b a k o) b 8 (fun q => q.ea9 a o) (some k) s

/-- fence.full: every earlier load has returned and every earlier store is performed for its mask (R132). -/
def execFenceFull (w : Bool) (k : BitVec 5) (s : State) : Result State :=
  word (.fenceFull w k) (fun s => if s.me.released s.me.seq k then s.advance else s.stall) s

/-- fence.acq: every earlier load has returned (R132). -/
def execFenceAcq (w : Bool) (k : BitVec 5) (s : State) : Result State :=
  word (.fenceAcq w k) (fun s => if s.me.loads = 0 then s.advance else s.stall) s

/-- fence.rel: later words issue at once, and what R132 lists is held until the fence's condition (R132). -/
def execFenceRel (w : Bool) (k : BitVec 5) (s : State) : Result State :=
  word (.fenceRel w k) (fun s => s.modMe fun q => { q with
    relFence := q.seq, relAll := Vector.ofFn fun i => if k.getLsbD i.val then q.seq else q.relAll[i], pc := q.pc + 4 }) s

/-- A held store, atomic or row leaves its core once its release condition holds (R130, R132). -/
def execStRelStoreLeaves (core seq : Nat) (s : State) : Result State :=
  .next (
    let k := s.core core
    match k.held.find seq with
    | some { what := .request _, bound := b, mask := m, fence := g } =>
      if k.mayLeave b m g then (s.setCore core { k with held := k.held.erase seq }).leave core seq else s
    | _ => s)

/-! ### At the bank -/

/-- An answer with its status and data on its way to the core. -/
def State.answer (s : State) (id : Nat) (r : MReq) (status : BitVec 4) (data : Word) : State :=
  s.sendRsp id { r with status := status, data := data }

/-- A line of a cluster's constant cache (R124). -/
def Cluster.cached (k : Cluster) (x line : Nat) : Option Row :=
  (k.ccache.find? fun e => e.1 = x && e.2.1 = line).map fun e => e.2.2

/-- The constant cache filled: 1,024 lines, the oldest leaving (R124, log 11). -/
def State.fillCache (s : State) (cl x line : Nat) : State :=
  if s.poisoned (line * 64) 64 then s
  else s.modCluster cl fun k => { k with
    ccache := ((x, line, s.readRow (line * 64)) :: k.ccache.filter fun e => !(e.1 = x && e.2.1 = line)).take 1024 }

/-- Whether a read is answered with one word. -/
def scalarRead : ReqKind → Bool
  | .load => true
  | .group => true
  | _ => false

/-- A row or command word answered (R139, R315): its bytes, or the failure. -/
def State.rowAnswer (s : State) (id : Nat) (r : MReq) (status : BitVec 4) (row : Row) : State :=
  s.sendRsp id { r with status := status, row := if status = 0 then row else r.row }

/-- A read answered with the `r.bytes` bytes `v`. -/
def State.readDone (s : State) (id : Nat) (r : MReq) (v : Nat) : State :=
  if scalarRead r.kind then s.answer id r 0 (Word.of v) else s.rowAnswer id r 0 (BitVec.ofNat 512 v)

/-- A refusal of a read. -/
def State.refuse (s : State) (id : Nat) (r : MReq) (status : BitVec 4) : State :=
  if scalarRead r.kind then s.answer id r status 0 else s.rowAnswer id r status 0

/-- A store refused by a peer or the host link: the note PSTORE (R128). R128 and R363 do not say which address it names: the model gives
the physical one (DESIGN CHOICE, log 130). -/
def State.refusedStore (s : State) (r : MReq) : State :=
  s.note (routerOfSrc r.core) r.ctx 13 (Word.of r.core) (Word.of r.pa) 0

/-- Whether a request is a posted store, of which a refusal is noted (R128). -/
def MReq.posts (r : MReq) : Bool := match r.kind with
  | .store => true
  | .rowStore => true
  | .scale _ => true
  | .load | .group | .amo _ _ | .cas _ | .rowLoad | .cadd | .dadd _ | .dseal | .cmd _ | .engRead _ _ _ | .engWrite _ _ _ _ => false

/-- A request that its target refuses, or has accepted and cannot complete: the answer carries the status, and a posted store is noted
(R128, R427). -/
def State.failAt (s : State) (id : Nat) (r : MReq) (status : BitVec 4) : State :=
  if scalarRead r.kind || r.isRow then s.refuse id r status
  else match r.kind with
    | .store => (s.refusedStore r).answer id r status 0
    | .rowStore => (s.refusedStore r).answer id r status 0
    | .scale _ => (s.refusedStore r).answer id r status 0
    | _ => s.answer id r status 0

/-- Whether a request is an engine's read. -/
def engineReads : ReqKind → Bool
  | .engRead _ _ _ => true
  | _ => false

/-- Whether a request is an engine's write. -/
def engineWrites : ReqKind → Bool
  | .engWrite _ _ _ _ => true
  | _ => false

/-- A request whose flits are at its target, applied there in its source's order (R163): `go` applies it; one that is ahead
of its predecessors stays in the reorder store, and one that is not of this kind, or not on its way, changes nothing. It waits for a
window switch (R254) and for a link that retrains (R405), and fails behind a link that is DOWN (R427). -/
def State.atTarget (s : State) (id : Nat) (is : ReqKind → Bool) (again : Event) (go : MReq → State → State) : State :=
  match s.reqs.find id with
  | none => s
  | some r =>
    if !(is r.kind && r.stage = 1) then s
    else if !s.inOrder r then s.postIn 1 again
    else if s.heldOff r.pa then s.postIn 64 again
    else if s.cutOff r.pa then s.failAt id r 3
    else go r (s.correct r.pa r.bytes (r.kind = .store || r.kind = .rowStore || engineWrites r.kind))

/-- Whether a request is a 32-byte read of a command word (R315). -/
def isCmd : ReqKind → Bool
  | .cmd _ => true
  | _ => false

/-- The bytes of a read answered when nothing refuses them: a K page's line fills the constant cache (R124). -/
def State.readAnswer (s : State) (id : Nat) (r : MReq) : State :=
  let s := if r.kpage then s.fillCache (r.core / 4) r.ctx (r.pa / 64) else s
  if s.poisoned r.pa r.bytes then s.refuse id r 1 else s.readDone id r (s.readMem r.pa r.bytes)

/-- A load, row load, scale group or command word at its home (R127, R139, R146, R315): from the constant cache on a hit
(R124); a host load waits for its completion (R415). -/
def State.readAt (s : State) (id : Nat) (r : MReq) : State :=
  match (if r.kpage then (s.cluster (r.core / 4)).cached r.ctx (r.pa / 64) else none) with
  | some row => s.readDone id r (row.toNat / 256 ^ (r.pa % 64) % 256 ^ r.bytes)
  | none =>
    match region r.pa with
    | .host => (s.postIn 2400 (.pcieCompletionArrival id 0)).postIn 150000 (.pcieCompletionTimeout id)
    | .reduction _ _ => s.refuse id r 2
    | _ => if !s.physOk r.pa then s.refuse id r 2 else s.readAnswer id r

/-- A load, the read of a scale group, or a command word's read, at its home (R127, R146, R315). -/
def execBankLoad (id : Nat) (s : State) : Result State :=
  .next (s.atTarget id (fun k => scalarRead k || isCmd k || engineReads k) (.bankLoad id) fun r s => s.readAt id r)

/-- The bytes of a reduction window (R424). -/
def Window.size (q : Window) : Nat := 64 * (q.desc.getD 1 0).fld 63 40
/-- Whether a window's masks name a device (R424). -/
def Window.names (q : Window) (dev : Nat) : Bool := (q.desc.getD (2 + dev / 64 % 4) 0).getLsbD (dev % 64)

/-- Whether a store of this device to a reduction window is a contribution (R424). -/
def State.windowTakes (s : State) (w off : Nat) : Bool :=
  match s.windows.find w with
  | none => false
  | some q => decide (off < q.size) && q.names s.domid.toNat

/-- `n` bytes sent to a reduction window under its generation, 64 at a time (R424). -/
def State.contribute (s : State) (w off n v : Nat) : State :=
  let gen := match s.windows.find w with
    | some q => BitVec.ofNat 2 ((q.desc.getD 0 0).fld 55 54)
    | none => 0
  (List.range ((n + 63) / 64)).foldl (fun s j =>
    s.post (.reductionContribution w s.domid.toNat (off + 64 * j) (min 64 (n - 64 * j)) gen (BitVec.ofNat 512 (v / 256 ^ (64 * j))))) s

/-- Whether an address is homed in this device, where its engines read it: HBM, a window or a scratchpad. -/
def homed (pa : Nat) : Bool := match region pa with
  | .hbm => true
  | .window _ _ => true
  | .scratch _ => true
  | _ => false

/-- A store, row store or scale-slot write at its target, `write` being what it writes: one to the core's own
scratchpad needs no acknowledgement (R126); a contribution goes to its window (R424); a refused one is noted (R128). -/
def State.storeAt (s : State) (id : Nat) (r : MReq) (v : Row) (write : State → State) : State :=
  let write := fun (s : State) => if homed r.pa then s.lagAt id r write else write s
  match region r.pa with
  | .reduction w off =>
    if s.windowTakes w off then (s.contribute w off r.bytes v.toNat).answer id r 0 0 else (s.refusedStore r).answer id r 2 0
  | .scratch cl => if cl = r.core / 4 then (write s).finish id r else (write s).answer id r 0 0
  | .peer _ => if s.physOk r.pa then (write s).answer id r 0 0 else (s.refusedStore r).answer id r 2 0
  | _ => if s.physOk r.pa then (write s).answer id r 0 0 else s.answer id r 2 0

/-- A write of an engine at its target: scale slots as a masked update (R138), a contribution where it lies in a reduction window (R347,
R424); it is acknowledged, or refused (R427). -/
def State.engineAt (s : State) (id : Nat) (r : MReq) (slots : Option (BitVec 3)) : State :=
  match region r.pa with
  | .reduction w off =>
    if s.windowTakes w off then (s.contribute w off r.bytes r.row.toNat).answer id r 0 0 else s.answer id r 2 0
  | _ =>
    if !s.physOk r.pa then s.answer id r 2 0
    else
      let s := match slots with
        | none => s.bankWrite r.pa r.bytes r.row.toNat r.core r.ctx
        | some m => s.slotsAt r.pa m r.data.toNat r.core r.ctx
      (s.mirror r.ctx r.tick r.pa r.bytes).answer id r 0 0

/-- A store of a core, or a write of an engine, at its home (R127, R128, R260). -/
def execBankStore (id : Nat) (s : State) : Result State :=
  .next (s.atTarget id (fun k => k = .store || engineWrites k) (.bankStore id) fun r s => match r.kind with
    | .engWrite _ _ _ slots => s.engineAt id r slots
    | _ => s.storeAt id r (BitVec.ofNat 512 r.data.toNat) fun s => s.bankStore r r.bytes r.data.toNat)

/-! ### At the core -/

/-- An answer at its core: the fault is deferred, or the result is written; the request is done (R30, R32). A core that a
containment reset has cleared takes neither (R412). -/
def State.returned (s : State) (id : Nat) (r : MReq) : State :=
  let k := s.core r.core
  let o := k.outs.get r.seq { iaddr := k.pc, ea := Word.of r.pa }
  let s := if !k.outs.has r.seq then s
    else if r.status != 0 then s.defer r.core r.seq (statusTrap r.status o.ea o.iaddr)
    else match r.dest with
      | .reg d n sg => s.modCore r.core fun k => k.put d (extendBytes n sg r.data.toNat)
      | _ => s
  s.finish id r

/-- A command word's bytes at its core (R315): the words are known, and may enter, once all have returned; when one failed,
every entry of the `pushm` is freed then. -/
def State.cmdReturned (s : State) (id : Nat) (r : MReq) (q : BitVec 2) : State :=
  let ser := r.data2.setWidth 16
  let last := !s.siblings id r
  let failed := r.status != 0 || !((s.core r.core).outs.get r.seq { iaddr := 0 }).bad.isEmpty
  let s := s.finishRows id r 0
  let s := s.modCore r.core fun k =>
    let Q := k.queue q.toNat
    let mine := fun (e : QEntry) => !e.marker && e.seq = r.seq && e.multi
    let got := fun (e : QEntry) =>
      if mine e then { e with cw := if e.ser = ser then r.row.setWidth 256 else e.cw, known := last } else e
    if last && failed then
      { k.setQueue q.toNat { Q with entries := Q.entries.filter fun e => !mine e } with held := k.held.erase r.seq }
    else k.setQueue q.toNat { Q with entries := Q.entries.map got }
  s.post (.pushEntersQueue r.core r.seq)

/-- The answer of a load, atomic, counter addition or seal, or a command word's bytes, reaches its core; that of an engine's read its
engine. -/
def execLoadResponse (id : Nat) (s : State) : Result State :=
  .next (match s.reqs.find id with
    | none => s
    | some r =>
      if r.stage != 2 then s
      else match r.kind with
        | .load => s.returned id r
        | .amo _ _ => s.returned id r
        | .cas _ => s.returned id r
        | .cadd => s.returned id r
        | .dseal => s.returned id r
        | .cmd q => s.cmdReturned id r q
        | .engRead _ _ _ => s.engineAnswered id r
        | .engWrite _ _ _ _ => s
        | .store => s
        | .rowLoad => s
        | .rowStore => s
        | .dadd _ => s
        | .group => s
        | .scale _ => s)

/-- The acknowledgement of an engine's write reaches its engine (R427); that of a store its core: it is performed for cores (R125, R126); later, it is performed for every class. -/
def execStoreAck (id : Nat) (s : State) : Result State :=
  .next (match s.reqs.find id with
    | none => s.lagDone id
    | some r =>
      if r.stage = 2 && engineWrites r.kind then s.engineAnswered id r
      else if r.stage = 2 && (match r.kind with
        | .store => true | .rowStore => true | .scale _ => true | .dadd _ => true
        | .load => false | .rowLoad => false | .cmd _ => false | .group => false | .amo _ _ => false | .cas _ => false | .cadd => false | .dseal => false
        | .engRead _ _ _ => false | .engWrite _ _ _ _ => false)
      then s.finish id r else s)

/-- A completion of an access to host memory, to a peer or to a reduction window that is under way (R128, R415, R427): status 0 gives a
load its bytes; 2 and 3 fail it. -/
def execPcieCompletionArrival (id : Nat) (status : BitVec 4) (s : State) : Result State :=
  .next (match s.reqs.find id with
    | none => s
    | some r =>
      let outside := match region r.pa with
        | .host => true
        | .peer _ => true
        | .reduction _ _ => true
        | _ => false
      if !(r.stage = 1 && outside) then s
      else if status != 0 then s.failAt id r status
      else if scalarRead r.kind || r.isRow then s.readAnswer id r else s)

/-- A PCIe completion that does not come: status 3 (R427). -/
def execPcieCompletionTimeout (id : Nat) (s : State) : Result State := execPcieCompletionArrival id 3 s

/-- A walk of a core's context for an address: it fills the TLBs (R119, R121). -/
def execTranslationWalk (core : Nat) (va : Word) (kind : Access) (s : State) : Result State :=
  .next (s.translate core va kind).2

end Sys2Proof.Machine
end

