-- ==== Sys2Proof/Machine/Atomics.lean ====
section
/-! DEFINITION. Atomics, counters and deterministic addition (R262 to R272). -/

namespace Sys2Proof.Machine

open Sys2Proof

/-- A word that acts at a bank on `n` bytes at s[a] (R258, R262): checks, translation as a load and a store, the
region, then its request. -/
def atomicWord (i : Instr) (a : BitVec 5) (n : Nat) (peer : Bool) (loads stores : Nat)
    (go : Nat → Word → State → State) (s : State) : Result State :=
  word i (fun s =>
    let ea := s.me.get a
    s.access ea n .both fun pa _ s =>
      if !bankRegion pa peer then s.trapWith (xlateTrap 5 8 0 ea)
      else if s.mustWait pa n loads stores then s.stallOn (if stores = 0 then [] else [pa])
      else (go pa ea s).advance) s

/-- amo (R262). -/
def amo (i : Instr) (fn : BitVec 4) (w32 : Bool) (d a b : BitVec 5) (s : State) : Result State :=
  let n := if w32 then 4 else 8
  atomicWord i a n true 1 1 (fun pa ea s =>
    s.issue { core := 0, seq := 0, kind := .amo fn w32, pa := pa, bytes := n,
              data2 := Word.of (lowBytes (s.me.get b) n), dest := .reg d n (amoSigned fn) }
      (some { iaddr := s.me.pc, ea := ea, dest := .reg d n (amoSigned fn), load := 1 }) 1 none false) s

/-- amo.add (R262). -/
def execAmoAdd (w : Bool) (d a b : BitVec 5) (h : BitVec 1) (s : State) : Result State :=
  amo (.amoAdd w d a b h) 0 (h = 1) d a b s

/-- amo.and (R262). -/
def execAmoAnd (w : Bool) (d a b : BitVec 5) (h : BitVec 1) (s : State) : Result State :=
  amo (.amoAnd w d a b h) 1 (h = 1) d a b s

/-- amo.or (R262). -/
def execAmoOr (w : Bool) (d a b : BitVec 5) (h : BitVec 1) (s : State) : Result State :=
  amo (.amoOr w d a b h) 2 (h = 1) d a b s

/-- amo.xor (R262). -/
def execAmoXor (w : Bool) (d a b : BitVec 5) (h : BitVec 1) (s : State) : Result State :=
  amo (.amoXor w d a b h) 3 (h = 1) d a b s

/-- amo.min (R262). -/
def execAmoMin (w : Bool) (d a b : BitVec 5) (h : BitVec 1) (s : State) : Result State :=
  amo (.amoMin w d a b h) 4 (h = 1) d a b s

/-- amo.max (R262). -/
def execAmoMax (w : Bool) (d a b : BitVec 5) (h : BitVec 1) (s : State) : Result State :=
  amo (.amoMax w d a b h) 5 (h = 1) d a b s

/-- amo.minu (R262). -/
def execAmoMinu (w : Bool) (d a b : BitVec 5) (h : BitVec 1) (s : State) : Result State :=
  amo (.amoMinu w d a b h) 6 (h = 1) d a b s

/-- amo.maxu (R262). -/
def execAmoMaxu (w : Bool) (d a b : BitVec 5) (h : BitVec 1) (s : State) : Result State :=
  amo (.amoMaxu w d a b h) 7 (h = 1) d a b s

/-- amo.swap (R262). -/
def execAmoSwap (w : Bool) (d a b : BitVec 5) (h : BitVec 1) (s : State) : Result State :=
  amo (.amoSwap w d a b h) 8 (h = 1) d a b s

/-- amo.FaddF32 (R262). -/
def execAmoFaddF32 (w : Bool) (d a b : BitVec 5) (s : State) : Result State := amo (.amoFaddF32 w d a b) 9 true d a b s

/-- amo.FaddBf16 (R262). -/
def execAmoFaddBf16 (w : Bool) (d a b : BitVec 5) (s : State) : Result State := amo (.amoFaddBf16 w d a b) 10 false d a b s

/-- amo.FmaxF32 (R262). -/
def execAmoFmaxF32 (w : Bool) (d a b : BitVec 5) (s : State) : Result State := amo (.amoFmaxF32 w d a b) 11 true d a b s

/-- cas (R264). -/
def cas (i : Instr) (w32 : Bool) (d a b c : BitVec 5) (s : State) : Result State :=
  let n := if w32 then 4 else 8
  atomicWord i a n true 1 1 (fun pa ea s =>
    s.issue { core := 0, seq := 0, kind := .cas w32, pa := pa, bytes := n, data := Word.of (lowBytes (s.me.get b) n),
              data2 := Word.of (lowBytes (s.me.get c) n), dest := .reg d n true }
      (some { iaddr := s.me.pc, ea := ea, dest := .reg d n true, load := 1 }) 1 none false) s

/-- cas.i64 (R264). -/
def execCasI64 (w : Bool) (d a b c : BitVec 5) (s : State) : Result State := cas (.casI64 w d a b c) false d a b c s

/-- cas.i32 (R264). -/
def execCasI32 (w : Bool) (d a b c : BitVec 5) (s : State) : Result State := cas (.casI32 w d a b c) true d a b c s

/-- dadd: a contribution with the issuer index of s[d], posted (R269). -/
def execDadd (w : Bool) (d a b : BitVec 5) (y : BitVec 4) (s : State) : Result State :=
  let n := if y = 0 then 4 else 8
  atomicWord (.dadd w d a b y) a n false 0 1 (fun pa _ s =>
    s.issue { core := 0, seq := 0, kind := .dadd y, pa := pa, bytes := n, data := Word.of (lowBytes (s.me.get b) n),
              data2 := Word.of (lowBytes (s.me.get d) 2) } none 1 none false) s

/-- cadd: an addition to the counter s[a][15:0], sent once every earlier load has returned and every earlier store
is performed for the classes of its mask (R266). -/
def execCadd (w : Bool) (d a b k : BitVec 5) (s : State) : Result State :=
  word (.cadd w d a b k) (fun s =>
    let hd := BitVec.ofNat 16 (s.me.get a).toNat
    if hd = 0xFFFF then s.result d 0
    else
      let ea := s.me.ctrbase + Word.of (8 * hd.toNat)
      s.access ea 1 .both fun pa _ s =>
        if !bankRegion pa false then s.trapWith (xlateTrap 5 8 0 ea)
        else if s.mustWait pa 8 1 0 || !(s.unpreservedBy s.me pa).isEmpty then s.stallOn [pa]
        else
          let v := s.me.get b
          let s := s.issue { core := 0, seq := 0, kind := .cadd, pa := pa, bytes := 8, data2 := v, dest := .reg d 8 false }
            (some { iaddr := s.me.pc, ea := ea, dest := .reg d 8 false, load := 1 }) 0 (some k) true
          (s.modMe fun q => { q with caddn := if q.caddn = 0xFFFF then q.caddn else q.caddn + 1 }).advance) s

/-- dseal: the round of the word closed (R270). -/
def execDseal (w : Bool) (d a : BitVec 5) (s : State) : Result State :=
  atomicWord (.dseal w d a) a 4 false 1 1 (fun pa ea s =>
    s.issue { core := 0, seq := 0, kind := .dseal, pa := pa, bytes := 8, dest := .reg d 8 false }
      (some { iaddr := s.me.pc, ea := ea, dest := .reg d 8 false, load := 1 }) 1 none false) s

/-- The addition of a `cadd` leaves its core once its release condition holds (R266). -/
def execCaddAdditionSent (core seq : Nat) (s : State) : Result State :=
  .next (
    let k := s.core core
    match k.held.find seq with
    | some { what := .addition _, bound := b, mask := m, fence := g } =>
      if k.mayLeave b m g then (s.setCore core { k with held := k.held.erase seq }).leave core seq else s
    | _ => s)

/-- Whether a request is an `amo`. -/
def isAmo : ReqKind → Bool
  | .amo _ _ => true
  | _ => false

/-- Whether a request is a `cas`. -/
def isCas : ReqKind → Bool
  | .cas _ => true
  | _ => false

/-- Whether a request is a `dadd`. -/
def isDadd : ReqKind → Bool
  | .dadd _ => true
  | _ => false

/-- amo at its home bank, one indivisible step (R253, R262): a poisoned word is unchanged (R261). -/
def execAmoAtBank (id : Nat) (s : State) : Result State :=
  .next (s.atTarget id isAmo (.amoAtBank id) fun r s =>
    match r.kind with
    | .amo fn _ =>
      if !s.physOk r.pa then s.answer id r 2 0
      else if s.poisoned r.pa r.bytes then s.answer id r 1 0
      else
        let old := s.readMem r.pa r.bytes
        (s.bankStore r r.bytes (amoFn fn r.bytes old r.data2.toNat)).answer id r 0 (Word.of old)
    | _ => s)

/-- cas at its home bank (R264): a `cas` that fails writes nothing. -/
def execCasAtBank (id : Nat) (s : State) : Result State :=
  .next (s.atTarget id isCas (.casAtBank id) fun r s =>
    if !s.physOk r.pa then s.answer id r 2 0
    else if s.poisoned r.pa r.bytes then s.answer id r 1 0
    else
      let old := s.readMem r.pa r.bytes
      let s := if old = r.data.toNat then s.bankStore r r.bytes r.data2.toNat else s
      s.answer id r 0 (Word.of old))

/-- A counter addition at its home bank (R265, R266). -/
def execCounterAddAtBank (id : Nat) (s : State) : Result State :=
  .next (s.atTarget id (fun k => k = .cadd) (.counterAddAtBank id) fun r s =>
    if !s.physOk r.pa then s.answer id r 2 0
    else
      let old := s.readMem r.pa 8
      match s.addCounter r.pa r.data2 with
      | (true, s) => (s.mirror r.ctx r.tick r.pa 8).answer id r 0 (Word.of old)
      | (false, s) => s.answer id r 1 0)

/-- dadd at its home bank (R269): held or applied, then acknowledged. -/
def execDaddAtBank (id : Nat) (s : State) : Result State :=
  .next (s.atTarget id isDadd (.daddAtBank id) fun r s =>
    match r.kind with
    | .dadd ty =>
      if !s.physOk r.pa then s.answer id r 2 0
      else
        let s := s.daddAt r.ctx r.pa r.bytes ty r.data2.toNat r.data.toNat
        (if s.spilledAt r.ctx r.pa r.bytes then s.mirror r.ctx r.tick r.pa r.bytes else s).answer id r 0 0
    | _ => s)

/-- dseal at its home bank (R270). -/
def execDsealAtBank (id : Nat) (s : State) : Result State :=
  .next (s.atTarget id (fun k => k = .dseal) (.dsealAtBank id) fun r s =>
    if !s.physOk r.pa then s.answer id r 2 0
    else match s.dsealAt r.ctx r.pa with
      | ((_, true), s) => s.answer id r 1 0
      | ((st, false), t) => (if s.drainsAt r.ctx r.pa then t.mirror r.ctx r.tick r.pa 8 else t).answer id r 0 st)

end Sys2Proof.Machine
end

