-- ==== Sys2Proof/Machine/Branch.lean ====
section
/-! DEFINITION. Branches and jumps (R103 to R106). -/

namespace Sys2Proof.Machine

open Sys2Proof

/-- The pc set; a taken branch or jump has an issue interval of 3 (R85). -/
def State.goto (s : State) (t : Word) : State := s.modMe fun k => { k with pc := t, ready := s.cycle + 3 }

/-- A branch: taken to its target, else to the next word; it writes no register and raises no flag. -/
def branch (i : Instr) (a b : BitVec 5) (o : BitVec 14) (c : Word → Word → Bool) (s : State) : Result State :=
  word i (fun s =>
    if c (s.me.get a) (s.me.get b) then s.goto (branchTarget s.me.pc o) else s.advance) s

/-- beq: taken when A = B (R103). -/
def execBeq (w : Bool) (a b : BitVec 5) (o : BitVec 14) (s : State) : Result State :=
  branch (.beq w a b o) a b o (fun A B => A == B) s

/-- bne: taken when A differs from B (R103). -/
def execBne (w : Bool) (a b : BitVec 5) (o : BitVec 14) (s : State) : Result State :=
  branch (.bne w a b o) a b o (fun A B => A != B) s

/-- blt: taken when signed A < B (R103). -/
def execBlt (w : Bool) (a b : BitVec 5) (o : BitVec 14) (s : State) : Result State :=
  branch (.blt w a b o) a b o (fun A B => A.slt B) s

/-- bge: taken when signed A >= B (R103). -/
def execBge (w : Bool) (a b : BitVec 5) (o : BitVec 14) (s : State) : Result State :=
  branch (.bge w a b o) a b o (fun A B => !(A.slt B)) s

/-- bltu: taken when unsigned A < B (R103). -/
def execBltu (w : Bool) (a b : BitVec 5) (o : BitVec 14) (s : State) : Result State :=
  branch (.bltu w a b o) a b o (fun A B => A.ult B) s

/-- bgeu: taken when unsigned A >= B (R103). -/
def execBgeu (w : Bool) (a b : BitVec 5) (o : BitVec 14) (s : State) : Result State :=
  branch (.bgeu w a b o) a b o (fun A B => !(A.ult B)) s

/-- j (R104). -/
def execJ (w : Bool) (o : BitVec 24) (s : State) : Result State :=
  word (.j w o) (fun s => s.goto (jumpTarget s.me.pc o)) s

/-- jal: s1 := PC + 4 (R104). -/
def execJal (w : Bool) (o : BitVec 24) (s : State) : Result State :=
  word (.jal w o) (fun s =>
    let pc := s.me.pc
    (s.modMe fun k => k.put 1 (pc + 4)).goto (jumpTarget pc o)) s

/-- jalr: s[a] is read before s[d] is written; a target that is not a multiple of 4 traps MISALIGN (R105). -/
def execJalr (w : Bool) (d a : BitVec 5) (i : BitVec 14) (s : State) : Result State :=
  word (.jalr w d a i) (fun s =>
    let t := s.me.ea a i
    let pc := s.me.pc
    if t.fld 1 0 != 0 then s.trap 0x03 t
    else (s.modMe fun k => k.put d (pc + 4)).goto t) s

end Sys2Proof.Machine
end

