-- ==== Sys2Proof/Machine/Tasks.lean ====
section
/-! DEFINITION. Starting, ending and choosing tasks (R88, R206 to R213, R221, R224, R236 to R241, R281): shared
operations of the dispatcher. -/

namespace Sys2Proof.Machine

open Sys2Proof

/-! ### Keys -/

/-- The keys a core's task still holds. -/
def Core.heldKeys (k : Core) : List (BitVec 16) :=
  ((List.range 4).zip k.keyList).filterMap fun p => if k.keys.getLsbD p.1 then some p.2 else none

/-- A flit about a key from a dispatcher to the key's home (R226). -/
def State.aboutKey (s : State) (x cl tag : Nat) (key : BitVec 16) (o : DeskOp)
    (e : Nat → Nat → Nat → Nat → BitVec 16 → Event) : State :=
  s.toDesk (s.deskOf x key) x cl tag key.toNat o (e (s.deskOf x key) x cl tag key)

/-- A release sent to a key's home (R226). -/
def State.sendKrel (s : State) (x cl tag : Nat) (key : BitVec 16) : State := s.aboutKey x cl tag key .krel .deskKrel

/-- A request sent to a key's home (R215, R226). -/
def State.sendKreq (s : State) (x cl tag : Nat) (key : BitVec 16) : State := s.aboutKey x cl tag key .kreq .deskKreq

/-- A WREG sent to the home slice of condition `j` of a task entry (R221, R226). -/
def State.sendWreg (s : State) (cl tag j : Nat) (e : TEntry) (m : Item) : State :=
  match e.watch[j]?.getD none with
  | none => s
  | some pa =>
    let w := recCondWord m.r j
    s.inject cl [deskFlit (flitToSlice (cl * 4) (s.homeOf pa) 9) .wreg e.ctx cl tag (w.fld 15 0) (w.fld 47 16) (Word.of pa)
      (.wregAtSlice cl tag j)]

/-- Every key a task still holds released (R224). -/
def State.releaseKeys (s : State) (k : Core) : State :=
  k.heldKeys.foldl (fun s key => s.sendKrel k.ctx k.entryCluster k.entryTag key) s

/-! ### A core freed -/

/-- The timeline of an ended task leaves RUN, or is freed when it was dying (R171). -/
def State.timelineEnds (s : State) (tl : BitVec 16) : State :=
  if tl = 0xFFFF then s
  else
    let cl := tl.toNat % 1024
    let t := tl.toNat / 1024 % 16
    let v := (s.cluster cl).tls.get t {}
    if v.gen.toNat != tl.toNat / 16384 then s
    else match v.st with
      | TlState.run => (s.modCluster cl fun k => { k with tls := k.tls.set t { v with st := .idle, blocked := none } }).retest cl t
      | .dying => s.freeTimeline cl t
      | _ => s

/-- A release marker in a core's qm behind every command already pushed; REL of what the core owns (R311). -/
def State.placeMarker (s : State) (c : Nat) : State :=
  let s := s.modCore c fun k => { k with
    qm := { k.qm with entries := k.qm.entries ++ [{ marker := true, entered := true, epoch := k.epoch }] } }
  let s := s.modCluster (c / 4) fun q => { q with
    accd := q.accd.map fun (d : AccDesc) => if d.v && d.ocore = c % 4 then { d with rel := true } else d }
  s.post (.releaseMarkerHead c)

/-- A queue whose result elements are discarded (R312). -/
def Queue.discarded (q : Queue) : Queue := { q with fifo := [] }

/-- A core given back to the dispatcher; an INLINE record's slot is freed (R152), a release marker is placed (R311); the ended task's
elements are discarded, so that its commands run on (R312), and a record may take the tag that it kept (R206, R428). -/
def State.freeCore (s : State) (c : Nat) : State :=
  let k := s.core c
  let s := (s.placeMarker c).modCore c fun k => { k with
    run := .free, inline := none, epoch := k.epoch + 1, gang := 0, keys := 0, keyList := [], deferred := [], wdogOn := false
    qm := k.qm.discarded, qw := k.qw.discarded, qb := k.qb.discarded }
  let s := s.posts [.pushEntersQueue c 0, .taskEntry k.entryCluster]
  let s := match k.inline with
    | none => s
    | some (_, i) => s.dropItem (c / 4) i
  s.post (.dispatch (c / 4))

/-! ### Starting -/

/-- The registers and CSRs of a core at handler start (R88, R89, R281): queues, TLB and counters of the core
itself stay. The continuation of a trap handler's `yield` runs in task mode, of whatever class it is (R110 before R88: DESIGN
CHOICE, log 124). -/
def Core.started (k : Core) (cyc : Nat) (x : Ctx) (ctx : Nat) (m : Item) (pc : Word) (tl : BitVec 16) (keys : List (BitVec 16))
    (cl tag : Nat) (gang issuer : BitVec 16) : Core :=
  let r := m.r
  let regs : Vector Word 32 := Vector.ofFn fun i => if 10 ≤ i.val && i.val < 16 then (r[i.val - 8]?).getD 0 else 0
  { k with
    regs := regs, pc := pc, run := .running
    mode := if m.cls = 3 && !m.inTask then .supervisor else .task
    intrap := false, pmode := 0, fpen := x.dfpen, ctx := ctx
    head := r[0], now := r[1], term := r[1], tl := tl, src := BitVec.ofNat 12 m.src
    chan := BitVec.ofNat 12 (if m.tl.isNone then 15 * 256 else m.rank * 256 + m.inSlot)
    gang := gang, issuer := issuer, keyList := keys, keys := BitVec.ofNat 4 (2 ^ keys.length - 1)
    fflags := 0, frm := 0, ctrbase := x.ctrb
    nparam0 := 0, nparam1 := 0, nparam2 := 0, nparam3 := 0, spk := 0
    cause := 0, epc := 0, tval := 0, tinfo := 0, tinfoh := 0, scratch := 0
    budget := x.wdog, budgetAt := cyc, savedBudget := 0, wdogOn := x.wdog != 0
    caddn := 0, pend := 0, arrived := none, arrivedSaved := none, retry := false, entryTag := tag, entryCluster := cl, inline := none
    qm := { k.qm with fifo := [], serial := 0, pops := [] }
    qw := { k.qw with fifo := [], serial := 0, pops := [] }
    qb := { k.qb with fifo := [], serial := 0, pops := [] }
    rows := [], side := [], desc := Vector.replicate 8 {}, badRows := [], badSide := [], softRows := [], softSide := [], badRegs := [], softRegs := [], deferred := [], ready := cyc }

/-- The handler address of a record: HANDLER, or the timeline's default when it is 0 (R213, R194). -/
def State.handlerOf (s : State) (cl : Nat) (m : Item) : Word :=
  let h := recHandler m.r[0]
  match m.tl with
  | none => h
  | some (t, _) => if h = 0 || m.ev then ((s.cluster cl).tls.get t {}).defh else h

/-! ### Entries -/

/-- A task entry changed. -/
def State.setEntry (s : State) (cl tag : Nat) (e : TEntry) : State :=
  s.modCluster cl fun k => { k with entries := k.entries.set tag e }

/-- A task that has its keys and conditions is READY (R207). -/
def State.makeReady (s : State) (cl tag : Nat) (e : TEntry) : State :=
  ((s.setEntry cl tag { e with phase := .ready, ready := s.cycle }).post (.dispatch cl)).postIn 16384
    (.priorityPromotion cl tag)

/-- Conditions in polling mode or registered are withdrawn (R231). -/
def State.cancelWatches (s : State) (cl tag : Nat) (e : TEntry) : State :=
  (List.range 2).foldl (fun s j =>
    match e.watch[j]?.getD none with
    | none => s
    | some pa => s.toDesk (s.homeOf pa) e.ctx cl tag 0 .wcancel (.wcancelAtSlice (s.homeOf pa) cl tag j)) s

/-- The cores of a cluster. -/
def coresOf (cl : Nat) : List Nat := [cl * 4, cl * 4 + 1, cl * 4 + 2, cl * 4 + 3]

/-- Cores held for a gang given back. -/
def State.giveBack (s : State) (cores : List Nat) : State :=
  cores.foldl (fun s c => if (s.core c).run = .held then s.modCore c fun k => { k with run := .free } else s) s

/-- The cores held for a GANG4 given back (R211). -/
def State.unhold (s : State) (cl : Nat) : State :=
  if (s.cluster cl).gang4.isNone then s
  else (s.modCluster cl fun k => { k with gang4 := none }).giveBack (coresOf cl)

/-- A quad hold withdrawn because its record is abandoned: the cores held for it go back, and the next hold in order
is granted (R237). -/
def State.cancelHold (s : State) (cl tag : Nat) : State :=
  let r := routerOfCluster cl
  let R := s.router r
  if !R.holds.contains (cl, tag) then s
  else
    let granted := R.quadHeld && R.holds.head? = some (cl, tag)
    let rest := R.holds.filter (· != (cl, tag))
    let s := s.modRouter r fun x => { x with holds := rest, quadHeld := R.quadHeld && !rest.isEmpty }
    if !granted then s
    else
      (s.giveBack ((List.range 16).map (cl / 4 * 16 + ·))).posts ((List.range 4).map fun p => .dispatch (cl / 4 * 4 + p))

/-- A task abandoned before start: the keys granted are released, the key it awaits is withdrawn, its watches end
(R224, R231); the cores held for it go back (R211, R237); the entry is freed. -/
def State.dropEntry (s : State) (cl tag : Nat) (e : TEntry) : State :=
  let s := (e.keys.take e.granted).foldl (fun s k => s.sendKrel e.ctx cl tag k) s
  let s := match e.keys.drop e.granted with
    | [] => s
    | k :: _ => s.aboutKey e.ctx cl tag k .kcancel .deskKcancel
  let s := if e.phase = .cond then s.cancelWatches cl tag e else s
  let s := if e.phase = .quad then s.cancelHold cl tag else s
  let s := if (s.cluster cl).gang4 = some tag then (s.unhold cl).post (.dispatch cl) else s
  s.modCluster cl fun k => { k with entries := k.entries.erase tag }

/-- The record of an abandoned task goes; a timeline head counts as handled (R221). -/
def State.recordGone (s : State) (cl i : Nat) (m : Item) : State :=
  let s := s.dropItem cl i
  let s := match m.tl with
    | none => s
    | some (t, _) =>
      let v := (s.cluster cl).tls.get t {}
      if v.st = TlState.head then
        (s.modCluster cl fun k => { k with tls := k.tls.set t { v with st := .idle } }).retest cl t
      else if v.st = TlState.dying then s.freeTimeline cl t else s
  s.post (.taskEntry cl)

/-- A task whose condition failed: the note DISPF (R221). -/
def State.abandon (s : State) (cl tag code : Nat) (e : TEntry) : State :=
  match s.item cl e.item with
  | none => s.dropEntry cl tag e
  | some m =>
    ((s.dropEntry cl tag e).note (routerOfCluster cl) e.ctx 6 m.r[0] (Word.of code) (Word.of tag)).recordGone cl e.item m

/-! ### The start of a task -/

/-- A task started on cores: core and member of each (R236); the timeline runs, KRUN goes to each key's home
(R207), the record's slot is freed but for INLINE (R152, R213). A record with an error that cannot be corrected raises a machine-check
and starts nothing (R403, R408, log 119). -/
def State.startTask (s : State) (cl tag : Nat) (e : TEntry) (m : Item) (shape anchor : Nat) (cores : List (Nat × Nat)) : State :=
  if m.err then
    (((s.readItem cl m).dropEntry cl tag e).giveBack (cores.map Prod.fst)).recordGone cl e.item m
  else
  let s := s.readItem cl m
  let x := s.ctx e.ctx
  let pc := s.handlerOf cl m
  let tl : BitVec 16 := match m.tl with
    | none => 0xFFFF
    | some (t, g) => BitVec.ofNat 16 (tlId cl t g)
  let s := cores.foldl (fun s c =>
    let gang := if shape = 0 then 0 else BitVec.ofNat 16 (anchor * 64 + shape * 16 + c.2)
    let issuer := BitVec.ofNat 16 (if shape = 0 then 0 else c.2)
    (s.modCore c.1 fun k => k.started s.cycle x e.ctx m pc tl e.keys cl tag gang issuer).watch c.1) s
  let s := if shape = 0 then s
    else s.setBarrier (BitVec.ofNat 16 (anchor * 64 + shape * 16)) { v := true, shape := shape }
  let s := e.keys.foldl (fun s k => s.aboutKey e.ctx cl tag k .krun .krunAtDesk) s
  let s := s.modCluster cl fun k => { k with
    entries := k.entries.erase tag
    rr := match m.tl with
      | none => 16
      | some (t, _) => t
    tls := match m.tl with
      | none => k.tls
      | some (t, _) =>
        let v := k.tls.get t {}
        if v.st = TlState.head then k.tls.set t { v with st := TlState.run } else k.tls }
  let s := if recKind m.r[0] = 1 then
      (s.setItem cl e.item { m with st := .inlined, soft := false }).modCore ((cores.head?.map Prod.fst).getD 0) fun k =>
        { k with inline := some (pc, e.item) }
    else s.dropItem cl e.item
  s.post (.taskEntry cl)

/-! ### Conditions and entry -/

/-- The mode in which a record's conditions are checked (R265). -/
def condMode (m : Item) : Mode := if m.cls = 3 then .supervisor else .task

/-- The watched words of a task's conditions found one by one, then all registered; the first that has no
translation abandons the task (R221). -/
def State.registerFrom (s : State) (cl tag n : Nat) (m : Item) (e : TEntry) : List Nat → State
  | [] =>
    if (List.range n).all (fun j => e.met.getLsbD j) then s.makeReady cl tag e
    else
      let e := { e with phase := .cond }
      let s := s.setEntry cl tag e
      (List.range n).foldl (fun s j => if e.met.getLsbD j then s else s.sendWreg cl tag j e m) s
  | j :: t =>
    let h := BitVec.ofNat 16 (recCondWord m.r j).toNat
    if h = 0xFFFF then s.registerFrom cl tag n m { e with met := e.met ||| BitVec.ofNat 2 (2 ^ j) } t
    else match s.counterPa e.ctx cl (s.ctx e.ctx).ctrb h (condMode m) with
      | (.bad c _ _, s) => s.abandon cl tag c e
      | (.ok pa _ _ _, s) => s.registerFrom cl tag n m { e with watch := e.watch.set! j (some pa) } t

/-- Every condition of a task registered at once (R221). -/
def State.registerConds (s : State) (cl tag : Nat) (e : TEntry) (m : Item) : State :=
  s.registerFrom cl tag (recCond m.r[0]) m e (List.range (recCond m.r[0]))

/-- A record enters a task entry (R206, R207): its first key is requested, else its conditions, else READY. -/
def State.enterEntry (s : State) (cl tag i : Nat) (m : Item) : State :=
  let keys := if m.ev then [] else recKeys m.r[0] m.r[7]
  let (o, s) := s.newId
  let e : TEntry := { item := i, ctx := m.ctx, keys := keys, order := o }
  let s := s.setItem cl i { m with st := .entered }
  match keys with
  | k :: _ => (s.setEntry cl tag e).sendKreq m.ctx cl tag k
  | [] => (s.setEntry cl tag e).registerConds cl tag e m

/-- Whether a `krel` of a core has not left yet (R228). -/
def Core.releasing (k : Core) : Bool := k.held.any fun p => match p.2.what with
  | .key _ => true
  | _ => false

/-- Whether a tag is kept by a running task that has not released every key (R428). -/
def State.tagKept (s : State) (cl tag : Nat) : Bool :=
  ((List.range 16).map (cl / 4 * 16 + ·)).any fun c =>
    let k := s.core c
    k.run != .free && k.run != .held && k.entryCluster = cl && k.entryTag = tag && (k.keys != 0 || k.releasing)

/-- The first free tag of a range. -/
def State.freeTag (s : State) (cl lo n : Nat) : Option Nat :=
  ((List.range n).map (lo + ·)).find? fun t => !(s.cluster cl).entries.has t && !s.tagKept cl t

/-- The tag an untimed record may take (R206): 44 to 47 for SYS, then 16 to 43. -/
def State.tagFor (s : State) (cl : Nat) (m : Item) : Option Nat :=
  if m.cls = 3 then
    match s.freeTag cl 44 4 with
    | some t => some t
    | none => s.freeTag cl 16 28
  else s.freeTag cl 16 28

/-! ### The order of choice (R209, R210) -/

/-- Since when a task has been deferred as bulk, once that is 16,384 cycles: it starts at the next free core (R159). -/
def TEntry.overdue (cyc : Nat) (e : TEntry) : Option Nat := e.defAt.filter fun t => t + 16384 ≤ cyc

/-- The effective priority of a READY task (R210). -/
def effPri (cyc : Nat) (e : TEntry) (w0 : Word) : Nat := min 3 (recPri w0 + (cyc - e.ready - e.defd) / 4096)

/-- The source of a task for the round-robin: its timeline slot, or 16 (R209). -/
def sourceOf (m : Item) : Nat := match m.tl with
  | none => 16
  | some (t, _) => t

/-- Whether the READY task `a` is chosen before `b` (R159, R209, R210). -/
def chosenBefore (cyc rr : Nat) (a b : TEntry × Item) : Bool :=
  let late := fun (e : TEntry) => 16384 ≤ cyc - e.ready - e.defd
  let dist := fun (m : Item) => (sourceOf m + 16 - rr) % 17
  if a.1.overdue cyc != b.1.overdue cyc then
    match a.1.overdue cyc, b.1.overdue cyc with
    | some t, some u => t < u
    | some _, none => true
    | none, _ => false
  else if late a.1 && a.1.ready < b.1.ready then true
  else if late b.1 && b.1.ready < a.1.ready then false
  else if (a.2.cls = 3) != (b.2.cls = 3) then a.2.cls = 3
  else
    let pa := effPri cyc a.1 a.2.r[0]
    let pb := effPri cyc b.1 b.2.r[0]
    if pa != pb then pb < pa
    else if a.2.r[1] != b.2.r[1] then a.2.r[1].toNat < b.2.r[1].toNat
    else if sourceOf a.2 != sourceOf b.2 then dist a.2 < dist b.2
    else a.1.order < b.1.order

/-- Whether a record comes from a channel declared bulk (R159). -/
def Item.isBulk (m : Item) : Bool :=
  m.tl.isSome && m.rank < 8 && m.bulk

/-- Whether a bulk task is deferred now (R159). -/
def State.deferredNow (s : State) (cl : Nat) (e : TEntry) (m : Item) : Bool :=
  m.isBulk && 2 ≤ (s.router (routerOfCluster cl)).level &&
  (match e.defAt with
    | none => true
    | some t => s.cycle < t + 16384)

/-- The READY tasks of a cluster with their records. -/
def State.readyTasks (s : State) (cl : Nat) : List (Nat × TEntry × Item) :=
  (s.cluster cl).entries.filterMap fun p =>
    if p.2.phase = .ready then (s.item cl p.2.item).map fun m => (p.1, p.2, m) else none

/-- The first in the order of R209 among tasks. -/
def firstTask (cyc rr : Nat) (l : List (Nat × TEntry × Item)) : Option (Nat × TEntry × Item) :=
  l.foldl (fun b p => match b with
    | none => some p
    | some q => if chosenBefore cyc rr p.2 q.2 then some p else some q) none

/-- Whether a context lets its tasks start: it runs (R377, R379). -/
def State.mayStart (s : State) (x : Nat) : Bool := (s.ctx x).st = .running

end Sys2Proof.Machine
end

