-- ==== Sys2Proof/Machine/Network.lean ====
section
/-! DEFINITION. The network and message delivery: flits, arbitration, ejection, reassembly, receipts, overflow,
throttle, links, fences (R143 to R163, R405 to R413). -/

namespace Sys2Proof.Machine

open Sys2Proof

/-! ### Flits -/

/-- The control word of a flit (R143). -/
def Flit.control (f : Flit) : Word :=
  Word.of (min (f.age / 16) 255 * 2 ^ 56 + f.age % 16 * 2 ^ 52 + f.src % 4096 * 2 ^ 40 + f.dr * 2 ^ 32 + f.dp * 2 ^ 30 +
    f.fk * 2 ^ 26 + f.fi * 2 ^ 23 +
    (if f.fk = 8 then 0
     else if f.fk ≤ 1 || 9 ≤ f.fk then f.ctx % 256 * 2 ^ 15 + f.mseq.toNat * 2 ^ 9 + (if f.errs then 256 else 0)
     else f.cslot.toNat * 2 ^ 16 + f.cseq.toNat * 2 ^ 8) +
    f.mtag.toNat)

/-- The priority of a flit, smaller first: AGE, SRC, FI, port (R148). -/
def Flit.order (f : Flit) : Nat :=
  (((255 - min (f.age / 16) 255) * 4096 + f.src) * 8 + f.fi) * 64 + f.port

/-- A flit put in the order of R148. -/
def flitInsert (f : Flit) : List Flit → List Flit
  | [] => [f]
  | g :: t => if f.order < g.order then f :: g :: t else g :: flitInsert f t

/-- Flits in the order of R148. -/
def flitSort (l : List Flit) : List Flit := l.foldr flitInsert []

/-- CTX of a night-log entry about a flit: a receipt has no field for one (R143, R409). -/
def Flit.logCtx (f : Flit) : Nat := if f.fk = 8 then 0xFF else f.ctx

/-- A record discarded at an interface: a night-log entry (R144, R152, R409). -/
def State.discard (s : State) (r : Nat) (f : Flit) : State :=
  s.logAt r 9 f.src 0 f.logCtx f.control (payLo f.pay)

/-! ### Fences (R412, R413) -/

/-- A flit refused by a fence at a router: the log entry, the survey's reception, the note NAKR on the first, the 1,025th and
so on, and a NAK to its source, which carries the refused control word (R413). Where the flit was a message's, a memory request's or
a multicast transfer's, the NAK settles it there; a promise, ask, receipt or desk flit has nothing there that waits, a response
ends its request, and a grant is answered by a release from the fence (R414). A refused NAK is answered by one as every flit is. -/
def State.nak (s : State) (r n : Nat) (f : Flit) : State :=
  let s := s.countNak n r f.dr f.src f.ctx f.logCtx f.control
  let s := if 2 ≤ f.fk && f.fk ≤ 5 && (f.fi = 0) then s.countReceived r f.ctx else s
  let ev : Option Event :=
    if 2 ≤ f.fk && f.fk ≤ 5 then some (.nakArrival f.src f.mtag.toNat false)
    else if f.fk = 0 then f.req.map fun id => .nakArrival f.src id true
    else if f.fk = 12 then f.req.map fun id => .mcastTransfer id
    else none
  let s := match f.fk, f.req, f.ev with
    | 1, some id, _ => { s with reqs := s.reqs.erase id }
    | 12, some id, _ => { s with mcasts := match s.mcasts.find id with
        | some m => s.mcasts.set id { m with refused := true }
        | none => s.mcasts }
    | _, _, some (.kgrantArrival cl tag key) => s.post (.deskKrel (s.deskOf f.ctx key) f.ctx cl tag key)
    | _, _, _ => s
  s.offerIn 0 [{ flitBack (0xE00 + r) f.src 11 with mtag := f.mtag, ctx := f.ctx, pay := f.control.setWidth 128, ev := ev }]

/-! ### Inbox acceptance and reassembly (R151 to R153, R166, R178, R378) -/

/-- Whether an overflow record of a class waits for a cluster: a freed slot is kept for it (R154, R156). -/
def State.waitsInOverflow (s : State) (cl cls : Nat) : Bool :=
  (s.overflow cl).any fun o => o.cluster = cl && o.item.cls = cls

/-- The context whose backing inbox takes a cluster's arrivals (R378). -/
def State.backed (s : State) (cl : Nat) : Option Nat :=
  match (s.cluster cl).ctx with
  | none => none
  | some x => if (s.ctx x).st = .running || (s.ctx x).st = .empty then none else some x

/-- Where a message's flit says it goes: its timeline, its in-slot, its rank, its sequence number (R178), and
whether its channel is declared bulk (R159). -/
def State.addressed (s : State) (cl : Nat) (f : Flit) (m : Item) : Item :=
  if f.untimed then { m with tl := none, inSlot := 0, rank := 15, core := f.core }
  else
    let c := f.cslot.toNat
    if 112 ≤ c then
      { m with tl := some (c - 112, BitVec.ofNat 2 (f.cseq.toNat / 64)), inSlot := c, rank := 8, seq := f.cseq.toNat % 64 }
    else
      let i := (s.unitFor f.ctx cl).ins.get c {}
      { m with tl := some (i.tls, i.gen), inSlot := c, rank := i.rank, bulk := i.bulk
               seq := rebuild i.e f.cseq }

/-- A message complete: counted as received, receipted, delivered; one in the divert buffer goes on to the overflow
queue, one of a context that is freezing or frozen to its backing inbox (R152, R153, R166, R188, R378). -/
def State.completeMessage (s : State) (cl j : Nat) (f : Flit) : State :=
  match s.item cl j with
  | none => s
  | some m =>
    let (o, s) := s.newId
    let m := { s.addressed cl f m with order := o }
    let s := (s.countReceived (routerOfCluster cl) f.ctx).receipt cl m.src f.ctx m.mtag
    let m := { m with src := f.sender.getD m.src }
    let s := s.setItem cl j m
    match s.backedFor f.ctx cl with
    | some x => ((s.readItem cl m).toBacking x (.message cl { m with st := .gated, divert := false, soft := false })).dropItem cl j
    | none =>
      let s := s.deliver cl j
      if m.divert then s.post (.overflowWrite cl) else s

/-- What stands for a slot whose message has left it while its context is frozen: an entry that no flit belongs to. -/
def Item.left (m : Item) : Item := { cls := m.cls, src := 4096 }

/-- An entry of a frozen context's inbox leaves its slot, there and in the image that memory holds of it, or the divert buffer (R378, R384).
-/
def State.leaveSlot (s : State) (x cl j : Nat) (m : Item) : State :=
  let c := s.ctx x
  if m.divert || c.st = .freezing then s.modUnit x cl fun k => { k with inbox := k.inbox.erase j }
  else
    let n := ((s.unitFor x cl).slots false).findIdx (· = j)
    (s.modUnit x cl fun k => { k with inbox := k.inbox.set j m.left }).deviceWrite (c.imageBase cl + 0x4000 + 2 * n) 2 0

/-- The entry that a flit of a message belongs to: one at its cluster, or, for a context whose rectangle is lent, one that it keeps; with
whether it is there (R152, R378). -/
def State.fillingFor (s : State) (cl : Nat) (f : Flit) (cls : Nat) : Option (Nat × Item × Bool) :=
  let mine := fun (p : Nat × Item) => p.2.st = .filling && p.2.src = f.src && p.2.mtag = f.mtag && p.2.cls = cls
  match (s.cluster cl).inbox.find? mine with
  | some (j, m) => some (j, m, true)
  | none => if (s.ctx f.ctx).images.has cl then ((s.unitFor f.ctx cl).inbox.find? mine).map fun p => (p.1, p.2, false) else none

/-- A flit of a message at its cluster: accepted, or refused (none) (R151, R152). One of a message whose slot was filling when its context
froze goes, with what is there, to the divert buffer (R378). -/
def State.takeMessage (s : State) (cl : Nat) (f : Flit) : Option State :=
  let k := s.cluster cl
  let cls := if f.fk = 4 then 3 else f.fk - 2
  let r := routerOfCluster cl
  let place := fun (s : State) (j : Nat) (m : Item) =>
    let m := { m with
      mask := m.mask ||| BitVec.ofNat 4 (2 ^ f.fi)
      r := (m.r.set! (2 * f.fi) (payLo f.pay)).set! (2 * f.fi + 1) (payHi f.pay) }
    let s := s.setItem cl j m
    if m.mask = 15 then s.completeMessage cl j f else s
  match s.fillingFor cl f cls with
  | some (j, m, here) =>
    if 3 < f.fi || m.mask.getLsbD f.fi then some (s.discard r f)
    else match s.backedFor f.ctx cl with
      | none => some (place s j m)
      | some x =>
        if here && m.divert then some (place s j m)
        else if 8 ≤ k.diverts then none
        else
          let (i, s) := (s.leaveSlot x cl j m).newId
          some (place s i { m with divert := true })
  | none =>
    if 3 < f.fi then some (s.discard r f)
    else
      let backed := s.backedFor f.ctx cl
      let divert := backed.isSome || k.freeSlots cls = 0 || s.waitsInOverflow cl cls
      if divert && (8 ≤ k.diverts || (cls != 0 && backed.isNone)) then none
      else
        let (j, s) := s.newId
        some (place s j { cls := cls, divert := divert, src := f.src, mtag := f.mtag, ctx := f.ctx })

/-- A one-flit message, promise or ask that the backing inbox takes while its context freezes, is frozen or thaws (R378);
else its step. -/
def State.orBacking (s : State) (x cl : Nat) (e : Event) : State := match s.backedFor x cl with
  | some x => s.toBacking x (.flit e)
  | none => s.post e

/-- An ejected flit at its cluster's message unit (R150, R151): what it does, or none where it is refused. -/
def State.eject (s : State) (cl : Nat) (f : Flit) : Option State :=
  if s.backFull f.ctx cl && 2 ≤ f.fk && f.fk ≤ 7 then none
  else match f.fk with
  | 2 => s.takeMessage cl f
  | 3 => s.takeMessage cl f
  | 4 => s.takeMessage cl f
  | 5 => some ((s.receipt cl f.src f.ctx f.mtag).orBacking f.ctx cl
      (.eventArrival cl f.cslot.toNat f.cseq (BitVec.ofNat 12 (f.sender.getD f.src)) (payLo f.pay) (payHi f.pay)))
  | 6 => some (s.orBacking f.ctx cl (.promiseArrival cl f.cslot.toNat f.cseq (payLo f.pay)))
  | 7 => some (s.orBacking f.ctx cl (.askArrival cl f.cslot.toNat))
  | 8 => some (s.post (.receiptArrival (payLo f.pay).toNat f.mtag.toNat))
  | _ => some (s.discard (routerOfCluster cl) f)

/-! ### Requests, responses, desks, transfers and frames (R150, R151, R163, R226, R351, R423) -/

/-- Requests of a target that wait in its reorder store: a flit of each has come, and a lower number has not been applied
(R163). -/
def State.stored (s : State) (target : Nat) : Nat :=
  (s.reqs.filter fun p => p.2.stage = 1 && p.2.left < p.2.payloads.length && s.targetOf p.2 = target && !s.inOrder p.2).length

/-- A flit of a request at its target: taken where it is next in order, its first flit is there, or the reorder store has room;
with the last flit the request is there (R151, R163). -/
def State.takeRequest (s : State) (id : Nat) : Option State :=
  match s.reqs.find id with
  | none => some s
  | some r =>
    if r.stage != 1 || r.left = 0 then some s
    else if r.left < r.payloads.length || s.inOrder r || s.stored (s.targetOf r) < storeCap (s.targetOf r) then
      let s := s.setReq id { r with left := r.left - 1 }
      some (if r.left = 1 then s.post (r.event id) else s)
    else none

/-- Whether a flit may leave for its target: a source never has more than 63 requests to one unacknowledged (R163). -/
def State.windowOpen (s : State) (f : Flit) : Bool := match f.fk, f.req with
  | 0, some id => match s.reqs.find id with
    | none => true
    | some r => (s.reqs.filter fun p =>
        p.2.core = r.core && p.2.mseq < r.mseq && (p.2.stage = 1 || p.2.stage = 2) && s.targetOf p.2 = s.targetOf r).length < 63
  | _, _ => true

/-- A flit of a response at its core or engine: with the last one the answer is there, and the source may have room for another request
(R163). -/
def State.takeResponse (s : State) (id : Nat) : State :=
  match s.reqs.find id with
  | none => s
  | some r =>
    if r.stage != 2 || r.left = 0 then s
    else
      let s := s.setReq id { r with left := r.left - 1 }
      if r.left = 1 then r.injectors.foldl (fun s u => s.postOnce 1 (.flitInject u)) (s.post (r.reply id)) else s

/-- A flit of a multicast transfer at its walker: with the last one the transfer is there. The spec gives the walker's staging
no size: it always has room (DESIGN CHOICE, log 35). -/
def State.takeTransfer (s : State) (id : Nat) : State :=
  match s.mcasts.find id with
  | none => s
  | some m =>
    let s := { s with mcasts := s.mcasts.set id { m with left := m.left - 1 } }
    if m.left ≤ 1 then s.post (.mcastTransfer id) else s

/-- A DESK flit (R226): its step; a reserved operation is discarded and logged; what comes to
the dispatcher of a context that freezes, is frozen or thaws goes to its backing inbox, and is refused where that is full
(R378); KSTAT is taken at its core. -/
def State.takeDesk (s : State) (r : Nat) (f : Flit) : Option State :=
  if 12 ≤ f.mseq.toNat then some (s.discard r f)
  else match f.ev with
  | none => some s
  | some e => match computeOfRouter r with
    | none => some (s.post e)
    | some i =>
      let cl := i * 4 + f.dp
      if f.mseq.toNat = 10 then some (s.post e)
      else if s.backFull f.ctx cl then none else some (s.orBacking f.ctx cl e)

/-- A flit of a cluster's channel as it leaves, of in-slot `n`, or of an out-slot and 128: where the port table names a slot of another
device, the flit goes to the fabric port of that device (R423). -/
def State.abroadOr (s : State) (cl n : Nat) (f : Flit) : Flit := match s.abroad.find (abroadKey f.ctx cl n) with
  | none => f
  | some (d, _, n) =>
    { f with dr := routerOfSrc (0xD00 + s.peerPort d), dp := 0, cslot := BitVec.ofNat 7 n, abroad := some d }

/-- A flit on a channel to another device at its fabric port (R423): a message whose four flits are there leaves as a frame; it
counts as received there and is receipted. Promises and asks leave at once. The port refuses every flit while its link retrains or is
DOWN, since that carries nothing (R151, R405: DEDUCED, log 109). -/
def State.takeFrame (s : State) (r d : Nat) (f : Flit) : Option State :=
  let port := s.peerPort d
  let done := fun (s : State) =>
    (s.countReceived (194 + port) f.ctx).offerIn 0
      [{ flitBack (0xD00 + port) f.src 8 with mtag := f.mtag, ctx := f.ctx, pay := BitVec.ofNat 128 f.src }]
  if (s.portLink port).down || (s.portLink port).retrain then none
  else if f.fk = 6 || f.fk = 7 then some s
  else if f.fk = 5 then some (done s)
  else if f.fk < 2 || 4 < f.fk || 3 < f.fi then some (s.discard r f)
  else
    let mine := fun (p : Nat × BitVec 8 × BitVec 4) => p.1 = f.src && p.2.1 = f.mtag
    let mask := (((s.taken.find? mine).map fun p => p.2.2).getD 0) ||| BitVec.ofNat 4 (2 ^ f.fi)
    let rest := s.taken.filter fun p => !mine p
    some (if mask = 15 then done { s with taken := rest } else { s with taken := (f.src, f.mtag, mask) :: rest })

/-- An ejected flit at what its router and local port name (R150, R151): what it does, or none where it is refused. -/
def State.take (s : State) (r : Nat) (f : Flit) : Option State :=
  match f.abroad with
  | some d => s.takeFrame r d f
  | none =>
    match f.fk, f.req with
    | 0, some id => s.takeRequest id
    | 1, some id => some (s.takeResponse id)
    | 9, _ => s.takeDesk r f
    | 10, _ => some (match f.ev with
      | some e => s.post e
      | none => s)
    | 11, _ => some (match f.ev with
      | some e => s.post e
      | none => s)
    | 12, some id => some (s.takeTransfer id)
    | _, _ => match computeOfRouter r with
      | some i => s.eject (i * 4 + f.dp) f
      | none => some (if f.fk = 8 then s else s.discard r f)

/-! ### Links (R142, R161, R162, R405, R406) -/

/-- The state of the bridge link between two routers; none on a die. -/
def State.linkOf (s : State) (r q : Nat) : Option Link := (bridgeLink r q).map fun l => s.links.get l {}

/-- Whether a link direction carries new flits: not DOWN, retraining or replaying, and the receive stage at its far
end not full (R161, R162). The upward direction leads to the higher row. -/
def State.linkOpen (s : State) (r q : Nat) : Bool :=
  match s.linkOf r q with
  | none => true
  | some l =>
    let waiting := ((s.router q).flits.filter fun f => some f.port = portTo q r && (f.kept || f.due ≤ s.cycle)).length
    !l.down && !l.retrain && (if r < q then l.upTill else l.downTill) ≤ s.cycle && waiting < 256

/-- The cycles of a link at its rate (R142, R405). -/
def State.linkTime (s : State) (r q : Nat) : Nat :=
  match s.linkOf r q with
  | none => linkCycles r q
  | some l => if l.rate = 0 then 6 else if l.rate = 1 then 8 else 14

/-- Whether a column link between two rows at a column is DOWN. -/
def State.downAt (s : State) (col u v : Nat) : Bool :=
  match s.linkOf (u * 16 + col) (v * 16 + col) with
  | none => false
  | some l => l.down

/-- The productive row and column ports of a flit at a router (R148, R406). -/
def State.productive (s : State) (r : Nat) (f : Flit) : List Nat :=
  let row := r / 16
  let col := r % 16
  let drow := f.dr / 16
  let dcol := f.dr % 16
  let rowPort := (portTo r (row * 16 + dcol)).toList
  let colPort := (portTo r (drow * 16 + col)).toList
  let base := rowPort ++ colPort
  if row != drow && col = dcol && s.downAt col row drow then
    ((List.range 16).filter fun c => c != col && !s.downAt c row drow).filterMap fun c => portTo r (row * 16 + c)
  else base

/-! ### Arbitration (R148 to R150) -/

/-- What one cycle of arbitration carries: free ports, ejections by local port, the machine. -/
structure Arb where
  free : List Nat
  ejected : List Nat
  s : State

/-- A flit leaves router `r` on port `p`: it gains the traversal and the link's time (R147). -/
def Arb.leave (a : Arb) (r p : Nat) (f : Flit) (good : Bool) : Arb :=
  let q := portDest r p
  let t := 2 + a.s.linkTime r q
  let s := a.s.modRouter q fun x => { x with
    flits := x.flits ++ [{ f with age := f.age + t, kept := false, port := (portTo q r).getD 0, due := a.s.cycle + t }] }
  let s := s.modRouter r fun x => { x with left := x.left + 1, deflected := x.deflected + (if good then 0 else 1) }
  { a with free := a.free.filter (· != p), s := s.postIn t (.flitArrival q) }

/-- Whether a flit is for the walker of its router: a transfer, or the answer to a walker's request. -/
def State.forWalker (s : State) (f : Flit) : Bool :=
  f.fk = 12 || (f.fk = 1 && (f.req.bind s.reqs.find).any fun r => r.walker.isSome)

/-- The local port through which a flit ejects, each two a cycle: the one that it names, or for a walker's any other with capacity that
its cluster leaves unused (R141, R150). -/
def Arb.port (a : Arb) (f : Flit) : Option Nat :=
  (f.dp :: (if a.s.forWalker f then [0, 1, 2, 3] else [])).find? fun p => (a.ejected.filter (· = p)).length < 2

/-- A flit whose destination is this router ejects if a local port has room for it and the destination accepts it. -/
def Arb.tryEject (a : Arb) (r : Nat) (f : Flit) : Option Arb :=
  match a.port f with
  | none => none
  | some p => (a.s.take r f).map fun s => { a with
    ejected := p :: a.ejected
    s := s.modRouter r fun x => { x with left := x.left + 1 } }

/-- The first pass for one arriving flit: some where it got a port. -/
def Arb.first (a : Arb) (r : Nat) (f : Flit) : Option Arb :=
  if f.dr = r then a.tryEject r f
  else (((a.s.productive r f).find? fun p => a.free.contains p)).map fun p => a.leave r p f true

/-- The first pass over the arriving flits, in order: what is left without a port. -/
def Arb.arriving (a : Arb) (r : Nat) : List Flit → Arb × List Flit
  | [] => (a, [])
  | f :: t =>
    match a.first r f with
    | some a => a.arriving r t
    | none => let x := a.arriving r t; (x.1, f :: x.2)

/-- The first pass over the offered flits: a row or column port is taken only if enough stay free for the `n`
arriving flits without one (R148). -/
def Arb.offered (a : Arb) (r n : Nat) : List Flit → Arb × List Flit
  | [] => (a, [])
  | f :: t =>
    match (if f.dr = r || n + 1 ≤ a.free.length then a.first r f else none) with
    | some a => a.offered r n t
    | none => let x := a.offered r n t; (x.1, f :: x.2)

/-- The second pass: the lowest free port (R148). -/
def Arb.second (a : Arb) (r : Nat) : List Flit → Arb
  | [] => a
  | f :: t =>
    match a.free with
    | [] => { a with s := a.s.modRouter r fun x => { x with flits := x.flits ++ [{ f with due := a.s.cycle + 1, age := f.age + 1 }] } }.second r t
    | p :: _ => (a.leave r p f false).second r t

/-- The first flit of each input port, in list order; the others wait (R148, R162). -/
def perPort : List Flit → List Flit × List Flit
  | [] => ([], [])
  | f :: t =>
    let x := perPort t
    (f :: x.1.filter (·.port != f.port), x.1.filter (·.port = f.port) ++ x.2)

/-- Bridge flits kept back: the `n` lowest in the order (R162), from the last of the sorted list. -/
def keepBack (r : Nat) : Nat → List Flit → List Flit × List Flit
  | 0, l => (l, [])
  | _, [] => ([], [])
  | n + 1, f :: t =>
    if (bridgeLink r (portDest r f.port)).isSome then let x := keepBack r n t; (x.1, f :: x.2)
    else let x := keepBack r (n + 1) t; (f :: x.1, x.2)

/-- A flit has entered the network from a cluster's port: its message or request is under way from its first flit on (R157), and
with the promise of END the out-slot of a closed channel is free, with its place in the port table (R203, R423). -/
def State.flitUnderWay (s : State) (router : Nat) (f : Flit) : State :=
  if 30 ≤ f.port then s
  else
    let cl := (computeOfRouter router).getD 0 * 4 + (f.port - 26)
    let mine := fun (o : OpenSend) => o.src = f.src && o.mtag = f.mtag && o.at_.isNone
    match f.fk, f.req with
    | 6, some out =>
      { s.modCluster cl fun k => { k with outs := k.outs.erase out } with abroad := s.abroad.erase (abroadKey f.ctx cl (128 + out)) }
    | 0, some id => match s.reqs.find id with
      | some r => if r.stage = 1 && r.at_.isNone then
          (s.setReq id { r with at_ := some s.cycle, via := some cl }).postIn 2048 (.injectionStop cl) else s
      | none => s
    | fk, _ =>
      if 2 ≤ fk && fk ≤ 5 && (s.cluster cl).openSends.any mine then
        (s.modCluster cl fun k => { k with
          openSends := k.openSends.map fun o => if mine o then { o with at_ := some s.cycle } else o }).postIn 2048 (.injectionStop cl)
      else s

/-- Whether a flit's source is a walker (R145). -/
def Flit.byWalker (f : Flit) : Bool := f.fk = 12 || f.src / 256 = 9

/-- An offered flit that found no port goes back to the head of its queue (R148). -/
def State.offerAgain (s : State) (router : Nat) (f : Flit) : State :=
  match computeOfRouter router, sliceOfRouter router with
  | some i, _ =>
    let s := if f.byWalker then s.modWalker i fun w => { w with inject := f :: w.inject }
      else s.modCluster (i * 4 + (f.port - 26)) fun k => { k with inject := f :: k.inject }
    s.postOnce 1 (.flitInject (i * 4 + (f.port - 26)))
  | none, some j =>
    (s.modSlice (j * 2 + (f.port - 26)) fun v => { v with inject := f :: v.inject }).postOnce 1
      (.flitInject (576 + (j * 2 + (f.port - 26))))
  | none, none => s

/-- Whether a rectangle holds a router. -/
def rectHolds (w : Word) (router : Nat) : Bool := (computeOfRouter router).any (rectHas w)

/-- Whether the boundary of a fenced rectangle refuses a flit at a router of it: it is addressed into the rectangle and comes over a link
from outside, and not from a unit inside; what has passed the boundary completes, and a survey token goes on (R412). -/
def Flit.refusedAt (f : Flit) (w : Word) (router : Nat) : Bool :=
  f.fk != 10 && rectHolds w f.dr && !rectHolds w (routerOfSrc f.src) && f.port < 26 && !f.kept && !rectHolds w (portDest router f.port)

/-- Flits with a single-bit error are corrected and logged; those with one that cannot be corrected raise a machine-check and are
discarded (R403, R407, R408). -/
def State.dropBadFlits (s : State) (router : Nat) (now : List Flit) : State :=
  now.foldl (fun s f =>
    if f.err then s.machineCheck .flit router f.src f.logCtx f.control
    else if f.soft then s.softLog router f.src f.logCtx f.control else s) s

/-- Flits presented to a router in this cycle are given ports (R148, R149, R162); a flit for a fenced rectangle is
refused at its boundary, but for a survey token, since a fenced context still becomes QUIET (R412, R413). -/
def execFlitArrival (router : Nat) (s : State) : Result State :=
  .next (
    let R := s.router router
    let now := R.flits.filter fun f => f.due ≤ s.cycle
    if now.isEmpty then s
    else
      let s := s.modRouter router fun x => { x with flits := x.flits.filter fun f => s.cycle < f.due }
      let fence := match computeOfRouter router with
        | none => none
        | some i => s.fenceOf i
      let refused := fun (f : Flit) => match fence with
        | some n => f.refusedAt (s.cnrect.get n 0) router
        | none => false
      let s := s.dropBadFlits router now
      let now := (now.filter fun f => !f.err).map fun f => { f with soft := false }
      let s := (now.filter refused).foldl (fun s f => s.nak router (fence.getD 0) f) s
      let now := now.filter fun f => !refused f
      let (arr, later) := perPort (now.filter fun f => f.port < 26)
      let free := (List.range 26).filter fun p => s.linkOpen router (portDest router p)
      let (back, keep) := keepBack router (arr.length - free.length) (flitSort arr).reverse
      let arr := back.reverse
      let (a, left) := ({ free := free, ejected := [], s := s } : Arb).arriving router arr
      let (local_, behind) := perPort (now.filter fun f => 26 ≤ f.port)
      let local_ := flitSort local_
      let (a, stay) := a.offered router left.length local_
      let a : Arb := { a with s := (local_.filter fun f => !stay.contains f).foldl (fun (s : State) (f : Flit) => s.flitUnderWay router f) a.s }
      let a := a.second router left
      let s := (stay.filter fun f => f.port < 30).foldl (fun (s : State) f => s.offerAgain router f) a.s
      let again := ((stay.filter fun f => 30 ≤ f.port) ++ behind).map fun f => { f with due := s.cycle + 1 }
      let kept := (keep ++ later).map fun f => { f with due := s.cycle + 1, age := f.age + 1, kept := true }
      let s := if again.isEmpty && kept.isEmpty then s
        else (s.modRouter router fun x => { x with flits := kept ++ again ++ x.flits }).postIn 1 (.flitArrival router)
      let x := s.router router
      if x.winAt = 0 then
        let e := (s.cycle / 256 + 1) * 256
        (s.modRouter router fun x => { x with winAt := e }).postIn (e - s.cycle) (.throttleWindow router)
      else s)

/-! ### Injection (R149, R157, R158) -/

/-- Whether a flit of a cluster has been under way for 2,048 cycles or more (R157). -/
def State.tooOld (s : State) (cl : Nat) : Bool :=
  ((s.cluster cl).openSends.any fun o => match o.at_ with
    | none => false
    | some t => t + 2048 ≤ s.cycle) ||
  s.reqs.any fun p => p.2.via.getD (p.2.core / 4) = cl && (p.2.stage = 1 || p.2.stage = 2) && (match p.2.at_ with
    | none => false
    | some t => t + 2048 ≤ s.cycle)

/-- The router of a unit that injects: a cluster, or slice n under the number 576 + n. -/
def unitRouter (u : Nat) : Nat := if u < 576 then routerOfCluster u else routerOfSlice (u - 576)
/-- Its local port's number among the router's ports (R141). -/
def unitPort (u : Nat) : Nat := 26 + (if u < 576 then u % 4 else u % 2)

/-- A flit of a unit offered to its router; the throttle says when the port may take the next (R149, R158). -/
def State.offerFlit (s : State) (u : Nat) (f : Flit) : State :=
  let r := unitRouter u
  let gap := 2 ^ (s.router r).level
  let s := if u < 576 then s.modCluster u fun k => { k with injAt := s.cycle + gap }
    else s.modSlice (u - 576) fun v => { v with injAt := s.cycle + gap }
  ((s.modRouter r fun x => { x with flits := x.flits ++ [{ f with port := unitPort u, due := s.cycle + 1 }] }).postIn 1
    (.flitArrival r)).postOnce gap (.flitInject u)

/-- A cluster or a slice offers one flit to its router: at the throttle's rate; a cluster offers only promises, asks and
receipts while its injection is stopped, and its walker's flits where it has none of its own (R141, R149, R157, R158,
R185). -/
def execFlitInject (cluster : Nat) (s : State) : Result State :=
  .next (
    if 576 ≤ cluster then
      let v := s.slice (cluster - 576)
      if v.inject.isEmpty then s
      else if s.cycle < v.injAt then s.postOnce (v.injAt - s.cycle) (.flitInject cluster)
      else if (s.router (unitRouter cluster)).flits.any fun f => f.port = unitPort cluster then s.postOnce 1 (.flitInject cluster)
      else match v.inject.find? fun f => f.due ≤ s.cycle with
        | none => s
        | some f => (s.modSlice (cluster - 576) fun v => { v with inject := v.inject.erase f }).offerFlit cluster f
    else
      let k := s.cluster cluster
      let w := s.walker (cluster / 4)
      let stopped := s.tooOld cluster
      let s := if stopped && !k.stop then s.post (.injectionStop cluster) else s
      if (s.fencedCluster cluster).isSome || (k.inject.isEmpty && w.inject.isEmpty) then s
      else if s.cycle < k.injAt then s.postOnce (k.injAt - s.cycle) (.flitInject cluster)
      else if (s.router (unitRouter cluster)).flits.any fun f => f.port = unitPort cluster then s.postOnce 1 (.flitInject cluster)
      else match k.inject.find? fun f => f.due ≤ s.cycle && s.windowOpen f && (!stopped || (6 ≤ f.fk && f.fk ≤ 8)), w.inject.find? s.windowOpen with
        | some f, _ => (s.modCluster cluster fun k => { k with inject := k.inject.erase f }).offerFlit cluster f
        | none, some f => if stopped then s
          else (s.modWalker (cluster / 4) fun w => { w with inject := w.inject.erase f }).offerFlit cluster f
        | none, none => s)

/-- The stop of R157 follows the age of what is under way; injection resumes in the cycle after it ends. -/
def execInjectionStop (cluster : Nat) (s : State) : Result State :=
  .next (
    let old := s.tooOld cluster
    let s' := s.modCluster cluster fun k => { k with stop := old }
    if old then s'.postOnce 1 (.injectionStop cluster) else s'.postOnce 0 (.flitInject cluster))

/-- The end of a window of 256 cycles: the fraction, and the level moved by at most one step under the thresholds that firmware may
change (R158, log 20). -/
def execThrottleWindow (router : Nat) (s : State) : Result State :=
  .next (
    let R := s.router router
    let frac := if R.left = 0 then 0 else min 255 (R.deflected * 256 / R.left)
    let reaches := fun (t : Nat) => if R.left = 0 then t = 0 else t * R.left ≤ 256 * R.deflected
    let level := if R.level < 3 && reaches (s.thr[R.level]?.getD 0) then R.level + 1
      else if 0 < R.level && !reaches (s.thr[R.level + 2]?.getD 0) then R.level - 1 else R.level
    let more := level != 0 || frac != 0
    let s := s.modRouter router fun x => { x with
      level := level, frac := frac, left := 0, deflected := 0, winAt := if more then s.cycle + 256 else 0 }
    let s := if more then s.postIn 256 (.throttleWindow router) else s
    if level != R.level then
      match computeOfRouter router with
      | none => s
      | some i => s.posts ((List.range 4).map fun p => .dispatch (i * 4 + p))
    else s)

/-- A bulk task has been deferred for 16,384 cycles: the dispatcher may start it (R159). -/
def execBulkDeferExpiry (cluster tag : Nat) (s : State) : Result State :=
  .next (match (s.cluster cluster).entries.find tag with
    | none => s
    | some _ => s.post (.dispatch cluster))

/-! ### Receipts and refusals (R152, R413) -/

/-- The messages of a core not yet receipted, one fewer; a ranked channel's OLD advanced (R152, R175, R178). -/
def State.settleSend (s : State) (src : Nat) (mtag : BitVec 8) : State :=
  let cl := src / 4
  match (s.cluster cl).openSends.find? fun o => o.src = src && o.mtag = mtag with
  | none => s
  | some o =>
    let s := s.modCluster cl fun k => { k with openSends := k.openSends.erase o }
    let s := match o.core with
      | none => s
      | some c => s.modCore c fun k => { k with unreceipted := k.unreceipted.erase mtag }
    let s := match o.out with
      | none => s
      | some n => s.modCluster cl fun k =>
        match k.outs.find n with
        | none => k
        | some q =>
          let acked := o.seq :: q.acked
          let old := (List.range acked.length).foldl (fun a _ => if acked.contains a then (a + 1) % 2 ^ 32 else a) q.old
          { k with outs := k.outs.set n { q with old := old, acked := acked.filter fun a => !(countedUpTo (a + 1) old) } }
    coresOf cl |>.foldl (fun s c => s.kick c) s

/-- A receipt at its source (R152). -/
def execReceiptArrival (src mtag : Nat) (s : State) : Result State :=
  .next (s.settleSend src (BitVec.ofNat 8 mtag))

/-- A NAK at its source: it counts as the message's receipt; a memory request is answered by it and reports as R128 has it, a posted store
by the note of a refused one, every other by ACCESS with WHY 4 (R413, log 72). -/
def execNakArrival (src mtag : Nat) (mem : Bool) (s : State) : Result State :=
  .next (
    if mem then
      match s.reqs.find mtag with
      | none => s
      | some r => if r.core = src && r.stage = 1 then
          let s := if r.posts then s.refusedStore r else s
          (s.setReq mtag { r with stage := 2, left := 0, status := 4 }).post (r.reply mtag) else s
    else s.settleSend src (BitVec.ofNat 8 mtag))

/-! ### Overflow (R153 to R156) -/

/-- The lowest free record place of an overflow queue. -/
def freePos (l : List OvRec) : Nat :=
  ((List.range (l.length + 1)).find? fun i => !l.any fun o => o.pos = i).getD l.length

/-- The complete divert entry that completed first. -/
def Cluster.nextDivert (k : Cluster) : Option (Nat × Item) :=
  (k.inbox.filter fun p => p.2.divert && (p.2.st = .gated || p.2.st = .pending)).foldl (fun b p => match b with
    | none => some p
    | some q => if p.2.order < q.2.order then some p else some q) none

/-- Complete divert entries written to the overflow queue in the order they completed, while it has room; the first
that finds it full is noted as OVFQ (R153, R155). One with an error that cannot be corrected raises a machine-check, and its words in
memory are poison (R407, R408). -/
def execOverflowWrite (cluster : Nat) (s : State) : Result State :=
  .next (match (s.cluster cluster).ctx, (s.cluster cluster).nextDivert with
    | some x, some (j, m) =>
      let c := s.ctx x
      if c.oqcap.toNat ≤ c.ovf.length then
        if c.ovfStanding then s
        else (s.modCtx x fun c => { c with ovfStanding := true }).note (routerOfCluster cluster) x 1 (Word.of c.ovf.length) (Word.of cluster) 0
      else
        let pos := freePos c.ovf
        let (o, s) := s.newId
        let a := c.oqbase.toNat + 64 * pos
        let s := (List.range 8).foldl (fun s i => s.deviceWrite (a + 8 * i) 8 (m.r[i]?.getD 0).toNat) (s.readItem cluster m)
        let s := (s.recordSpoilt m a).modCtx x fun c => { c with
          ovf := c.ovf ++ [{ pos := pos, cluster := cluster, item := { m with divert := false, soft := false }, order := o }] }
        let s := s.modCluster cluster fun k => { k with inbox := k.inbox.erase j }
        let s := match m.tl with
          | none => s
          | some (t, _) => (s.modCluster cluster fun k =>
              let v := k.tls.get t {}
              { k with tls := k.tls.set t { v with ovmin := stampMin v.ovmin m.r.stamp } }).retest cluster t
        s.posts [.recall cluster (if m.cls = 0 then .req else if m.cls = 1 then .rpl else .sys), .overflowWrite cluster]
    | _, _ => s)

/-- The place of an overflow record in the order of recall: the overflow-minimum or stamp, the timeline slot with
untimed records last, the stamp, the order of writing (R154, R156). The overflow-minimum of a timeline counts its records of
every class; where it belongs to a record of another class, R154 names no REQ record: the model serves the timeline by that
minimum and takes its REQ record of the least stamp (DESIGN CHOICE, log 123). -/
def State.recallKey (s : State) (o : OvRec) : Nat :=
  let st := o.item.r.stamp.toNat
  let (m, t) := match o.item.tl with
    | none => (st, 16)
    | some (t, _) => (if o.item.cls = 0 then (s.ovMin o.cluster t).toNat else st, t)
  ((m * 32 + t) * 2 ^ 64 + st) * 2 ^ 64 + o.order

/-- The record to recall. -/
def State.toRecall (s : State) (cl cls : Nat) : Option OvRec :=
  ((s.overflow cl).filter fun o => o.cluster = cl && o.item.cls = cls).foldl (fun b o => match b with
    | none => some o
    | some q => if s.recallKey o < s.recallKey q then some o else some q) none

/-- The number of a class in a record (R45). -/
def classOf : MsgClass → Nat
  | .req => 0
  | .rpl => 1
  | .prom => 2
  | .sys => 3

/-- A recalled record of a freed generation becomes a FREED dead letter, and its number, if E has not reached it, counts
(R179, R192, R196, R204). -/
def State.recallDead (s : State) (cl t j : Nat) (g : BitVec 2) (m : Item) : State :=
  let s := (s.deadItem cl m (tlId cl t g) 3).dropItem cl j
  if m.rank < 8 then
    if m.st = .gated then
      (s.modCluster cl fun k =>
        let i := k.ins.get m.inSlot {}
        { k with ins := k.ins.set m.inSlot { i with gaps := m.seq :: i.gaps } }).counted cl m.inSlot
    else s.closeIn cl m.inSlot
  else s

/-- A freed slot takes a record of its class from the overflow queue (R154 to R156); a record of a freed generation becomes a
dead letter (R192, R204). DESIGN CHOICE: once the queue has room, the message units of the context that hold a complete
record write in the order of their clusters (R57, R155, log 122). -/
def execRecall (cluster : Nat) (cls : MsgClass) (s : State) : Result State :=
  .next (
    let c := classOf cls
    let k := s.cluster cluster
    if k.freeSlots c = 0 || (s.backed cluster).isSome then s
    else match s.toRecall cluster c with
      | none => s
      | some o =>
        let busy := match o.item.tl with
          | none => false
          | some (t, _) => (k.tls.get t {}).recomp
        if busy then s
        else
          let x := k.ctx.getD 0
          let s := s.modCtx x fun q => { q with ovf := q.ovf.erase o, ovfStanding := q.ovfStanding && q.oqcap.toNat ≤ q.ovf.length - 1 }
          let (j, s) := s.newId
          let m := { o.item with divert := false }
          let s := s.setItem cluster j m
          let s := match m.tl with
            | none => s.post (.taskEntry cluster)
            | some (t, g) =>
              let left := ((s.overflow cluster).filter fun (q : OvRec) => q.cluster = cluster && (q.item.tl.map Prod.fst) = some t).length
              let s := (s.modCluster cluster fun k => { k with tls := k.tls.set t { k.tls.get t {} with recomp := true } }).postIn
                (8 * left) (.ovminRecomputeDone cluster t)
              let v := (s.cluster cluster).tls.get t {}
              if v.st = TlState.free || v.st = TlState.retired || v.gen != g then s.recallDead cluster t j g m
              else if m.rank = 8 then (s.retest cluster t).post (.tokenStart x)
              else s.retest cluster t
          let s := s.post (.recall cluster cls)
          (s.ctx x).clusterList.foldl (fun s q => if (s.cluster q).diverts = 0 then s else s.post (.overflowWrite q)) s)

/-- The overflow-minimum of a timeline recomputed (R154). -/
def execOvminRecomputeDone (cluster slot : Nat) (s : State) : Result State :=
  .next (
    let m := (s.overflow cluster).foldl (fun b o =>
      if o.cluster = cluster && (o.item.tl.map Prod.fst) = some slot then stampMin b o.item.r.stamp else b) allOnes
    let s := s.modCluster cluster fun k => { k with tls := k.tls.set slot { k.tls.get slot {} with ovmin := m, recomp := false } }
    (s.retest cluster slot).posts [.recall cluster .req, .recall cluster .rpl, .recall cluster .sys])

/-! ### Link faults (R161, R405, R408) -/

/-- The router at the end of a bridge link: the lower row for the upper end. -/
def linkEnd (link : Nat) (up : Bool) : Nat :=
  let c := link / 36
  if up then (link % 36 % 6 + 6) * 16 + c else (link % 36 / 6) * 16 + c

/-- The router at which a link's events are logged, its receiving end: the upper one of a bridge link, a fabric port's own (R409). -/
def linkRouter (link : Nat) (up : Bool) : Nat := if link < 576 then linkEnd link up else routerOfSrc (0xD00 + (link - 576))

/-- The responses that come over a fabric port's link and of which no flit has been presented, flit by flit (R405, R423). -/
def State.onPort (s : State) (port : Nat) : List Flit :=
  let out := (s.router (routerOfSrc (0xD00 + port))).flits.filter fun f => f.fk = 1 && f.src = 0xD00 + port && s.cycle < f.due
  out.filter fun f => match f.req with
    | none => false
    | some id => match s.reqs.find id with
      | none => false
      | some q => (out.filter fun g => g.req = some id).length = q.rspPayloads.length

/-- The flits on one direction of a link, or on a fabric port's, at the router they are bound for: their link time is not over. -/
def State.onLink (s : State) (link : Nat) (up : Bool) : List Flit :=
  if link < 576 then
    (s.router (linkEnd link up)).flits.filter fun f =>
      portTo (linkEnd link up) (linkEnd link (!up)) = some f.port && s.cycle < f.due && !f.kept
  else if up then s.onPort (link - 576) else []

/-- The flits on a link go into its replay buffer, in their order, each with the link time it has left (R161, R405). -/
def State.holdLink (s : State) (link : Nat) : State :=
  let held := [true, false].flatMap fun up => (s.onLink link up).map fun f => (linkRouter link up, f)
  let s := held.foldl (fun (s : State) p => s.modRouter p.1 fun x => { x with flits := x.flits.erase p.2 }) s
  s.modLink link fun l => { l with
    buffer := l.buffer ++ held.map fun p => (p.1, { p.2 with due := p.2.due - s.cycle, age := p.2.age }, s.cycle) }

/-- A retraining is over: the flits of the replay buffer are delivered, older by the time it took (R147, R161). -/
def State.releaseLink (s : State) (link : Nat) : State :=
  let held := (s.links.get link {}).buffer
  let s := s.modLink link fun l => { l with buffer := [] }
  held.foldl (fun (s : State) p =>
    (s.modRouter p.1 fun x => { x with
      flits := x.flits ++ [{ p.2.1 with due := s.cycle + p.2.1.due, age := p.2.1.age + (s.cycle - p.2.2) }] }).postIn p.2.1.due
      (.flitArrival p.1)) s

/-- The requests under way through a fabric port: those to a peer or a reduction window whose target it is. -/
def State.atPort (s : State) (port : Nat) : List (Nat × MReq) :=
  s.reqs.filter fun p => p.2.stage = 1 && s.targetOf p.2 = 3000 + port

/-- The responses in a fabric port's replay buffer are lost: their requests are outstanding at the port again (R427). -/
def State.loseAnswers (s : State) (link : Nat) : State :=
  let ids := ((s.links.get link {}).buffer.filterMap fun p => p.2.1.req).eraseDups
  let s := s.modLink link fun l => { l with buffer := [] }
  ids.foldl (fun s id => match s.reqs.find id with
    | none => s
    | some r => s.setReq id { r with stage := 1, left := 0 }) s

/-- A link DOWN: a log entry and a machine-check (R405, R408, R409); a fabric port's answers the requests that are outstanding
on it with status 3, which a posted store's note reports (R427). -/
def State.linkDown (s : State) (link : Nat) : State :=
  let s := (s.holdLink link).modLink link fun l => { l with down := true, retrain := false }
  let r := linkRouter link true
  let s := s.logAt r 8 (0xE00 + r) 0 0xFF (Word.of link) (Word.of (2 ^ 63 + (s.links.get link {}).rate))
  let s := s.machineCheck .linkDown r (0xE00 + r) 0xFF (Word.of link)
  if 576 ≤ link && link < 600 then
    let s := s.loseAnswers link
    (s.atPort (link - 576)).foldl (fun s p => s.post (.pcieCompletionArrival p.1 3)) s
  else s

/-- A retraining at a rate: 12,288 cycles in which the link carries nothing (R161, R405). A second one begins the time anew. -/
def State.retrainAt (s : State) (link rate : Nat) : State :=
  let s := (s.holdLink link).modLink link fun l => { l with retrain := true, rate := rate, replays := 0, trainAt := s.cycle + 12288 }
  let r := linkRouter link true
  (s.logAt r 8 (0xE00 + r) 0 0xFF (Word.of link) (Word.of rate)).postIn 12288 (.retrainEnd link true)

/-- The flits on one direction of a link delayed by a replay, each presented when it arrives (R147, R149, R161). -/
def State.delayLink (s : State) (link : Nat) (up : Bool) (d : Nat) : State :=
  let hit := s.onLink link up
  let r := linkRouter link up
  let s := s.modRouter r fun x => { x with
    flits := x.flits.map fun f => if hit.contains f then { f with due := f.due + d, age := f.age + d } else f }
  hit.foldl (fun s f => s.postIn (f.due + d - s.cycle) (.flitArrival r)) s

/-- A CRC failure on a link direction: a replay, its log entry, and the counts of R405. The direction takes no new
flits, and its flits gain the time, for two link times (log 7). -/
def execLinkReplay (link : Nat) (up : Bool) (seqno : Word) (s : State) : Result State :=
  .next (
    let r := linkRouter link up
    let l := s.links.get link {}
    let d := 2 * s.linkTime (linkRouter link (!up)) r
    let s := s.logAt r 7 (0xE00 + r) 0 0xFF (Word.of link) seqno
    let start : Bool := l.winAt = 0 || l.winAt + 65536 ≤ s.cycle
    let n := if start then 1 else l.replays + 1
    let s := s.modLink link fun l => { l with
      replays := n, winAt := if start then max s.cycle 1 else l.winAt
      upTill := if up then max l.upTill (s.cycle + d) else l.upTill
      downTill := if up then l.downTill else max l.downTill (s.cycle + d) }
    let s := s.delayLink link up d
    if 16 ≤ n then (if 2 ≤ l.rate then s.linkDown link else s.retrainAt link (l.rate + 1)) else s)

/-- The end of a retraining: the link carries flits again, or it goes DOWN (R405). -/
def execRetrainEnd (link : Nat) (ok : Bool) (s : State) : Result State :=
  .next (
    let l := s.links.get link {}
    if !l.retrain || (ok && s.cycle < l.trainAt) then s
    else if ok then
      let s := (s.modLink link fun l => { l with retrain := false, down := false, replays := 0, winAt := 0 }).releaseLink link
      if link < 576 then s.posts [.flitArrival (linkEnd link true), .flitArrival (linkEnd link false)] else s
    else s.linkDown link)

end Sys2Proof.Machine
end

