-- ==== Sys2Proof/Machine/Queues.lean ====
section
/-! DEFINITION. The engine queues (R40 to R44, R312 to R320): pushing and popping, what happens at the head, counter
conditions and completion signals, results, and release markers (R311). -/

namespace Sys2Proof.Machine

open Sys2Proof

/-! ### Elements and entries -/

/-- The command words a queue holds (R312). -/
def queueDepth (q : Nat) : Nat := if q = 2 then 8 else 16

/-- Command words that have started and are not complete, or whose element is not placed. -/
def Queue.underway (Q : Queue) : Nat := (Q.entries.filter fun e => e.stage.started).length

/-- Command words waiting in a queue (R312, R314). -/
def Queue.used (Q : Queue) : Nat := (Q.entries.filter fun e => !e.marker && !e.stage.started).length

/-- The turn of an engine goes on from a core whose command it takes (R274, R339). -/
def State.turnOn (s : State) (c q : Nat) : State := match q with
  | 1 => s.modWalker (c / 16) fun w => { w with last := c % 16 }
  | 2 => s.modCluster (c / 4) fun k => { k with bulkLast := c % 4 }
  | _ => s

/-- The front command started, its element known, to complete `d` cycles from now; its engine's round robin goes on from its core (R274,
R339). -/
def State.startEntry (s : State) (c q d : Nat) (f : QEntry → QEntry) : State :=
  match (s.core c).queue q |>.front with
  | none => s
  | some e =>
    let (n, s) := s.newId
    let rs := ({ f e with uid := n } : QEntry).readReqs c q
    let s := (s.turnOn c q).modFront c q fun e =>
      { f e with stage := .running, due := s.cycle + d, uid := n, reads := [], openWork := (f e).openWork + rs.length }
    ((s.sendEngines c q rs).postIn d (.engineCommandComplete c (BitVec.ofNat 2 q) e.ser)).kickQueues c

/-- OVF of the accumulator that a matrix command names, in its place in an element (R313). -/
def State.accOvf (s : State) (c q : Nat) (cw : BitVec 256) : Nat :=
  let d := ((s.cluster (c / 4)).accd[cwFld cw 0 31 30]?).getD {}
  if q = 0 && cwClass cw = 0 && cwOp cw != 5 && d.ovf then 2 ^ 53 else 0

/-- The front command ended in error at its start: no addition (R43, R324). -/
def State.endError (s : State) (c q code d : Nat) : State :=
  s.startEntry c q d fun e => { e with elem := elemOf q e.ser code (s.accOvf c q e.cw), sigPa := none, reads := [] }

/-! ### The head of a queue (R43, R44) -/

/-- A counter that a command names, translated from the captured values: its address, or CODE 2 or 3 (R44). -/
def State.cmdCounter (s : State) (c : Nat) (e : QEntry) (h : BitVec 16) : Except Nat (Option Nat) × State :=
  if h = 0xFFFF then (.ok none, s)
  else match s.counterPa e.ctx (c / 4) e.ctrb h e.mode with
    | (.ok pa _ _ _, s) =>
      (.ok (some pa), s.preserveFor e.ctx e.tick pa (e.ctrb + Word.of (8 * h.toNat)).toNat e.mode)
    | (.bad code _ _, s) => (.error (if code = 4 then 2 else 3), s)

/-- Whether a command's counter condition is found to hold (R44); it is not while the counter is poisoned, or while its slice
changes its window (R254). -/
def State.waitMet (s : State) (e : QEntry) : Bool :=
  match e.waitPa with
  | none => true
  | some pa => !s.poisoned pa 8 && !s.switching pa && condHolds (s.readMem pa 8) (cwWaitt e.cw)

/-- The counter read for that test: a single-bit error is corrected (R260). -/
def State.waitRead (s : State) (e : QEntry) : State := match e.waitPa with
  | none => s
  | some pa => s.correct pa 8 false

/-- Whether the engines of a context start commands: not past the grace of a freeze (R336, R359, R379). -/
def State.enginesGo (s : State) (x : Nat) : Bool := match (s.ctx x).st with
  | .empty => true
  | .running => true
  | .freezing => s.cycle < (s.ctx x).graceEnd
  | .frozen => false
  | .thawing => false

/-- A command whose counter condition holds: the array takes it under its lease (R319), the other engines at once. -/
def State.arm (s : State) (c q : Nat) (e : QEntry) : State :=
  let s := s.modFront c q fun x => { x with stage := .armed }
  if q = 0 then s.post (.leaseGrant (c / 4)) else s.post (.command c e.cw)

/-- A command that has come to the head (R43, R44): reserved fields, its counters, its condition. -/
def State.examine (s : State) (c q : Nat) (e : QEntry) (legal : BitVec 256 → Bool) : State :=
  let bad := fun (s : State) (code : Nat) => s.endError c q code 2
  if cwFld e.cw 0 15 11 != 0 || !legal e.cw then bad s 1
  else match s.cmdCounter c e (cwWaith e.cw) with
    | (.error code, s) => bad s code
    | (.ok w, s) => match s.cmdCounter c e (cwSigh e.cw) with
      | (.error code, s) => bad s code
      | (.ok g, s) =>
        let s := s.modFront c q fun x => { x with waitPa := w, sigPa := g }
        let e := { e with waitPa := w, sigPa := g }
        let s := s.waitRead e
        if s.waitMet e then s.arm c q e
        else ((s.modFront c q fun x => { x with stage := .hold }).postIn 128 (.waithRecheck c (BitVec.ofNat 2 q))).kickQueues c

/-- A walker takes a command only with a free slot: 8 of its own, 4 for one core (R339). -/
def State.slotFree (s : State) (c : Nat) : Bool :=
  let busy := fun (c : Nat) => ((s.core c).qw.entries.filter fun e => e.stage = .running).length
  busy c < 4 && ((List.range 16).map fun i => busy (c / 16 * 16 + i)).foldl (· + ·) 0 < 8

/-- The cores that an engine serves, from the one after that whose command it started last: the sixteen of a walker (R339), the four of a
bulk sequencer (R274). -/
def State.rota (s : State) (c q : Nat) : List Nat :=
  if q = 1 then (List.range 16).map fun i => c / 16 * 16 + ((s.walker (c / 16)).last + 1 + i) % 16
  else (List.range 4).map fun i => c / 4 * 4 + ((s.cluster (c / 4)).bulkLast + 1 + i) % 4

/-- The queues that a walker or a bulk sequencer serves looked at in the order of its turns. -/
def State.wakeEngine (s : State) (c q : Nat) : State := if q = 0 then s else (s.rota c q).foldl State.kickQueues s

/-- Whether the head of a queue may be taken: a result place is reserved (R312), and in qw the walker has a slot (R339). -/
def State.headRoom (s : State) (c q : Nat) : Bool :=
  ((s.core c).queue q).fifo.length + ((s.core c).queue q).underway < 16 && (q != 1 || s.slotFree c)

/-- Whether an armed head waits for the commands before it in its queue: a `signal` does (R346), and a bulk command, since a queue runs one
at a time (R274). -/
def QEntry.behind (e : QEntry) (q : Nat) (es : List QEntry) : Bool :=
  e.stage = .armed && (q = 2 || cwOp e.cw = 0x28) && es.any fun o => o.stage = .running

/-- Whether an engine could take the head of a core's queue now, to examine it or to start it (R43, R274, R339). -/
def State.headDue (s : State) (q c : Nat) : Bool := match ((s.core c).queue q).front with
  | none => false
  | some e => !e.marker && e.entered && e.known && s.enginesGo e.ctx && (e.stage = .queued || e.stage = .armed) &&
    s.headRoom c q && !e.behind q ((s.core c).queue q).entries

/-- Whether the turn of an engine is at a core: the first in its round robin whose head may be taken (R274, R339). The array's turns are
leases (R319). -/
def State.inTurn (s : State) (c q : Nat) : Bool := q = 0 || ((s.rota c q).find? (s.headDue q)).all fun o => o = c

/-- Whether the traffic of an engine waits because injection is stopped: a cluster's own, or a walker's at all four of its router's ports
(R141, R157). -/
def State.engineStopped (s : State) (c q : Nat) : Bool :=
  if q = 1 then (List.range 4).all fun p => s.tooOld (c / 16 * 4 + p) else s.tooOld (c / 4)

/-- A head that is armed is started in its engine's round robin (R274, R339), and while injection is stopped none whose work is done over
the network (R157). -/
def State.startArmed (s : State) (c q : Nat) (cw : BitVec 256) (start : State → State) : State :=
  if q = 0 then s
  else if s.engineStopped c q then s.postIn 1 (.command c cw)
  else if !s.inTurn c q then s.postOnce 1 (.command c cw)
  else start s

/-- Whether a head has to wait for the reads of its counters, which an engine makes over the network: not while injection is stopped
(R44, R157). -/
def State.readsStopped (s : State) (c q : Nat) (e : QEntry) : Bool :=
  s.engineStopped c q && !(cwWaith e.cw = 0xFFFF && cwSigh e.cw = 0xFFFF)

/-- A command at the head of its class's queue: `legal` is its test of reserved fields (R43), `start` its own part. A
command that is not there, or not due, changes nothing. -/
def State.runHead (s : State) (c q : Nat) (cw : BitVec 256) (legal : BitVec 256 → Bool) (start : QEntry → State → State) :
    State :=
  match ((s.core c).queue q).front with
  | none => s
  | some e =>
    if e.marker || !e.entered || !e.known || e.cw != cw || !s.enginesGo e.ctx then s
    else match e.stage with
      | .queued =>
        if !s.headRoom c q then s
        else if !s.inTurn c q || s.readsStopped c q e then s.postOnce 1 (.command c cw)
        else s.examine c q e legal
      | .armed => s.startArmed c q cw (start e)
      | .granted => start e s
      | _ => s

/-- A queue looked at: what its first command that has not started may do next (R43, R312). A single-bit error of its entry is corrected and logged; an entry with an
uncorrectable one is a machine-check (R403, R408). DESIGN CHOICE: it then ends with CODE POISON (log 119). -/
def State.advanceQueue (s : State) (c q : Nat) : State :=
  let Q := (s.core c).queue q
  match Q.front with
  | none => s
  | some e =>
    if e.marker then s.post (.releaseMarkerHead c)
    else if !e.entered || !e.known || !s.enginesGo e.ctx then s
    else if e.err then
      if !s.headRoom c q then s
      else if !s.inTurn c q then s.postOnce 1 (.pushEntersQueue c 0)
      else ((s.machineCheck .engineQueue (routerOfCluster (c / 4)) c e.ctx 0).modFront c q fun x => { x with err := false }).endError c q 6 2
    else
    let s := if e.soft then (s.softLog (routerOfCluster (c / 4)) c e.ctx 0).modFront c q fun x => { x with soft := false } else s
    match e.stage with
      | .queued =>
        if !s.headRoom c q then s
        else if cwClass e.cw != q then
          if s.inTurn c q then s.endError c q 1 2 else s.postOnce 1 (.pushEntersQueue c 0)
        else s.post (.command c e.cw)
      | .armed => if q = 0 then s.post (.leaseGrant (c / 4)) else s.post (.command c e.cw)
      | _ => s

/-- A command held at the head tests its counter again, every 128 cycles (R44), its reads waiting while injection is stopped (R157). -/
def execWaithRecheck (core : Nat) (q : BitVec 2) (s : State) : Result State :=
  .next (
    match ((s.core core).queue q.toNat).front with
    | none => s
    | some e =>
      if e.stage != .hold then s
      else if s.engineStopped core q.toNat then s.postIn 1 (.waithRecheck core q)
      else if s.enginesGo e.ctx && s.waitMet e then (s.waitRead e).arm core q.toNat e
      else (s.waitRead e).postIn 128 (.waithRecheck core q))

/-! ### Completion (R41, R44, R312) -/

/-- An element for the running task: to its oldest waiting `pop`, else to the FIFO; the element of an ended task is
discarded (R312, R316). -/
def State.deliverElem (s : State) (c q : Nat) (e : QEntry) : State :=
  let k := s.core c
  if e.epoch != k.epoch then s
  else
    let Q := k.queue q
    match Q.pops with
    | [] => s.setCore c (k.setQueue q { Q with fifo := Q.fifo ++ [e.elem] })
    | n :: t =>
      let k := k.setQueue q { Q with pops := t }
      let k := match k.outs.find n with
        | some { dest := .reg d _ _, .. } => k.put d e.elem
        | _ => k
      (s.setCore c { k with outs := k.outs.erase n }).kick c

/-- Elements placed: in queue order in qm and qb, as they complete in qw (R312, R349). -/
def State.placeElems (s : State) (c q : Nat) : State :=
  let Q := (s.core c).queue q
  let isDone := fun (e : QEntry) => e.stage = .done
  let ready := if q = 1 then Q.entries.filter isDone else Q.entries.takeWhile isDone
  let rest := if q = 1 then Q.entries.filter (fun e => !isDone e) else Q.entries.dropWhile isDone
  if ready.isEmpty then s
  else
    let s := s.modCore c fun k => k.setQueue q { k.queue q with entries := rest }
    let s := (ready.foldl (fun s e => s.deliverElem c q e) s).kickQueues c
    s.wakeEngine c q

/-- Whether an earlier ordered command of a queue still has its addition to make (R41). -/
def orderHeld (seen : Bool) (e : QEntry) : List QEntry → Bool
  | [] => false
  | x :: t =>
    if x = e then seen
    else orderHeld (seen || (cwOrd x.cw && !x.marker && x.stage != .adding && x.stage != .done)) e t

/-- A complete command's addition, once order allows (R41, R44): a poisoned counter takes none, and the element says
so (R261). It waits while the counter's slice changes its window (R254) and while injection is stopped (R157). -/
def State.signalEntry (s : State) (c q : Nat) (e : QEntry) : State :=
  let is := fun (x : QEntry) => x = e
  match e.sigPa with
  | none => s.modEntry c q is fun x => { x with stage := .done }
  | some pa =>
    if cwOrd e.cw && orderHeld false e ((s.core c).queue q).entries then s
    else if s.switching pa then s.postIn 64 (.sighAnswer c (BitVec.ofNat 2 q) e.ser)
    else if s.engineStopped c q then s.postIn 1 (.sighAnswer c (BitVec.ofNat 2 q) e.ser)
    else
      let s := s.modEntry c q is fun x => { x with stage := .adding }
      match s.addCounter pa (Word.of (cwSigadd e.cw)) with
      | (true, s) => (s.mirror e.ctx e.tick pa 8).postIn 40 (.sighAnswer c (BitVec.ofNat 2 q) e.ser)
      | (false, s) =>
        let s := s.note (s.homeUnit pa).1 e.ctx 9 (Word.of pa) (Word.of (engineSrc c q)) 0
        let s := s.modEntry c q (fun x => x = { e with stage := .adding }) fun x =>
          { x with elem := x.elem ||| 0x8600000000000000 }
        s.postIn 40 (.sighAnswer c (BitVec.ofNat 2 q) e.ser)

/-- The complete commands of a queue make the additions that order allows. -/
def State.signalAll (s : State) (c q : Nat) : State :=
  ((((s.core c).queue q).entries.filter fun e => e.stage = .complete).foldl (fun s e => s.signalEntry c q e) s).placeElems c q

/-- The array writes its cluster's scratchpad, by no network, in the step in which its command completes (log 16). -/
def State.arrayWrites (s : State) (c : Nat) (e : QEntry) : State :=
  e.writes.foldl (fun s w => (s.bankWrite w.1 w.2.1 w.2.2 (engineSrc c 0) e.ctx).mirror e.ctx e.tick w.1 w.2.1) s

/-- A command whose time is over and whose work is done makes its writes, outside the array as requests to their homes; once they are acknowledged, or with
none, it is complete, its addition is made (R44, R328), and a walker's slot is free (R339). -/
def execEngineCommandComplete (core : Nat) (q : BitVec 2) (ser : BitVec 16) (s : State) : Result State :=
  .next (
    let is := fun (e : QEntry) => e.ser = ser && e.stage = .running && e.due ≤ s.cycle && e.openWork = 0 && !e.marker
    match ((s.core core).queue q.toNat).entries.find? is with
    | none => s
    | some e =>
      let rs := if q = 0 then [] else e.writeReqs core q.toNat
      let s := if q = 0 then s.arrayWrites core e else s
      if rs.isEmpty then
        ((s.modEntry core q.toNat is fun x => { x with stage := .complete, writes := [], slotWrites := [] }).signalAll core
          q.toNat).wakeEngine core q.toNat
      else (s.modEntry core q.toNat is fun x =>
        { x with openWork := rs.length, writes := [], slotWrites := [] }).sendEngines core q.toNat rs)

/-- The counter's home has answered a command's addition: its element may be placed (R44). -/
def execSighAnswer (core : Nat) (q : BitVec 2) (ser : BitVec 16) (s : State) : Result State :=
  .next ((s.modEntry core q.toNat (fun e => e.ser = ser && e.stage = .adding) fun x => { x with stage := .done }).signalAll
    core q.toNat)

/-! ### Pushing (R314, R315, R318, R321) -/

/-- An entry as a push captures it (R44). -/
def Core.entry (k : Core) (ser : BitVec 16) : QEntry :=
  { ser := ser, ctrb := k.ctrbase, mode := k.mode, ctx := k.ctx, epoch := k.epoch, issuer := k.issuer, tick := tick k.now
    seq := k.seq }

/-- The observer class of a queue's reads: M for qm, W for qw, C for qb (R318). -/
def queueMask (q : Nat) : BitVec 5 := match q with
  | 0 => 4
  | 1 => 2
  | _ => 1

/-- Entries appended to a queue of the running core by the word at hand, held until R318 lets them in. -/
def Core.pushed (k : Core) (q : BitVec 2) (es : List QEntry) : Core :=
  let Q := k.queue q.toNat
  let k := k.setQueue q.toNat { Q with entries := Q.entries ++ es, serial := Q.serial + BitVec.ofNat 16 es.length }
  { k with held := k.held.set k.seq (k.holding (.push q) (queueMask q.toNat)), seq := k.seq + 1, pc := k.pc + 4 }

/-- push (R314), held at issue by an acquire of the queue's class (R130). -/
def execPush (w : Bool) (q : BitVec 2) (a : BitVec 5) (s : State) : Result State :=
  word (.push w q a) (fun s =>
    let k := s.me
    let Q := k.queue q.toNat
    if k.acqHoldsPush q then s.stall
    else if queueDepth q.toNat ≤ Q.used then s.trap 0x0C (Word.of q.toNat)
    else
      let cw := k.getN (a.toNat + 3) ++ k.getN (a.toNat + 2) ++ k.getN (a.toNat + 1) ++ k.get a
      let e := { k.entry Q.serial with cw := cw }
      (s.setCore s.cur (k.pushed q [e])).post (.pushEntersQueue s.cur k.seq)) s

/-- The 32-byte pieces of a `pushm`, each translated as a load (R315). -/
def State.pieces (s : State) (ea : Word) : List Nat → Except Trap (List Nat) × State
  | [] => (.ok [], s)
  | i :: t =>
    let va := ea + Word.of (32 * i)
    match s.translate s.cur va .load with
    | (.bad c w l, s) => (.error (xlateTrap c w l va), s)
    | (.ok pa _ _ _, s) => match s.pieces ea t with
      | (.ok l, s) => (.ok (pa :: l), s)
      | (.error e, s) => (.error e, s)

/-- pushm (R315): n + 1 entries reserved, their bytes outstanding; its reads use no constant cache (R124). -/
def execPushm (w : Bool) (q : BitVec 2) (a : BitVec 5) (n : BitVec 3) (m : BitVec 14) (s : State) : Result State :=
  word (.pushm w q a n m) (fun s =>
    let ea := s.me.get a + (m.signExtend 64 <<< 5)
    let cnt := n.toNat + 1
    match eaBad ea 32 with
    | some t => s.trapWith t
    | none =>
      if s.me.acqHoldsPush q then s.stall
      else if queueDepth q.toNat < (s.me.queue q.toNat).used + cnt then s.trap 0x0C (Word.of q.toNat)
      else match s.pieces ea (List.range cnt) with
        | (.error t, s) => s.trapWith t
        | (.ok l, s) =>
          if l.any fun p => s.mustWait p 32 cnt 0 then s.stall
          else
            let k := s.me
            let ser := (k.queue q.toNat).serial
            let es := (List.range cnt).map fun i => { k.entry (ser + BitVec.ofNat 16 i) with known := false, multi := true }
            let s := s.issueAll (((List.range cnt).zip l).map fun p =>
              { core := 0, seq := 0, kind := .cmd q, pa := p.2, bytes := 32, badAt := ea
                data2 := (ser + BitVec.ofNat 16 p.1).setWidth 64 })
              (some { iaddr := k.pc, ea := ea, load := cnt }) 0 none false
            s.modMe fun q' => { k.pushed q es with outs := q'.outs, mseqs := q'.mseqs }) s

/-- A pushed command enters its queue once its words are known (R315) and every earlier load has returned, every earlier store is performed and every
earlier row instruction has written (R318); the queues are then looked at. -/
def execPushEntersQueue (core seq : Nat) (s : State) : Result State :=
  .next (
    let k := s.core core
    let s := match k.held.find seq with
      | some { what := .push q, bound := b, mask := m, fence := g } =>
        let Q := k.queue q.toNat
        if Q.entries.any fun e => !e.marker && e.seq = seq && !e.known then s
        else if k.mayLeave b m g && k.rowQ.all (fun o => b ≤ o.seq) && k.rowRun.all (fun r => b ≤ r.op.seq) then
          s.setCore core { k.setQueue q.toNat { Q with entries := Q.entries.map fun e =>
            if !e.marker && e.seq = seq then { e with entered := true } else e } with held := k.held.erase seq }
        else s
      | _ => s
    let s : State := [0, 1, 2].foldl (fun s q => s.advanceQueue core q) s
    if (s.cluster (core / 4)).lease = some (core % 4) then s.post (.leaseGrant (core / 4)) else s)

/-! ### pop and qstat (R316, R317) -/

/-- The element of an empty queue: ERR and CODE EMPTY (R316). -/
def emptyElem : Word := 0xFF00000000000000

/-- pop (R316): an element that waits is an answer on its way; a pop beyond the elements of the commands at hand waits for those of later
ones (log 63). -/
def execPop (w : Bool) (q : BitVec 2) (a : BitVec 5) (s : State) : Result State :=
  word (.pop w q a) (fun s =>
    let k := s.me
    let Q := k.queue q.toNat
    match Q.fifo with
    | v :: t =>
      ((s.setCore s.cur (k.setQueue q.toNat { Q with fifo := t })).lateResult a v).kickQueues s.cur
    | [] =>
      if Q.entries.any fun e => !e.marker && e.epoch = k.epoch then
        s.setCore s.cur { k.setQueue q.toNat { Q with pops := Q.pops ++ [k.seq] } with
          outs := k.outs.set k.seq { iaddr := k.pc, dest := .reg a 8 false }, seq := k.seq + 1, pc := k.pc + 4 }
      else s.result a emptyElem) s

/-- A queue as `qstat` shows it to the running task (R317). PRIOR counts the commands of ended tasks that have started as well as those
that wait, up to 16 (DESIGN CHOICE, log 154). -/
def State.qstatOf (s : State) (c q : Nat) : Word :=
  let k := s.core c
  let Q := k.queue q
  let v := s.cluster (c / 4)
  let cmds := Q.entries.filter fun e => !e.marker
  let mine := cmds.filter fun e => e.epoch = k.epoch
  let accs := (List.range 4).foldl (fun n i => match v.accd[i]? with
    | some d => if d.v && d.ocore = c % 4 then n + 2 ^ i else n
    | none => n) 0
  Word.of (
    min (cmds.length - mine.length) 16 * 2 ^ 38 +
    (if q = 0 then (if Q.entries.any fun e => e.marker then 2 ^ 37 else 0) + accs * 2 ^ 33 +
      (if v.lease = some (c % 4) then 2 ^ 31 else 0) else 0) +
    (if mine.any fun e => e.stage = .hold then 2 ^ 32 else 0) +
    Q.serial.toNat * 2 ^ 15 + min Q.fifo.length 16 * 2 ^ 10 +
    (mine.filter fun e => e.stage.started).length * 2 ^ 5 +
    (mine.filter fun e => !e.stage.started).length)

/-- qstat (R317). -/
def execQstat (w : Bool) (q : BitVec 2) (a : BitVec 5) (s : State) : Result State :=
  word (.qstat w q a) (fun s => s.result a (s.qstatOf s.cur q.toNat)) s

end Sys2Proof.Machine
end

