-- ==== Sys2Proof/Machine/Vector.lean ====
section
/-! DEFINITION. The vector unit (R282 to R285, R302, R303): the elements of a row, what each kind of row instruction
reads, needs and computes (R286 to R301), and the start and the writing of a row. -/

namespace Sys2Proof.Machine

open Sys2Proof

/-! ### Elements (R289) -/

/-- Element `i` of width `w` bytes. -/
def elem (v w i : Nat) : Nat := v / 256 ^ (w * i) % 256 ^ w

/-- The first `n` elements of width `w` bytes. -/
def elems (v w n : Nat) : List Nat := (List.range n).map (elem v w)

/-- Elements of width `w` bytes packed, the first lowest. -/
def packElems (w : Nat) : List Nat → Nat
  | [] => 0
  | x :: t => x % 256 ^ w + 256 ^ w * packElems w t

/-- A row from elements. -/
def rowOfElems (w : Nat) (l : List Nat) : Row := BitVec.ofNat 512 (packElems w l)

/-- Width in bytes of a type code that is no block type. -/
def tyBytes (code : Nat) : Nat := tyBits code / 8

/-- Whether a type code is a four-bit family (R58). -/
def isFour (ty : BitVec 4) : Bool := 11 ≤ ty.toNat && ty.toNat ≤ 14

/-- The code of nibble `i` of a row (R64). -/
def nibble (v i : Nat) : Nat := v / 16 ^ i % 16

/-- Results with flags: the values, and the OR of the flags. -/
def gather (l : List (Nat × Flags)) : List Nat × Flags := (l.map Prod.fst, l.foldl (fun f p => f ||| p.2) 0)

/-! ### Lanes -/

/-- An integer of `w` bytes, signed unless the type is n8. -/
def intVal (ty w v : Nat) : Int := if tySigned ty then signedOf w v else ((v % 256 ^ w : Nat) : Int)

/-- An integer wrapped to `w` bytes. -/
def wrapInt (w : Nat) (n : Int) : Nat := (n % (256 ^ w : Nat)).toNat

/-- One lane of R290 on integers; the old D is the mask of `vsel`. -/
def intLane (fn ty w a b d : Nat) : Nat :=
  let m := 256 ^ w
  let x := intVal ty w a
  let y := intVal ty w b
  let sh := b % (8 * w)
  let mask := fun (c : Bool) => if c then m - 1 else 0
  match fn with
  | 0 => wrapInt w (x + y)
  | 1 => wrapInt w (x - y)
  | 2 => wrapInt w (x * y)
  | 3 => if y < x then b else a
  | 4 => if x < y then b else a
  | 5 => wrapInt w x.natAbs
  | 6 => wrapInt w (-x)
  | 7 => a &&& b
  | 8 => a ||| b
  | 9 => a ^^^ b
  | 10 => a * 2 ^ sh % m
  | 11 => a / 2 ^ sh
  | 12 => wrapInt w (x / 2 ^ sh)
  | 13 => mask (x < y)
  | 14 => mask (x ≤ y)
  | 15 => mask (x = y)
  | 16 => if d = 0 then b else a
  | _ => a

/-- One lane of R290 on floating-point values of `w` bytes: the sign operations keep an f19's value bits alone, and `vsel` gives a
canonical NaN too (R60, R61, R289). -/
def floatLane (f : Fmt) (rm : BitVec 3) (fn w a b d : Nat) : Nat × Flags :=
  let mask := fun (r : Bool × Flags) => (if r.1 then 256 ^ w - 1 else 0, r.2)
  let signBit := 2 ^ (8 * w - 1)
  let kept := f.kept a
  match fn with
  | 0 => f.add rm a b
  | 1 => f.sub rm a b
  | 2 => f.mul rm a b
  | 3 => (f.minMax false a b, 0)
  | 4 => (f.minMax true a b, 0)
  | 5 => (kept % signBit, 0)
  | 6 => (kept ^^^ signBit, 0)
  | 13 => mask (f.cmp 0 a b)
  | 14 => mask (f.cmp 1 a b)
  | 15 => mask (f.cmp 2 a b)
  | 16 => (f.passed (if d = 0 then b else a), 0)
  | _ => (a, 0)

/-- One lane of R290 by type code; `vsel` and `vmov` take any type. -/
def lane (ty : Nat) (rm : BitVec 3) (fn w a b d : Nat) : Nat × Flags :=
  match fmtOf ty with
  | some f => floatLane f rm fn w a b d
  | none => (intLane fn ty w a b d, 0)

/-- The pairs of a level of a tree, joined by `op` (R298). -/
def pairUp (op : Nat → Nat → Nat × Flags) : List Nat → List (Nat × Flags)
  | a :: b :: t => op a b :: pairUp op t
  | [a] => [(a, 0)]
  | [] => []

/-- The tree of R298 over at most 2^n elements: its root and the OR of its flags. -/
def treeOf (op : Nat → Nat → Nat × Flags) : Nat → List Nat → Flags → Nat × Flags
  | 0, l, fl => (l.headD 0, fl)
  | n + 1, l, fl =>
    if l.length ≤ 1 then (l.headD 0, fl)
    else
      let r := gather (pairUp op l)
      treeOf op n r.1 (fl ||| r.2)

/-- One step of the scan of R298, at distance `d`. -/
def scanStep (op : Nat → Nat → Nat × Flags) (z : List Nat × Flags) (d : Nat) : List Nat × Flags :=
  if z.1.length ≤ d then z
  else
    let r := gather ((List.range z.1.length).map fun i =>
      if i < d then (z.1.getD i 0, 0) else op (z.1.getD (i - d) 0) (z.1.getD i 0))
    (r.1, z.2 ||| r.2)

/-- The inclusive scan of R298. -/
def scanOf (op : Nat → Nat → Nat × Flags) (l : List Nat) : List Nat × Flags :=
  [1, 2, 4, 8, 16, 32].foldl (scanStep op) (l, 0)

/-- An element that a scan or a sum takes over as it stands: as a floating-point result it follows R60 and R61 (R289,
R275). -/
def tyPassed (ty v : Nat) : Nat := match fmtOf ty with
  | some f => f.passed v
  | none => v

/-- How many of the first `i` control bytes are set (R299). -/
def setBefore (c : List Nat) (i : Nat) : Nat := ((c.take i).filter (· != 0)).length

/-- The largest magnitude of finite values, an infinity counting as the largest finite one (R69). -/
def amaxOf (f : Fmt) (l : List FVal) : Ex :=
  l.foldl (fun m v =>
    let x : Ex := match v with
      | .fin y => { y with neg := false }
      | .inf _ => f.magVal false f.maxEnc
      | .nan _ => { neg := false, m := 0, e := 0 }
    if m.lt x then x else m) { neg := false, m := 0, e := 0 }

/-- The scale word of a block under the OCP rule; a block with a NaN gets a NaN block (R69). -/
def ocpWord (family : Nat) (f : Fmt) (l : List FVal) : BitVec 20 :=
  if l.any FVal.isNan then scaleWord family 0xFF 0 else scaleOcp family (amaxOf f l)

/-- One lane of `vneur` (R301): potential, counter, whether it spiked, flags. -/
structure Neuron where
  d : Nat
  t : Nat
  spike : Bool
  flags : Flags
deriving DecidableEq, Repr

/-- One lane of `vneur` from the potential, the current and the counter (R300, R301). -/
def neuron (f : Fmt) (rm : BitVec 3) (np0 np1 np2 : Word) (d a t : Nat) : Neuron :=
  let f32 := fmtD 0
  let reset := f.convert rm (f32.val (np1.fld 31 0))
  if 0 < t then { d := reset.1, t := t - 1, spike := false, flags := reset.2 }
  else
    let p := fFmaV rm (f.val d) (f32.val (np0.fld 31 0)) (f.val a)
    let u := f.result rm p.1 p.2
    let floor := f.convert rm (f32.val (np2.fld 31 0))
    let v := f.minMax true u.1 floor.1
    let fl := u.2 ||| floor.2
    let th := f32.val (np0.fld 63 32)
    if th.isNan || (f.val v).isNan || (f.val v).lt th then { d := v, t := 0, spike := false, flags := fl }
    else { d := reset.1, t := np1.fld 39 32, spike := true, flags := fl ||| reset.2 }

/-! ### What a row instruction reads, needs and writes (R286, R287) -/

/-- The key of a tile's row. -/
def rowKey (t : BitVec 3) (r : BitVec 6) : Nat := t.toNat * 64 + r.toNat

/-- Whether a code of R290 takes two operands. -/
def arithTwo (fn : Nat) : Bool := !(fn = 5 || fn = 6 || fn = 17)

/-- Whether a kind reads the tb row. -/
def RowKind.readsB : RowKind → Bool
  | .arith fn => arithTwo fn
  | .fma => true
  | .refine _ => true
  | .perm => true
  | .ins => true
  | .ext => true
  | .neur => true
  | .cvt _ _ => false
  | .qnt _ => false
  | .dq _ => false
  | .special _ => false
  | .red _ => false
  | .scan => false
  | .bcast _ => false

/-- Whether a kind reads the values of the td row. -/
def RowKind.readsD : RowKind → Bool
  | .arith fn => fn = 16
  | .fma => true
  | .ins => true
  | .neur => true
  | .refine _ => false
  | .perm => false
  | .ext => false
  | .cvt _ _ => false
  | .qnt _ => false
  | .dq _ => false
  | .special _ => false
  | .red _ => false
  | .scan => false
  | .bcast _ => false

/-- The rows whose values are read. -/
def RowOp.reads (o : RowOp) : List Nat :=
  rowKey o.a o.row :: ((if o.kind.readsB then [rowKey o.b o.row] else []) ++ (if o.kind.readsD then [rowKey o.d o.row] else []))

/-- The sidecar slots of its ta row that a kind reads: those of its part for a dequantisation (R295), all eight for a move of a block
type (R291). -/
def RowOp.readsSide (o : RowOp) : List Nat :=
  match o.kind with
  | .dq part =>
    let n := 64 / tyBytes o.ty.toNat
    ((List.range n).map fun i => (part * n + i) / (if o.geo then 16 else 32)).eraseDups
  | .arith fn => if fn = 17 && isFour o.ty then List.range 8 else []
  | .fma => []
  | .cvt _ _ => []
  | .qnt _ => []
  | .special _ => []
  | .refine _ => []
  | .red _ => []
  | .scan => []
  | .perm => []
  | .ins => []
  | .ext => []
  | .bcast _ => []
  | .neur => []

/-- The rows written. -/
def RowOp.writes (o : RowOp) : List Nat :=
  rowKey o.d o.row :: (if o.kind = .neur then [rowKey o.b o.row] else [])

/-- The tag tests of R287, in the order ta, tb, td: tile, tags accepted, the tag reported as wanted (R288). -/
def RowOp.tags (o : RowOp) : List (BitVec 3 × List (BitVec 4) × BitVec 4) :=
  let ta := (o.a, [o.ty], o.ty)
  let tb := (o.b, [o.ty], o.ty)
  let td := (o.d, [o.ty], o.ty)
  match o.kind with
  | .arith fn =>
    ta :: ((if arithTwo fn then [tb] else []) ++ (if fn = 16 then [(o.d, [8], 8)] else []))
  | .fma => [ta, tb, td]
  | .cvt _ _ => [ta]
  | .qnt _ => [(o.a, [0, 3, 4], 0)]
  | .dq _ => [(o.a, [11, 12, 13, 14], 12)]
  | .special _ => [ta]
  | .refine _ => [ta, tb]
  | .red _ => [ta]
  | .scan => [ta]
  | .perm => [ta, (o.b, [8], 8)]
  | .ins => [ta, (o.b, [8], 8)]
  | .ext => [ta, (o.b, [8], 8)]
  | .bcast _ => [ta]
  | .neur => [ta, (let t : BitVec 4 := if o.ty = 0 then 10 else 9; (o.b, [t], t)), td]

/-- The descriptor that td takes at issue (R280, R287, R294); `src` is ta's. -/
def RowOp.retag (o : RowOp) (src td : TileDesc) : TileDesc :=
  match o.kind with
  | .arith fn =>
    if fn = 17 then { geo := src.geo, tag := o.ty }
    else if 13 ≤ fn && fn ≤ 15 then { td with tag := 8 }
    else { td with tag := o.ty }
  | .cvt dst _ => { td with tag := dst }
  | .qnt _ => { geo := src.tag = 0, tag := o.ty }
  | _ => { td with tag := o.ty }

/-- The latency of a kind (R284). -/
def RowKind.latency : RowKind → Nat
  | .special _ => 8
  | .refine _ => 8
  | .red _ => 10
  | .scan => 10
  | .qnt _ => 10
  | .arith _ => 4
  | .fma => 4
  | .cvt _ _ => 4
  | .dq _ => 4
  | .perm => 4
  | .ins => 4
  | .ext => 4
  | .bcast _ => 4
  | .neur => 4

/-! ### What a row instruction computes (R289 to R301) -/

/-- The rows, sidecars, spikes and flags of a row instruction from the rows it reads. DESIGN CHOICE: a `vmov` of a block type copies
all eight slots (R291) under GEO 0 too, where R279 has the unused slots written zero (log 140). -/
def Core.rowResult (k : Core) (o : RowOp) : RowRun :=
  let A := (k.row o.a.toNat o.row.toNat).toNat
  let B := (k.row o.b.toNat o.row.toNat).toNat
  let D := (k.row o.d.toNat o.row.toNat).toNat
  let key := rowKey o.d o.row
  let ty := o.ty.toNat
  let w := tyBytes ty
  let n := 64 / w
  let f := fmtD ty
  let whole := fun (r : List Nat × Flags) => ({ op := o, rows := [(key, rowOfElems w r.1)], flags := r.2 } : RowRun)
  let lanes := fun (g : Nat → Nat → Nat → Nat × Flags) =>
    whole (gather ((List.range n).map fun i => g (elem A w i) (elem B w i) (elem D w i)))
  let op := fun (fn : Nat) (a b : Nat) => lane ty o.frm fn w a b 0
  match o.kind with
  | .arith fn =>
    if fn = 17 then
      { op := o, rows := [(key, k.row o.a.toNat o.row.toNat)],
        side := if isFour o.ty then [(key, k.sideOf o.a.toNat o.row.toNat)] else [] }
    else lanes (lane ty o.frm fn w)
  | .fma => lanes fun a b d => f.fma o.frm a b d
  | .special fn =>
    lanes fun a _ _ => match fn with
      | 0 => f.vrcp o.frm a
      | 1 => f.vrsq o.frm a
      | 4 => f.vexp2 o.frm a
      | _ => f.vlog2 o.frm a
  | .refine half => lanes fun a b _ => f.refine o.frm half a b
  | .cvt dst part =>
    let wt := tyBytes dst.toNat
    let m := 64 / max w wt
    let r := gather ((List.range m).map fun i =>
      tyConvert dst.toNat false o.frm (tyVal ty false (elem A w (if wt ≤ w then i else part * m + i))))
    if w ≤ wt then { op := o, rows := [(key, rowOfElems wt r.1)], flags := r.2 }
    else
      let out := (List.range (64 / wt)).map fun j =>
        if part * m ≤ j && j < part * m + m then r.1.getD (j - part * m) 0 else elem D wt j
      { op := o, rows := [(key, rowOfElems wt out)], part := true, flags := r.2 }
  | .qnt part =>
    let ws := tyBytes o.tag.toNat
    let m := 64 / ws
    let fs := fmtD o.tag.toNat
    let vals := (elems A ws m).map fs.val
    let sw := ocpWord (ty - 11) fs vals
    let r := gather (vals.map (quantise o.frm sw))
    let lo := 16 ^ (part * m)
    let v := D - D / lo % 16 ^ m * lo + (r.1.foldr (fun c acc => c + 16 * acc) 0) * lo
    let sd := setSlot (k.sideOf o.d.toNat o.row.toNat) part sw
    { op := o, rows := [(key, BitVec.ofNat 512 v)], part := true
      side := [(key, if m = 32 then BitVec.ofNat 160 (sd.toNat % 2 ^ 80) else sd)], flags := r.2 }
  | .dq part =>
    let bg := if o.geo then 16 else 32
    let sd := k.sideOf o.a.toNat o.row.toNat
    whole (gather ((List.range n).map fun i =>
      f.convert o.frm (codeVal (slotOf sd ((part * n + i) / bg)) (nibble A (part * n + i)))))
  | .red fn =>
    let y := if fn = 3 then (elems A w n).map fun a => (lane ty o.frm 5 w a 0 0).1 else elems A w n
    let r := treeOf (op (match fn with
      | 0 => 0
      | 1 => 3
      | _ => 4)) 6 y 0
    whole (r.1 :: List.replicate (n - 1) 0, r.2)
  | .scan =>
    let r := scanOf (op 0) (elems A w n)
    whole (match r.1 with
      | v :: t => tyPassed ty v :: t
      | [] => [], r.2)
  | .perm =>
    whole ((List.range n).map (fun i =>
      let c := elem B 1 (i * w)
      if c < n then elem A w c else 0), 0)
  | .ins =>
    let c := (List.range n).map fun i => elem B 1 (i * w)
    whole ((List.range n).map (fun i =>
      if c.getD i 0 = 0 then elem D w i else elem A w (setBefore c i)), 0)
  | .ext =>
    let l := ((List.range n).filter fun i => elem B 1 (i * w) != 0).map (elem A w)
    whole (l ++ List.replicate (n - l.length) 0, 0)
  | .bcast j => whole (List.replicate n (elem A w j), 0)
  | .neur =>
    let l := (List.range n).map fun i => neuron f o.frm o.np0 o.np1 o.np2 (elem D w i) (elem A w i) (elem B w i)
    let m := (List.range n).foldl (fun s i => if (l[i]?.map Neuron.spike).getD false then s + 2 ^ i else s) 0
    { op := o, rows := [(key, rowOfElems w (l.map Neuron.d)), (rowKey o.b o.row, rowOfElems w (l.map Neuron.t))]
      flags := l.foldl (fun fl x => fl ||| x.flags) 0, spk := some (Word.of m) }

/-- A row instruction as the unit carries it out: an uncorrectable error in what it reads, or a second disagreement
of the checker, writes nothing (R302, R303). -/
def Core.rowRunOf (k : Core) (o : RowOp) : RowRun :=
  if (o.reads.any k.rowBad) || o.readsSide.any (fun j => k.badSide.contains (rowKey o.a o.row * 8 + j)) then { op := o, fail := some (false, o.row) }
  else if 2 ≤ k.rowUpset then { op := o, fail := some (true, o.row) }
  else k.rowResult o

/-! ### Issue (R282, R286) -/

/-- The first tile that fails its tag test (R286), as the `tval` of R288. -/
def Core.tagFault (k : Core) : List (BitVec 3 × List (BitVec 4) × BitVec 4) → Option Word
  | [] => none
  | (t, ok, want) :: rest =>
    let tag := (k.tile t).tag
    if ok.contains tag then k.tagFault rest else some (Word.of (t.toNat * 256 + tag.toNat * 16 + want.toNat))

/-- Whether a tile is held for a pushed command that has not read it (R321). -/
def Core.tileHeld (k : Core) (t : BitVec 3) : Bool :=
  k.qm.entries.any fun e => !e.marker && (!e.known || (!e.stage.started && (cwTiles e.cw).contains t))

/-- Whether a row of a core is still to be written by one of its tile loads (R139). -/
def State.loading (s : State) (c key : Nat) : Bool :=
  s.reqs.any fun p => p.2.core = c && p.2.kind = .rowLoad && (match p.2.dest with
    | .row t r => rowKey t r = key
    | .reg _ _ _ => false
    | .none => false)

/-- A row instruction (R286): the tests, then its place in its core's queue, with the retagging of R280; a full
queue, or a tile held for a command (R321), stalls it. -/
def rowWord (i : Instr) (mk : Core → RowOp) (s : State) : Result State :=
  word i (fun s =>
    let k := s.me
    let o := mk k
    let src := k.tile o.a
    let o := { o with
      frm := k.frm, tag := src.tag, geo := src.geo, np0 := k.nparam0, np1 := k.nparam1, np2 := k.nparam2
      word := (encode i).setWidth 32, iaddr := k.pc, seq := k.seq }
    match k.tagFault o.tags with
    | some tv => s.trap 0x08 tv
    | none =>
      let wide := match o.kind with
        | .qnt p => 4 ≤ p && src.tag != 0
        | _ => false
      if wide then s.trap 0x01 (wordTval i)
      else if 8 ≤ k.rowQ.length || k.tileHeld o.d || (o.kind = .neur && k.tileHeld o.b) then s.stall
      else
        let s := s.modMe fun k =>
          { k.setTile o.d (o.retag src (k.tile o.d)) with rowQ := k.rowQ ++ [o], seq := k.seq + 1, pc := k.pc + 4 }
        s.post (.vectorUnitStart s.myCluster)) s

/-! ### The unit (R282 to R284, R302, R303) -/

/-- Whether the head of a core's queue is ready (R282). -/
def State.headReady (s : State) (c : Nat) : Bool :=
  let k := s.core c
  match k.rowQ with
  | [] => false
  | o :: _ =>
    k.rowRun.all (fun r => r.fail.isNone) &&
    (o.reads ++ o.writes).all fun key =>
      !(k.rowRun.any fun r => r.op.writes.contains key) && !s.loading c key

/-- The core whose head starts next, counting from the one after the last served (R282). -/
def State.nextVector (s : State) (cl : Nat) : Option Nat :=
  ((List.range 4).map fun j => 4 * cl + ((s.cluster cl).vecLast + 1 + j) % 4).find? s.headReady

/-- The vector unit starts at most one row instruction a cycle (R282): it computes from the rows as they stand, with their
single-bit errors corrected (R403). -/
def execVectorUnitStart (cluster : Nat) (s : State) : Result State :=
  .next (
    let v := s.cluster cluster
    if s.cycle < v.vecAt then s.postIn (v.vecAt - s.cycle) (.vectorUnitStart cluster)
    else match s.nextVector cluster with
      | none => s
      | some c =>
        match (s.core c).rowQ with
        | [] => s
        | o :: rest =>
          let s := s.softTiles c (fun b => o.reads.contains (b / 8)) fun b => b / 8 = rowKey o.a o.row && o.readsSide.contains (b % 8)
          let k := s.core c
          let r := { k.rowRunOf o with due := s.cycle + o.kind.latency }
          let s := if k.rowUpset = 1 then
              s.logAt (routerOfSrc c) 3 c 0 k.ctx o.iaddr (o.word.setWidth 64)
            else if 2 ≤ k.rowUpset then s.logAt (routerOfSrc c) 4 c 0 k.ctx o.iaddr (o.word.setWidth 64)
            else s
          let s := s.setCore c { k with rowQ := rest, rowRun := k.rowRun ++ [r], rowUpset := k.rowUpset - 2 }
          let s := s.modCluster cluster fun q => { q with vecLast := c % 4, vecAt := s.cycle + 1 }
          (s.postIn o.kind.latency (.rowWrite c)).postIn 1 (.vectorUnitStart cluster))

/-- The rows, sidecars, flags and spikes of one instruction written (R278, R289, R301); a failed one reports its
fault and the instructions queued behind it are discarded (R302, R303). -/
def State.writeRun (s : State) (c : Nat) (r : RowRun) : State :=
  match r.fail with
  | some (true, _) =>
    (s.modCore c fun k => { k with rowQ := [] }).defer c r.op.seq
      { code := 0x11, pc := 0, tval := r.op.word.setWidth 64, iaddr := some r.op.iaddr }
  | some (false, row) =>
    (s.modCore c fun k => { k with rowQ := [] }).defer c r.op.seq
      { code := 0x06, pc := 0, tval := 0, iaddr := some r.op.iaddr, row := row }
  | none =>
    s.modCore c fun k =>
      let bad := (k.badRows, k.badSide)
      let k := r.rows.foldl (fun (k : Core) p => k.setRow (p.1 / 64) (p.1 % 64) p.2) k
      let k := r.side.foldl (fun (k : Core) p => k.setSide (p.1 / 64) (p.1 % 64) p.2) k
      let k := if r.part then { k with badRows := bad.1, badSide := bad.2 } else k
      let k := k.orFlags r.flags
      match r.spk with
      | none => k
      | some m => { k with
          spk := m
          nparam3 := Word.of ((k.nparam3.toNat + ((List.range 32).filter m.getLsbD).length) % 2 ^ 32) }

/-- The instructions at the front that are due, written in program order (R283). -/
def State.writeRuns (s : State) (c : Nat) : List RowRun → State
  | [] => s.modCore c fun k => { k with rowRun := [] }
  | r :: t => if r.due ≤ s.cycle then (s.writeRun c r).writeRuns c t else s.modCore c fun k => { k with rowRun := r :: t }

/-- Rows written at their latency (R284). -/
def execRowWrite (core : Nat) (s : State) : Result State :=
  .next (((s.writeRuns core (s.core core).rowRun).kick core).post (.vectorUnitStart (core / 4)))

/-- Whether a row instruction of a core still reads or writes one of a tile's rows (R285). -/
def Core.touches (k : Core) (is : Nat → Bool) : Bool :=
  (k.rowQ.any fun o => (o.reads ++ o.writes).any is) || k.rowRun.any fun r => (r.op.reads ++ r.op.writes).any is

/-- Whether a row instruction of a core is still to write one of some rows (R285). -/
def Core.willWrite (k : Core) (is : Nat → Bool) : Bool :=
  (k.rowQ.any fun o => o.writes.any is) || k.rowRun.any fun r => r.op.writes.any is

/-! ### The words -/

/-- vadd, T form (R290). -/
def execVadd (w : Bool) (d : BitVec 3) (a : BitVec 3) (b : BitVec 3) (r : BitVec 5) (y : BitVec 4) (s : State) : Result State :=
  rowWord (.vadd w d a b r y) (fun _ => { kind := .arith 0, ty := y, d := d, a := a, b := b, row := rowT r }) s

/-- vadd, X form (R290). -/
def execVaddX (w : Bool) (d : BitVec 3) (a : BitVec 3) (b : BitVec 3) (x : BitVec 5) (y : BitVec 4) (s : State) : Result State :=
  rowWord (.vaddX w d a b x y) (fun k => { kind := .arith 0, ty := y, d := d, a := a, b := b, row := k.rowX x }) s

/-- vsub, T form (R290). -/
def execVsub (w : Bool) (d : BitVec 3) (a : BitVec 3) (b : BitVec 3) (r : BitVec 5) (y : BitVec 4) (s : State) : Result State :=
  rowWord (.vsub w d a b r y) (fun _ => { kind := .arith 1, ty := y, d := d, a := a, b := b, row := rowT r }) s

/-- vsub, X form (R290). -/
def execVsubX (w : Bool) (d : BitVec 3) (a : BitVec 3) (b : BitVec 3) (x : BitVec 5) (y : BitVec 4) (s : State) : Result State :=
  rowWord (.vsubX w d a b x y) (fun k => { kind := .arith 1, ty := y, d := d, a := a, b := b, row := k.rowX x }) s

/-- vmul, T form (R290). -/
def execVmul (w : Bool) (d : BitVec 3) (a : BitVec 3) (b : BitVec 3) (r : BitVec 5) (y : BitVec 4) (s : State) : Result State :=
  rowWord (.vmul w d a b r y) (fun _ => { kind := .arith 2, ty := y, d := d, a := a, b := b, row := rowT r }) s

/-- vmul, X form (R290). -/
def execVmulX (w : Bool) (d : BitVec 3) (a : BitVec 3) (b : BitVec 3) (x : BitVec 5) (y : BitVec 4) (s : State) : Result State :=
  rowWord (.vmulX w d a b x y) (fun k => { kind := .arith 2, ty := y, d := d, a := a, b := b, row := k.rowX x }) s

/-- vmin, T form (R290). -/
def execVmin (w : Bool) (d : BitVec 3) (a : BitVec 3) (b : BitVec 3) (r : BitVec 5) (y : BitVec 4) (s : State) : Result State :=
  rowWord (.vmin w d a b r y) (fun _ => { kind := .arith 3, ty := y, d := d, a := a, b := b, row := rowT r }) s

/-- vmin, X form (R290). -/
def execVminX (w : Bool) (d : BitVec 3) (a : BitVec 3) (b : BitVec 3) (x : BitVec 5) (y : BitVec 4) (s : State) : Result State :=
  rowWord (.vminX w d a b x y) (fun k => { kind := .arith 3, ty := y, d := d, a := a, b := b, row := k.rowX x }) s

/-- vmax, T form (R290). -/
def execVmax (w : Bool) (d : BitVec 3) (a : BitVec 3) (b : BitVec 3) (r : BitVec 5) (y : BitVec 4) (s : State) : Result State :=
  rowWord (.vmax w d a b r y) (fun _ => { kind := .arith 4, ty := y, d := d, a := a, b := b, row := rowT r }) s

/-- vmax, X form (R290). -/
def execVmaxX (w : Bool) (d : BitVec 3) (a : BitVec 3) (b : BitVec 3) (x : BitVec 5) (y : BitVec 4) (s : State) : Result State :=
  rowWord (.vmaxX w d a b x y) (fun k => { kind := .arith 4, ty := y, d := d, a := a, b := b, row := k.rowX x }) s

/-- vabs, T form (R290). -/
def execVabs (w : Bool) (d : BitVec 3) (a : BitVec 3) (r : BitVec 5) (y : BitVec 4) (s : State) : Result State :=
  rowWord (.vabs w d a r y) (fun _ => { kind := .arith 5, ty := y, d := d, a := a, row := rowT r }) s

/-- vabs, X form (R290). -/
def execVabsX (w : Bool) (d : BitVec 3) (a : BitVec 3) (x : BitVec 5) (y : BitVec 4) (s : State) : Result State :=
  rowWord (.vabsX w d a x y) (fun k => { kind := .arith 5, ty := y, d := d, a := a, row := k.rowX x }) s

/-- vneg, T form (R290). -/
def execVneg (w : Bool) (d : BitVec 3) (a : BitVec 3) (r : BitVec 5) (y : BitVec 4) (s : State) : Result State :=
  rowWord (.vneg w d a r y) (fun _ => { kind := .arith 6, ty := y, d := d, a := a, row := rowT r }) s

/-- vneg, X form (R290). -/
def execVnegX (w : Bool) (d : BitVec 3) (a : BitVec 3) (x : BitVec 5) (y : BitVec 4) (s : State) : Result State :=
  rowWord (.vnegX w d a x y) (fun k => { kind := .arith 6, ty := y, d := d, a := a, row := k.rowX x }) s

/-- vand, T form (R290). -/
def execVand (w : Bool) (d : BitVec 3) (a : BitVec 3) (b : BitVec 3) (r : BitVec 5) (y : BitVec 4) (s : State) : Result State :=
  rowWord (.vand w d a b r y) (fun _ => { kind := .arith 7, ty := y, d := d, a := a, b := b, row := rowT r }) s

/-- vand, X form (R290). -/
def execVandX (w : Bool) (d : BitVec 3) (a : BitVec 3) (b : BitVec 3) (x : BitVec 5) (y : BitVec 4) (s : State) : Result State :=
  rowWord (.vandX w d a b x y) (fun k => { kind := .arith 7, ty := y, d := d, a := a, b := b, row := k.rowX x }) s

/-- vor, T form (R290). -/
def execVor (w : Bool) (d : BitVec 3) (a : BitVec 3) (b : BitVec 3) (r : BitVec 5) (y : BitVec 4) (s : State) : Result State :=
  rowWord (.vor w d a b r y) (fun _ => { kind := .arith 8, ty := y, d := d, a := a, b := b, row := rowT r }) s

/-- vor, X form (R290). -/
def execVorX (w : Bool) (d : BitVec 3) (a : BitVec 3) (b : BitVec 3) (x : BitVec 5) (y : BitVec 4) (s : State) : Result State :=
  rowWord (.vorX w d a b x y) (fun k => { kind := .arith 8, ty := y, d := d, a := a, b := b, row := k.rowX x }) s

/-- vxor, T form (R290). -/
def execVxor (w : Bool) (d : BitVec 3) (a : BitVec 3) (b : BitVec 3) (r : BitVec 5) (y : BitVec 4) (s : State) : Result State :=
  rowWord (.vxor w d a b r y) (fun _ => { kind := .arith 9, ty := y, d := d, a := a, b := b, row := rowT r }) s

/-- vxor, X form (R290). -/
def execVxorX (w : Bool) (d : BitVec 3) (a : BitVec 3) (b : BitVec 3) (x : BitVec 5) (y : BitVec 4) (s : State) : Result State :=
  rowWord (.vxorX w d a b x y) (fun k => { kind := .arith 9, ty := y, d := d, a := a, b := b, row := k.rowX x }) s

/-- vshl, T form (R290). -/
def execVshl (w : Bool) (d : BitVec 3) (a : BitVec 3) (b : BitVec 3) (r : BitVec 5) (y : BitVec 4) (s : State) : Result State :=
  rowWord (.vshl w d a b r y) (fun _ => { kind := .arith 10, ty := y, d := d, a := a, b := b, row := rowT r }) s

/-- vshl, X form (R290). -/
def execVshlX (w : Bool) (d : BitVec 3) (a : BitVec 3) (b : BitVec 3) (x : BitVec 5) (y : BitVec 4) (s : State) : Result State :=
  rowWord (.vshlX w d a b x y) (fun k => { kind := .arith 10, ty := y, d := d, a := a, b := b, row := k.rowX x }) s

/-- vshr, T form (R290). -/
def execVshr (w : Bool) (d : BitVec 3) (a : BitVec 3) (b : BitVec 3) (r : BitVec 5) (y : BitVec 4) (s : State) : Result State :=
  rowWord (.vshr w d a b r y) (fun _ => { kind := .arith 11, ty := y, d := d, a := a, b := b, row := rowT r }) s

/-- vshr, X form (R290). -/
def execVshrX (w : Bool) (d : BitVec 3) (a : BitVec 3) (b : BitVec 3) (x : BitVec 5) (y : BitVec 4) (s : State) : Result State :=
  rowWord (.vshrX w d a b x y) (fun k => { kind := .arith 11, ty := y, d := d, a := a, b := b, row := k.rowX x }) s

/-- vsra, T form (R290). -/
def execVsra (w : Bool) (d : BitVec 3) (a : BitVec 3) (b : BitVec 3) (r : BitVec 5) (y : BitVec 4) (s : State) : Result State :=
  rowWord (.vsra w d a b r y) (fun _ => { kind := .arith 12, ty := y, d := d, a := a, b := b, row := rowT r }) s

/-- vsra, X form (R290). -/
def execVsraX (w : Bool) (d : BitVec 3) (a : BitVec 3) (b : BitVec 3) (x : BitVec 5) (y : BitVec 4) (s : State) : Result State :=
  rowWord (.vsraX w d a b x y) (fun k => { kind := .arith 12, ty := y, d := d, a := a, b := b, row := k.rowX x }) s

/-- vcmp.lt, T form (R290). -/
def execVcmpLt (w : Bool) (d : BitVec 3) (a : BitVec 3) (b : BitVec 3) (r : BitVec 5) (y : BitVec 4) (s : State) : Result State :=
  rowWord (.vcmpLt w d a b r y) (fun _ => { kind := .arith 13, ty := y, d := d, a := a, b := b, row := rowT r }) s

/-- vcmp.lt, X form (R290). -/
def execVcmpLtX (w : Bool) (d : BitVec 3) (a : BitVec 3) (b : BitVec 3) (x : BitVec 5) (y : BitVec 4) (s : State) : Result State :=
  rowWord (.vcmpLtX w d a b x y) (fun k => { kind := .arith 13, ty := y, d := d, a := a, b := b, row := k.rowX x }) s

/-- vcmp.le, T form (R290). -/
def execVcmpLe (w : Bool) (d : BitVec 3) (a : BitVec 3) (b : BitVec 3) (r : BitVec 5) (y : BitVec 4) (s : State) : Result State :=
  rowWord (.vcmpLe w d a b r y) (fun _ => { kind := .arith 14, ty := y, d := d, a := a, b := b, row := rowT r }) s

/-- vcmp.le, X form (R290). -/
def execVcmpLeX (w : Bool) (d : BitVec 3) (a : BitVec 3) (b : BitVec 3) (x : BitVec 5) (y : BitVec 4) (s : State) : Result State :=
  rowWord (.vcmpLeX w d a b x y) (fun k => { kind := .arith 14, ty := y, d := d, a := a, b := b, row := k.rowX x }) s

/-- vcmp.eq, T form (R290). -/
def execVcmpEq (w : Bool) (d : BitVec 3) (a : BitVec 3) (b : BitVec 3) (r : BitVec 5) (y : BitVec 4) (s : State) : Result State :=
  rowWord (.vcmpEq w d a b r y) (fun _ => { kind := .arith 15, ty := y, d := d, a := a, b := b, row := rowT r }) s

/-- vcmp.eq, X form (R290). -/
def execVcmpEqX (w : Bool) (d : BitVec 3) (a : BitVec 3) (b : BitVec 3) (x : BitVec 5) (y : BitVec 4) (s : State) : Result State :=
  rowWord (.vcmpEqX w d a b x y) (fun k => { kind := .arith 15, ty := y, d := d, a := a, b := b, row := k.rowX x }) s

/-- vsel, T form (R290). -/
def execVsel (w : Bool) (d : BitVec 3) (a : BitVec 3) (b : BitVec 3) (r : BitVec 5) (y : BitVec 4) (s : State) : Result State :=
  rowWord (.vsel w d a b r y) (fun _ => { kind := .arith 16, ty := y, d := d, a := a, b := b, row := rowT r }) s

/-- vsel, X form (R290). -/
def execVselX (w : Bool) (d : BitVec 3) (a : BitVec 3) (b : BitVec 3) (x : BitVec 5) (y : BitVec 4) (s : State) : Result State :=
  rowWord (.vselX w d a b x y) (fun k => { kind := .arith 16, ty := y, d := d, a := a, b := b, row := k.rowX x }) s

/-- vmov, T form (R290). -/
def execVmov (w : Bool) (d : BitVec 3) (a : BitVec 3) (r : BitVec 5) (y : BitVec 4) (s : State) : Result State :=
  rowWord (.vmov w d a r y) (fun _ => { kind := .arith 17, ty := y, d := d, a := a, row := rowT r }) s

/-- vmov, X form (R290). -/
def execVmovX (w : Bool) (d : BitVec 3) (a : BitVec 3) (x : BitVec 5) (y : BitVec 4) (s : State) : Result State :=
  rowWord (.vmovX w d a x y) (fun k => { kind := .arith 17, ty := y, d := d, a := a, row := k.rowX x }) s

/-- vfma, T form (R292). -/
def execVfma (w : Bool) (d : BitVec 3) (a : BitVec 3) (b : BitVec 3) (r : BitVec 5) (y : BitVec 4) (s : State) : Result State :=
  rowWord (.vfma w d a b r y) (fun _ => { kind := .fma, ty := y, d := d, a := a, b := b, row := rowT r }) s

/-- vfma, X form (R292). -/
def execVfmaX (w : Bool) (d : BitVec 3) (a : BitVec 3) (b : BitVec 3) (x : BitVec 5) (y : BitVec 4) (s : State) : Result State :=
  rowWord (.vfmaX w d a b x y) (fun k => { kind := .fma, ty := y, d := d, a := a, b := b, row := k.rowX x }) s

/-- vrcp, T form (R296). -/
def execVrcp (w : Bool) (d : BitVec 3) (a : BitVec 3) (r : BitVec 5) (y : BitVec 4) (s : State) : Result State :=
  rowWord (.vrcp w d a r y) (fun _ => { kind := .special 0, ty := y, d := d, a := a, row := rowT r }) s

/-- vrcp, X form (R296). -/
def execVrcpX (w : Bool) (d : BitVec 3) (a : BitVec 3) (x : BitVec 5) (y : BitVec 4) (s : State) : Result State :=
  rowWord (.vrcpX w d a x y) (fun k => { kind := .special 0, ty := y, d := d, a := a, row := k.rowX x }) s

/-- vrsq, T form (R296). -/
def execVrsq (w : Bool) (d : BitVec 3) (a : BitVec 3) (r : BitVec 5) (y : BitVec 4) (s : State) : Result State :=
  rowWord (.vrsq w d a r y) (fun _ => { kind := .special 1, ty := y, d := d, a := a, row := rowT r }) s

/-- vrsq, X form (R296). -/
def execVrsqX (w : Bool) (d : BitVec 3) (a : BitVec 3) (x : BitVec 5) (y : BitVec 4) (s : State) : Result State :=
  rowWord (.vrsqX w d a x y) (fun k => { kind := .special 1, ty := y, d := d, a := a, row := k.rowX x }) s

/-- vrfn, T form (R297). -/
def execVrfn (w : Bool) (d : BitVec 3) (a : BitVec 3) (b : BitVec 3) (r : BitVec 5) (y : BitVec 4) (s : State) : Result State :=
  rowWord (.vrfn w d a b r y) (fun _ => { kind := .refine false, ty := y, d := d, a := a, b := b, row := rowT r }) s

/-- vrfn, X form (R297). -/
def execVrfnX (w : Bool) (d : BitVec 3) (a : BitVec 3) (b : BitVec 3) (x : BitVec 5) (y : BitVec 4) (s : State) : Result State :=
  rowWord (.vrfnX w d a b x y) (fun k => { kind := .refine false, ty := y, d := d, a := a, b := b, row := k.rowX x }) s

/-- vrfs, T form (R297). -/
def execVrfs (w : Bool) (d : BitVec 3) (a : BitVec 3) (b : BitVec 3) (r : BitVec 5) (y : BitVec 4) (s : State) : Result State :=
  rowWord (.vrfs w d a b r y) (fun _ => { kind := .refine true, ty := y, d := d, a := a, b := b, row := rowT r }) s

/-- vrfs, X form (R297). -/
def execVrfsX (w : Bool) (d : BitVec 3) (a : BitVec 3) (b : BitVec 3) (x : BitVec 5) (y : BitVec 4) (s : State) : Result State :=
  rowWord (.vrfsX w d a b x y) (fun k => { kind := .refine true, ty := y, d := d, a := a, b := b, row := k.rowX x }) s

/-- vexp2, T form (R296). -/
def execVexp2 (w : Bool) (d : BitVec 3) (a : BitVec 3) (r : BitVec 5) (y : BitVec 4) (s : State) : Result State :=
  rowWord (.vexp2 w d a r y) (fun _ => { kind := .special 4, ty := y, d := d, a := a, row := rowT r }) s

/-- vexp2, X form (R296). -/
def execVexp2X (w : Bool) (d : BitVec 3) (a : BitVec 3) (x : BitVec 5) (y : BitVec 4) (s : State) : Result State :=
  rowWord (.vexp2X w d a x y) (fun k => { kind := .special 4, ty := y, d := d, a := a, row := k.rowX x }) s

/-- vlog2, T form (R296). -/
def execVlog2 (w : Bool) (d : BitVec 3) (a : BitVec 3) (r : BitVec 5) (y : BitVec 4) (s : State) : Result State :=
  rowWord (.vlog2 w d a r y) (fun _ => { kind := .special 5, ty := y, d := d, a := a, row := rowT r }) s

/-- vlog2, X form (R296). -/
def execVlog2X (w : Bool) (d : BitVec 3) (a : BitVec 3) (x : BitVec 5) (y : BitVec 4) (s : State) : Result State :=
  rowWord (.vlog2X w d a x y) (fun k => { kind := .special 5, ty := y, d := d, a := a, row := k.rowX x }) s

/-- vcvt, T form (R293). -/
def execVcvt (w : Bool) (d : BitVec 3) (a : BitVec 3) (p : BitVec 3) (r : BitVec 5) (y : BitVec 4) (c : BitVec 4) (s : State) : Result State :=
  rowWord (.vcvt w d a p r y c) (fun _ => { kind := .cvt c p.toNat, ty := y, d := d, a := a, row := rowT r }) s

/-- vcvt, X form (R293). -/
def execVcvtX (w : Bool) (d : BitVec 3) (a : BitVec 3) (p : BitVec 3) (x : BitVec 5) (y : BitVec 4) (c : BitVec 4) (s : State) : Result State :=
  rowWord (.vcvtX w d a p x y c) (fun k => { kind := .cvt c p.toNat, ty := y, d := d, a := a, row := k.rowX x }) s

/-- vqnt, T form (R294). -/
def execVqnt (w : Bool) (d : BitVec 3) (a : BitVec 3) (p : BitVec 3) (r : BitVec 5) (y : BitVec 4) (s : State) : Result State :=
  rowWord (.vqnt w d a p r y) (fun _ => { kind := .qnt p.toNat, ty := y, d := d, a := a, row := rowT r }) s

/-- vqnt, X form (R294). -/
def execVqntX (w : Bool) (d : BitVec 3) (a : BitVec 3) (p : BitVec 3) (x : BitVec 5) (y : BitVec 4) (s : State) : Result State :=
  rowWord (.vqntX w d a p x y) (fun k => { kind := .qnt p.toNat, ty := y, d := d, a := a, row := k.rowX x }) s

/-- vdq, T form (R295). -/
def execVdq (w : Bool) (d : BitVec 3) (a : BitVec 3) (p : BitVec 3) (r : BitVec 5) (y : BitVec 4) (s : State) : Result State :=
  rowWord (.vdq w d a p r y) (fun _ => { kind := .dq p.toNat, ty := y, d := d, a := a, row := rowT r }) s

/-- vdq, X form (R295). -/
def execVdqX (w : Bool) (d : BitVec 3) (a : BitVec 3) (p : BitVec 3) (x : BitVec 5) (y : BitVec 4) (s : State) : Result State :=
  rowWord (.vdqX w d a p x y) (fun k => { kind := .dq p.toNat, ty := y, d := d, a := a, row := k.rowX x }) s

/-- vred.sum, T form (R298). -/
def execVredSum (w : Bool) (d : BitVec 3) (a : BitVec 3) (r : BitVec 5) (y : BitVec 4) (s : State) : Result State :=
  rowWord (.vredSum w d a r y) (fun _ => { kind := .red 0, ty := y, d := d, a := a, row := rowT r }) s

/-- vred.sum, X form (R298). -/
def execVredSumX (w : Bool) (d : BitVec 3) (a : BitVec 3) (x : BitVec 5) (y : BitVec 4) (s : State) : Result State :=
  rowWord (.vredSumX w d a x y) (fun k => { kind := .red 0, ty := y, d := d, a := a, row := k.rowX x }) s

/-- vred.min, T form (R298). -/
def execVredMin (w : Bool) (d : BitVec 3) (a : BitVec 3) (r : BitVec 5) (y : BitVec 4) (s : State) : Result State :=
  rowWord (.vredMin w d a r y) (fun _ => { kind := .red 1, ty := y, d := d, a := a, row := rowT r }) s

/-- vred.min, X form (R298). -/
def execVredMinX (w : Bool) (d : BitVec 3) (a : BitVec 3) (x : BitVec 5) (y : BitVec 4) (s : State) : Result State :=
  rowWord (.vredMinX w d a x y) (fun k => { kind := .red 1, ty := y, d := d, a := a, row := k.rowX x }) s

/-- vred.max, T form (R298). -/
def execVredMax (w : Bool) (d : BitVec 3) (a : BitVec 3) (r : BitVec 5) (y : BitVec 4) (s : State) : Result State :=
  rowWord (.vredMax w d a r y) (fun _ => { kind := .red 2, ty := y, d := d, a := a, row := rowT r }) s

/-- vred.max, X form (R298). -/
def execVredMaxX (w : Bool) (d : BitVec 3) (a : BitVec 3) (x : BitVec 5) (y : BitVec 4) (s : State) : Result State :=
  rowWord (.vredMaxX w d a x y) (fun k => { kind := .red 2, ty := y, d := d, a := a, row := k.rowX x }) s

/-- vred.amax, T form (R298). -/
def execVredAmax (w : Bool) (d : BitVec 3) (a : BitVec 3) (r : BitVec 5) (y : BitVec 4) (s : State) : Result State :=
  rowWord (.vredAmax w d a r y) (fun _ => { kind := .red 3, ty := y, d := d, a := a, row := rowT r }) s

/-- vred.amax, X form (R298). -/
def execVredAmaxX (w : Bool) (d : BitVec 3) (a : BitVec 3) (x : BitVec 5) (y : BitVec 4) (s : State) : Result State :=
  rowWord (.vredAmaxX w d a x y) (fun k => { kind := .red 3, ty := y, d := d, a := a, row := k.rowX x }) s

/-- vscan, T form (R298). -/
def execVscan (w : Bool) (d : BitVec 3) (a : BitVec 3) (r : BitVec 5) (y : BitVec 4) (s : State) : Result State :=
  rowWord (.vscan w d a r y) (fun _ => { kind := .scan, ty := y, d := d, a := a, row := rowT r }) s

/-- vscan, X form (R298). -/
def execVscanX (w : Bool) (d : BitVec 3) (a : BitVec 3) (x : BitVec 5) (y : BitVec 4) (s : State) : Result State :=
  rowWord (.vscanX w d a x y) (fun k => { kind := .scan, ty := y, d := d, a := a, row := k.rowX x }) s

/-- vperm, T form (R299). -/
def execVperm (w : Bool) (d : BitVec 3) (a : BitVec 3) (b : BitVec 3) (r : BitVec 5) (y : BitVec 4) (s : State) : Result State :=
  rowWord (.vperm w d a b r y) (fun _ => { kind := .perm, ty := y, d := d, a := a, b := b, row := rowT r }) s

/-- vins, T form (R299). -/
def execVins (w : Bool) (d : BitVec 3) (a : BitVec 3) (b : BitVec 3) (r : BitVec 5) (y : BitVec 4) (s : State) : Result State :=
  rowWord (.vins w d a b r y) (fun _ => { kind := .ins, ty := y, d := d, a := a, b := b, row := rowT r }) s

/-- vext, T form (R299). -/
def execVext (w : Bool) (d : BitVec 3) (a : BitVec 3) (b : BitVec 3) (r : BitVec 5) (y : BitVec 4) (s : State) : Result State :=
  rowWord (.vext w d a b r y) (fun _ => { kind := .ext, ty := y, d := d, a := a, b := b, row := rowT r }) s

/-- vbcast, T form (R299). -/
def execVbcast (w : Bool) (d : BitVec 3) (a : BitVec 3) (j : BitVec 3) (r : BitVec 5) (y : BitVec 4) (s : State) : Result State :=
  rowWord (.vbcast w d a j r y) (fun _ => { kind := .bcast j.toNat, ty := y, d := d, a := a, row := rowT r }) s

/-- vneur, T form (R301). -/
def execVneur (w : Bool) (d : BitVec 3) (a : BitVec 3) (b : BitVec 3) (r : BitVec 5) (y : BitVec 4) (s : State) : Result State :=
  rowWord (.vneur w d a b r y) (fun _ => { kind := .neur, ty := y, d := d, a := a, b := b, row := rowT r }) s

end Sys2Proof.Machine
end

