-- ==== Sys2Proof/Machine/Bulk.lean ====
section
/-! DEFINITION. The bank bulk commands (R274 to R277). A command takes its elements from memory in one step when it starts; its writes
leave when its time is over. -/

namespace Sys2Proof.Machine

open Sys2Proof

/-- COUNT. -/
def cwCount (cw : BitVec 256) : Nat := cwFld cw 0 44 20
/-- TY. -/
def cwTy (cw : BitVec 256) : Nat := cwFld cw 0 19 16
/-- DST or SRC. -/
def cwVa (cw : BitVec 256) (i : Nat) : Nat := cwFld cw i 47 0

/-- The fields that every bulk command has reserved (R274). -/
def legalBulk (cw : BitVec 256) : Bool := cwFld cw 0 63 51 = 0 && cwFld cw 0 46 45 = 0 && !cwChk cw && !cwMask cw

/-- TY of `badd` and `bred` (R275). -/
def bulkAddTy (t : Nat) : Bool := t = 0 || t = 1 || t = 3 || t = 4 || t = 15 || (7 ≤ t && t ≤ 10)

/-- TY of `bfill` (R275). -/
def bulkFillTy (t : Nat) : Bool := t ≤ 10 || t = 15
/-- TY of `baxpy` (R275). -/
def bulkAxpyTy (t : Nat) : Bool := t = 0 || t = 1 || t = 3 || t = 4

/-- Reserved fields of `bfill` (R43, R274). -/
def legalBfill (cw : BitVec 256) : Bool := legalBulk cw && cwFld cw 1 63 48 = 0
/-- Reserved fields of `badd` and `bred`. -/
def legalBadd (cw : BitVec 256) : Bool := legalBulk cw && cwFld cw 1 63 48 = 0 && cwFld cw 2 63 48 = 0
/-- Reserved fields of `baxpy`. -/
def legalBaxpy (cw : BitVec 256) : Bool := legalBulk cw

/-- The lines of `n` elements of `w` bytes from `va`: first element, virtual address, bytes. `k` bounds their number. -/
def bulkLines (w va : Nat) : Nat → Nat → Nat → List (Nat × Nat × Nat)
  | 0, _, _ => []
  | k + 1, i, n =>
    if n = 0 then []
    else
      let take := min n ((64 - (va + w * i) % 64) / w)
      (i, va + w * i, take * w) :: bulkLines w va k (i + take) (n - take)

/-- The lines of a range of `n` elements. -/
def linesFrom (w va n : Nat) : List (Nat × Nat × Nat) := bulkLines w va n 0 n

/-- A line translated: first element, physical address, bytes. -/
abbrev BulkLine := Nat × Nat × Nat

/-- Whether a physical address lies in a bank window or HBM of the machine (R258). -/
def State.inBanks (s : State) (pa : Nat) : Bool := bankRegion pa false && s.physOk pa

/-- Whether one of some lines lies outside the bank windows and HBM (R275); a line that does not translate does not
say. -/
def State.bulkOutside (s : State) (e : QEntry) (cl : Nat) (ls : List (Nat × Nat × Nat)) : Bool :=
  ls.any fun l => match (s.mapVa e.ctx cl (Word.of l.2.1) .both).getD (s.walkVa e.ctx l.2.1 .both e.mode).1 with
    | .ok pa _ _ _ => !s.inBanks pa
    | .bad _ _ _ => false

/-- The lines of a range translated in order (R258, R275): those before the first fault, that fault's element and CODE if
any, and whether a byte of any line lies outside the bank windows and HBM; `writes` whether the range is written. -/
def State.bulkXlate (s : State) (e : QEntry) (cl : Nat) (writes : Bool) :
    List (Nat × Nat × Nat) → (List BulkLine × Option (Nat × Nat) × Bool) × State
  | [] => (([], none, false), s)
  | (i, va, n) :: t =>
    let r := match s.mapVa e.ctx cl (Word.of va) .both with
      | some x => (x, s)
      | none => ((s.walkVa e.ctx va .both e.mode).1, (s.walkVa e.ctx va .both e.mode).2.2)
    match r.1 with
    | .bad code _ _ => (([], some (i, if code = 4 then 2 else 3), r.2.bulkOutside e cl t), r.2)
    | .ok pa _ _ _ =>
      if r.2.inBanks pa then
        match (if writes then r.2.preserveFor e.ctx e.tick pa va e.mode else r.2).bulkXlate e cl writes t with
        | ((l, f, o), s) => (((i, pa, n) :: l, f, o), s)
      else (([], none, true), r.2)

/-- Single-bit errors in lines that are read are corrected (R260). -/
def State.bulkCorrect (s : State) (ls : List BulkLine) : State := ls.foldl (fun s l => s.correct l.2.1 l.2.2 false) s

/-- The bytes of a range by element, from its translated lines. -/
def State.bulkRead (s : State) (w : Nat) (ls : List BulkLine) : List Nat :=
  ls.flatMap fun l => elems (s.readMem l.2.1 l.2.2) w (l.2.2 / w)

/-- The first element of the first line that is in error. -/
def State.bulkPoison (s : State) (ls : List BulkLine) : Option Nat :=
  (ls.find? fun l => s.poisoned l.2.1 l.2.2).map Prod.fst

/-- The lower of two stops: the element at which a command ends and its CODE. -/
def firstStop (a b : Option (Nat × Nat)) : Option (Nat × Nat) :=
  match a, b with
  | none, _ => b
  | _, none => a
  | some x, some y => if y.1 < x.1 then some y else some x

/-- The writes of the elements below `done`, line by line. -/
def bulkWrites (w : Nat) (ls : List BulkLine) (vs : List Nat) (done : Nat) : List (Nat × Nat × Nat) :=
  (ls.filter fun l => l.1 < done).map fun l =>
    let n := min (l.2.2 / w) (done - l.1)
    (l.2.1, n * w, packElems w ((vs.drop l.1).take n))

/-- What a bulk command reads: its lines. -/
def bulkReads (ls : List BulkLine) : List (Nat × Nat) := ls.map fun l => (l.2.1, l.2.2)

/-- A bulk command ended in error by its checks, before it reads anything: CODE and no element done. -/
def State.bulkError (s : State) (c code : Nat) : State :=
  s.startEntry c 2 2 fun e => { e with elem := elemOf 2 e.ser code 0, sigPa := none }

/-- A bulk command that has read its lines, with what it writes: its element names the elements done and the flags raised; one that stops
at an element ends in error there, its writes standing (R275, R276). -/
def State.bulkRun (s : State) (c n lines : Nat) (stop : Option (Nat × Nat)) (fl : Flags) (rd : List (Nat × Nat))
    (ws : List (Nat × Nat × Nat)) : State :=
  match stop with
  | some p => s.startEntry c 2 2 fun e => { e with
      reads := rd, writes := ws, elem := elemOf 2 e.ser p.2 (p.1 + fl.toNat * 2 ^ 32), sigPa := none }
  | none => s.startEntry c 2 (40 + lines) fun e => { e with
      reads := rd, writes := ws, elem := elemOf 2 e.ser 0 (n + fl.toNat * 2 ^ 32) }

/-- A queue runs one bulk command at a time (R274). -/
def State.bulkFree (s : State) (c : Nat) : Bool := (s.core c).qb.entries.all fun e => e.stage != .running

/-- The element operations of a type: integers wrap, the others round RNE (R275). -/
def bulkAdd (ty a b : Nat) : Nat × Flags :=
  if 7 ≤ ty then ((a + b) % 256 ^ tyBytes ty, 0) else (fmtD ty).add 0 a b

/-- round(a x + y) of `baxpy`, `a` read as f32 (R275). -/
def bulkAxpy (ty a x y : Nat) : Nat × Flags :=
  let r := fFmaV 0 ((fmtD 0).val a) ((fmtD ty).val x) ((fmtD ty).val y)
  (fmtD ty).result 0 r.1 r.2

/-- An element-wise bulk command: `src` whether it reads SRC, `dst` whether it reads DST; `op` makes an element from
SRC[i] and DST[i] (R275, R276). It waits while a slice of its range changes its window (R254). -/
def State.bulkMap (s : State) (c : Nat) (cw : BitVec 256) (e : QEntry) (reads : Bool) (op : Nat → Nat → Nat × Flags) : State :=
  let w := tyBytes (cwTy cw)
  let n := cwCount cw
  let dst := cwVa cw 1
  let src := cwVa cw 2
  if dst % w != 0 || (reads && src % w != 0) then s.bulkError c 4
  else if reads && src != dst && src < dst + n * w && dst < src + n * w then s.bulkError c 5
  else
    let (x, s) := if reads then s.bulkXlate e (c / 4) false (linesFrom w src n) else (([], none, false), s)
    let (y, s) := s.bulkXlate e (c / 4) true (linesFrom w dst n)
    if x.2.2 || y.2.2 then s.bulkError c 3
    else if (x.1 ++ y.1).any fun l => s.switching l.2.1 then s.postIn 64 (.command c cw)
    else
      let s := if reads then s.bulkCorrect (x.1 ++ y.1) else s
      let bad := fun (l : List BulkLine) => (s.bulkPoison l).map fun i => (i, 6)
      let stop := firstStop (firstStop x.2.1 y.2.1) (if reads then firstStop (bad x.1) (bad y.1) else none)
      let done := match stop with
        | some p => p.1
        | none => n
      let a := if reads then s.bulkRead w x.1 else List.replicate done 0
      let b := if reads then s.bulkRead w y.1 else List.replicate done 0
      let out := gather (((a.take done).zip (b.take done)).map fun p => op p.1 p.2)
      s.bulkRun c n y.1.length stop out.2 (if reads then bulkReads (x.1 ++ y.1) else []) (bulkWrites w y.1 out.1 done)

/-- bfill: DST[i] := VALUE (R275). -/
def execBfill (core : Nat) (cw : BitVec 256) (s : State) : Result State :=
  .next (s.runHead core 2 cw legalBfill fun e s =>
    if !s.bulkFree core then s
    else if !bulkFillTy (cwTy cw) then s.bulkError core 1
    else s.bulkMap core cw e false fun _ _ => ((cwWord cw 2).toNat % 256 ^ tyBytes (cwTy cw), 0))

/-- badd: DST[i] := DST[i] + SRC[i] (R275). -/
def execBadd (core : Nat) (cw : BitVec 256) (s : State) : Result State :=
  .next (s.runHead core 2 cw legalBadd fun e s =>
    if !s.bulkFree core then s
    else if !bulkAddTy (cwTy cw) then s.bulkError core 1
    else s.bulkMap core cw e true fun a b => bulkAdd (cwTy cw) b a)

/-- baxpy: DST[i] := round(a SRC[i] + DST[i]) (R275). -/
def execBaxpy (core : Nat) (cw : BitVec 256) (s : State) : Result State :=
  .next (s.runHead core 2 cw legalBaxpy fun e s =>
    if !s.bulkFree core then s
    else if !bulkAxpyTy (cwTy cw) then s.bulkError core 1
    else s.bulkMap core cw e true fun a b => bulkAxpy (cwTy cw) (cwFld cw 1 63 48 * 65536 + cwFld cw 2 63 48) a b)

/-- A list summed from the left; a single floating-point element is a result of its own (R61, R275). -/
def sumLeft (ty : Nat) : List Nat → Nat × Flags
  | [] => (0, 0)
  | [v] => (tyPassed ty v, 0)
  | v :: t => t.foldl (fun a x =>
      let r := bulkAdd ty a.1 x
      (r.1, a.2 ||| r.2)) (v, 0)

/-- bred: DST[0] := the sum of SRC, each 64-byte piece from the left, then the pieces in ascending order (R275). -/
def execBred (core : Nat) (cw : BitVec 256) (s : State) : Result State :=
  .next (s.runHead core 2 cw legalBadd fun e s =>
    if !s.bulkFree core then s
    else if !bulkAddTy (cwTy cw) then s.bulkError core 1
    else
      let ty := cwTy cw
      let w := tyBytes ty
      let n := cwCount cw
      let dst := cwVa cw 1
      let src := cwVa cw 2
      if dst % w != 0 || src % w != 0 then s.bulkError core 4
      else
        let (x, s) := s.bulkXlate e (core / 4) false (linesFrom w src n)
        let (y, s) := s.bulkXlate e (core / 4) true (linesFrom w dst 1)
        if x.2.2 || y.2.2 then s.bulkError core 3
        else if (x.1 ++ y.1).any fun l => s.switching l.2.1 then s.postIn 64 (.command core cw)
        else
          let s := s.bulkCorrect x.1
          let bad := (s.bulkPoison x.1).map fun i => (i, 6)
          match firstStop (firstStop x.2.1 y.2.1) bad with
          | some p => s.bulkRun core 0 0 (some (0, p.2)) 0 (bulkReads x.1) []
          | none =>
            let parts := x.1.map fun l => sumLeft ty (elems (s.readMem l.2.1 l.2.2) w (l.2.2 / w))
            let tot := sumLeft ty (parts.map Prod.fst)
            let fl := parts.foldl (fun f p => f ||| p.2) tot.2
            s.bulkRun core n x.1.length none fl (bulkReads x.1) (bulkWrites w y.1 [tot.1] 1))

end Sys2Proof.Machine
end

