-- ==== Sys2Proof/Machine/System.lean ====
section
/-! DEFINITION. Supervisor and firmware words over translations, night log and context descriptors: `tlbi`, `nlog`, `ctxc`
of fields (R119, R123, R124, R362, R375, R376, R386, R429). -/

namespace Sys2Proof.Machine

open Sys2Proof

/-! ### tlbi (R375) -/

/-- The structures that hold translations of a context: kind and number. Kinds: 0 a core's TLB, 1 a cluster's, 2 a
walker's, 3 a router's translation unit, 4 a cluster's constant cache (R119, R124). -/
def Ctx.units (x : Ctx) : List (Nat × Nat) :=
  let cls := x.clusterList
  let rs := (List.range 144).filter x.hasCompute
  (cls.flatMap fun c => [(0, 4 * c), (0, 4 * c + 1), (0, 4 * c + 2), (0, 4 * c + 3), (1, c), (4, c)]) ++
  rs.flatMap fun r => [(2, r), (3, r)]

/-- A TLB without the entries that an invalidation covers. -/
def tlbDrop (l : List TlbEntry) (x : Nat) (all : Bool) (va : Nat) : List TlbEntry :=
  l.filter fun e => if all then e.ctx != x else !e.covers x va

/-- One structure emptied of what an invalidation covers; the constant cache drops every line of the context, since the
lines are held by physical address. -/
def State.dropUnit (s : State) (x kind i : Nat) (all : Bool) (va : Nat) : State :=
  match kind with
  | 0 => s.modCore i fun k => { k with tlb := tlbDrop k.tlb x all va }
  | 1 => s.modCluster i fun k => { k with tlb := tlbDrop k.tlb x all va }
  | 2 => s.modWalker i fun w => { w with tlb := tlbDrop w.tlb x all va }
  | 4 => s.modCluster i fun k => { k with ccache := k.ccache.filter fun e => e.1 != x }
  | _ => s

/-- Every structure emptied of a context's translations (R123). -/
def State.flushCtx (s : State) (x : Nat) : State :=
  (s.ctx x).units.foldl (fun s u => s.dropUnit x u.1 u.2 true 0) s

/-- The invalidation sent once the core's earlier stores are performed (R375). -/
def State.invalidate (s : State) (all : Bool) (va : Word) : State :=
  let k := s.me
  if !k.stores.isEmpty || !k.lags.isEmpty || !k.held.isEmpty then s.stall
  else
    let us := (s.ctx k.ctx).units
    if us.isEmpty then s.advance
    else
      (us.foldl (fun s u => s.post (.tlbiInvalidate s.cur u.1 u.2 all va)) s).modMe fun q =>
        { q with run := .flushing (q.pc + 4), tlbiLeft := us.length }

/-- tlbi: the translations that cover s[a] (R375). -/
def execTlbi (w : Bool) (a : BitVec 5) (s : State) : Result State :=
  word (.tlbi w a) (fun s =>
    let v := s.me.get a
    if v.fld 63 48 != 0 then s.trapWith { code := 0x04, pc := 0, tval := v, why := 6 } else s.invalidate false v) s

/-- tlbi.all: every translation of the context (R375). -/
def execTlbiAll (w : Bool) (s : State) : Result State := word (.tlbiAll w) (fun s => s.invalidate true 0) s

/-- A structure takes the invalidation and acknowledges; the last acknowledgement lets the core go on (R375). -/
def execTlbiInvalidate (core unit index : Nat) (all : Bool) (va : BitVec 64) (s : State) : Result State :=
  .next (
    let s := s.dropUnit (s.core core).ctx unit index all va.toNat
    s.modCore core fun k => match k.run with
      | .flushing n =>
        if k.tlbiLeft ≤ 1 then { k with tlbiLeft := 0, run := .running, pc := n } else { k with tlbiLeft := k.tlbiLeft - 1 }
      | _ => k)

/-! ### nlog (R376) -/

/-- nlog: a software entry in the router's night log. -/
def execNlog (w : Bool) (a b : BitVec 5) (s : State) : Result State :=
  word (.nlog w a b) (fun s =>
    (s.logAt (routerOfSrc s.cur) 0x80 s.cur (s.me.get a).toNat s.me.ctx (s.me.get b) 0).advance) s

/-! ### Descriptor fields (R362) -/

/-- The number of a context's state (R386). -/
def CtxState.code : CtxState → Nat
  | .empty => 0
  | .running => 1
  | .freezing => 2
  | .frozen => 3
  | .thawing => 4

/-- A field of a context's descriptor; none for an index that names none (R362). -/
def Ctx.field (c : Ctx) (i : Nat) : Option Word :=
  match i with
  | 0 => some c.ptroot
  | 1 => some c.rect
  | 2 => some c.ctrb
  | 3 => some c.catbase
  | 4 => some c.tvec
  | 5 => some c.suph
  | 6 => some c.supcl
  | 7 => some (Word.of c.wdog)
  | 8 => some (c.dfpen.setWidth 64)
  | 9 => some c.lopen
  | 10 => some c.oqbase
  | 11 => some c.oqcap
  | 12 => some (Word.of c.ovf.length)
  | 13 => some c.dlbase
  | 14 => some c.dlcap
  | 15 => some c.dlhead
  | 16 => some c.dltail
  | 17 => some c.dlcnt
  | 18 => some c.dldrop
  | 19 => some c.save
  | 20 => some c.nlost
  | 21 => some c.cknum
  | 22 => some (if c.qreq then 1 else 0)
  | _ => none

/-- Whether a field takes writes in a mode (R362). -/
def fieldWritable (i : Nat) (m : Mode) : Bool :=
  (2 ≤ i && i ≤ 8) || i = 11 || i = 15 || i = 22 ||
  (m = .firmware && (i ≤ 1 || i = 9 || i = 10 || i = 13 || i = 14 || i = 19))

/-- The bits that a field shows as zero: by R362, and for CTRB and TVEC by the registers they are (R89, R364). -/
def fieldZero (i : Nat) : Word :=
  match i with
  | 1 => 0xFFFFFFFFFFFF0000
  | 2 => 7
  | 4 => 0xFFFF000000000003
  | 6 => 0xFFFFFFFFFFFFFC00
  | 7 => 0xFFFFFFFF00000000
  | 8 => 0xFFFFFFFFFFFFFFC0
  | 22 => 0xFFFFFFFFFFFFFFFE
  | _ => 0

/-- Whether R386 or R429 refuses a value of a field. -/
def Ctx.refuses (c : Ctx) (i : Nat) (v : Word) : Bool :=
  v &&& fieldZero i != 0 ||
  (i = 11 && v.toNat < c.oqcap.toNat) ||
  (i = 6 && !c.hasCluster v.toNat) ||
  ((i = 10 || i = 13 || i = 19) && (v.toNat % 64 != 0 || !bankRegion v.toNat false))

/-- The rectangle of a context changed by firmware: clusters that leave it belong to no context, those that enter it do. -/
def State.setRect (s : State) (x : Nat) (v : Word) : State :=
  let old := (s.ctx x).clusterList
  let s := s.modCtx x fun c => { c with row := v.fld 3 0, col := v.fld 7 4, height := v.fld 11 8 + 1, width := v.fld 15 12 + 1 }
  let s := old.foldl (fun s cl => if (s.cluster cl).ctx = some x then s.modCluster cl fun k => { k with ctx := none } else s) s
  (s.ctx x).clusterList.foldl (fun s cl => s.modCluster cl fun k => { k with ctx := some x }) s

/-- QREQ written (R187, R362): set, the survey token has a reason to circulate. -/
def State.setQreq (s : State) (x : Nat) (v : Word) : State :=
  let on := v.fld 0 0 = 1
  let s := s.modCtx x fun c => { c with qreq := on }
  if on then s.post (.tokenStart x) else s

/-- OQCAP raised (R155, R362): the divert entries that wait may be written. -/
def State.setOqcap (s : State) (x : Nat) (v : Word) : State :=
  let s := s.modCtx x fun c => { c with oqcap := v, ovfStanding := c.ovfStanding && v.toNat ≤ c.ovf.length }
  s.posts ((s.ctx x).clusterList.map fun cl => .overflowWrite cl)

/-- A field written. -/
def State.setField (s : State) (x i : Nat) (v : Word) : State :=
  match i with
  | 0 => s.modCtx x fun c => { c with ptroot := v }
  | 1 => s.setRect x v
  | 2 => s.modCtx x fun c => { c with ctrb := v }
  | 3 => s.modCtx x fun c => { c with catbase := v }
  | 4 => s.modCtx x fun c => { c with tvec := v }
  | 5 => s.modCtx x fun c => { c with suph := v }
  | 6 => s.modCtx x fun c => { c with supcl := v }
  | 7 => s.modCtx x fun c => { c with wdog := v.toNat }
  | 8 => s.modCtx x fun c => { c with dfpen := v.setWidth 6 }
  | 9 => s.modCtx x fun c => { c with lopen := v }
  | 10 => s.modCtx x fun c => { c with oqbase := v }
  | 11 => s.setOqcap x v
  | 13 => s.modCtx x fun c => { c with dlbase := v }
  | 14 => s.modCtx x fun c => { c with dlcap := v }
  | 15 => s.modCtx x fun c => { c with dlhead := v }
  | 19 => s.modCtx x fun c => { c with save := v }
  | 22 => s.setQreq x v
  | _ => s

/-! ### ctxc (R377, R386) -/

/-- The trap of an operand of `ctxc` that names nothing (R366, R386). -/
def ctxcTrap (v : Word) : Trap := { code := 0x05, pc := 0, tval := v, why := 9 }

/-- A `ctxc` word: the operand's bits and the context it may name, then its own part with the context id (R386). -/
def ctxcWord (i : Instr) (a : BitVec 5) (zero : Word) (body : Nat → Word → State → State) (s : State) : Result State :=
  word i (fun s =>
    let v := s.me.get a
    if v &&& zero != 0 || (s.me.mode != .firmware && v.fld 15 8 != s.me.ctx) then s.trapWith (ctxcTrap v)
    else body (v.fld 15 8) v s) s

/-- ctxc.query (R386). -/
def execCtxcQuery (w : Bool) (d a : BitVec 5) (s : State) : Result State :=
  ctxcWord (.ctxcQuery w d a) a 0xFFFFFFFFFFFF00FF (fun x _ s =>
    let c := s.ctx x
    s.lateResult d (Word.of (c.st.code + (if c.ckpt.isSome then 8 else 0)))) s

/-- ctxc.rdf (R386). -/
def execCtxcRdf (w : Bool) (d a : BitVec 5) (s : State) : Result State :=
  ctxcWord (.ctxcRdf w d a) a 0xFFFFFFFFFFFF00E0 (fun x v s =>
    let c := s.ctx x
    match c.field (v.fld 4 0) with
    | none => s.trapWith (ctxcTrap v)
    | some f => if c.st = .empty then s.trapWith (ctxcTrap v) else s.lateResult d f) s

/-- ctxc.wrf (R386, R429). -/
def execCtxcWrf (w : Bool) (d a b : BitVec 5) (s : State) : Result State :=
  ctxcWord (.ctxcWrf w d a b) a 0xFFFFFFFFFFFF00E0 (fun x v s =>
    let c := s.ctx x
    let i := v.fld 4 0
    let n := s.me.get b
    match c.field i with
    | none => s.trapWith (ctxcTrap v)
    | some f =>
      if c.st = .empty || !fieldWritable i s.me.mode || c.refuses i n then s.trapWith (ctxcTrap v)
      else (s.setField x i n).lateResult d f) s

/-- QREQ written by the driver or firmware (R362). -/
def execQreqWrite (ctx : Nat) (v : BitVec 64) (s : State) : Result State :=
  .next (if (s.ctx ctx).st = .empty || v &&& fieldZero 22 != 0 then s else s.setQreq ctx v)

/-- OQCAP written by firmware; a write that would lower it changes nothing (R362, R386). -/
def execOqcapWrite (ctx : Nat) (v : BitVec 64) (s : State) : Result State :=
  .next (if (s.ctx ctx).st = .empty || (s.ctx ctx).refuses 11 v then s else s.setOqcap ctx v)

end Sys2Proof.Machine
end

