-- ==== Sys2Proof/Machine/Checkpoint.lean ====
section
/-! DEFINITION. Checkpoints (R388 to R392): `ckpt`, the preservation of pages, the archive engine. -/

namespace Sys2Proof.Machine

open Sys2Proof

/-- The bytes of a descriptor translated line by line, as words; a fault of an address or a poisoned line traps (R388). -/
def State.descWords (s : State) (va : Word) : Nat → Except Trap (List Word) × State
  | 0 => (.ok [], s)
  | n + 1 =>
    match s.translate s.cur va .load with
    | (.bad c w l, s) => (.error (xlateTrap c w l va), s)
    | (.ok pa _ _ _, s) =>
      let s := (s.touch pa).correct pa 64 false
      if !bankRegion pa false then (.error (xlateTrap 5 8 0 va), s)
      else if s.poisoned pa 64 then (.error { code := 0x06, pc := 0, tval := va }, s)
      else
        let ws := (List.range 8).map fun i => Word.of (s.readMem (pa + 8 * i) 8)
        match s.descWords (va + 64) n with
        | (.ok l, s) => (.ok (ws ++ l), s)
        | (.error t, s) => (.error t, s)

/-- A page that may be read and written: its physical address, level and leaf (R389). -/
def State.ckPage (s : State) (x va : Nat) : Option (Nat × Nat × Nat) :=
  match walk s.mem va 4 (s.ctx x).ptroot.toNat 0 with
  | .error _ => none
  | .ok (w0, _, lvl, ea) =>
    let pa := w0.fld 51 16 * 65536 + va % 2 ^ lvlShift lvl
    if w0.fld 2 2 = 1 && w0.fld 3 3 = 1 then some (pa, lvl, ea) else none

/-- All of a list's values, or none if any is none. -/
def allSome {α : Type} : List (Option α) → Option (List α)
  | [] => some []
  | none :: _ => none
  | some a :: t => (allSome t).map (a :: ·)

/-- `n` consecutive pages from an address. -/
def plainAt (base n : Nat) : List Nat := (List.range n).map fun i => base + 65536 * i

/-- The addresses of the pages that a descriptor's regions declare (R389). -/
def declaredPages (nreg : Nat) (ws : List Word) : List Nat :=
  (List.range nreg).flatMap fun r => plainAt ((ws.getD (8 + 2 * r) 0).fld 47 0) ((ws.getD (9 + 2 * r) 0).fld 31 0)

/-- The declared pages of a descriptor's regions: L3 leaves with R and W in a bank window or HBM (R389). -/
def State.declared (s : State) (x nreg : Nat) (ws : List Word) : Option (List CkPage) :=
  allSome ((declaredPages nreg ws).map fun va =>
    match s.ckPage x va with
    | some (pa, 3, ea) => if va % 65536 = 0 && bankRegion pa false then some { va := va, pa := pa, leaf := ea } else none
    | _ => none)

/-- `n` consecutive pages of the archive or the shadow, wherever they lie (R389). -/
def State.plainPages (s : State) (x base n : Nat) : Option (List Nat) :=
  if base % 65536 != 0 && n != 0 then none else allSome ((plainAt base n).map fun va => (s.ckPage x va).map Prod.fst)

/-- A refused `ckpt` (R389). -/
def ckptError (n : Nat) : Word := Word.of (2 ^ 63 + n * 2 ^ 56)

/-- ckpt (R389): the descriptor is read once, its translations are those of the start. -/
def execCkpt (w : Bool) (d a b : BitVec 5) (s : State) : Result State :=
  word (.ckpt w d a b) (fun s =>
    let k := s.me
    let x := k.ctx
    let v := k.get a
    let va := k.get b
    if v.fld 63 48 != 0 then s.trapChan v 1
    else match eaBad va 64 with
      | some t => s.trapWith t
      | none => match s.descWords va 1 with
        | (.error t, s) => s.trapWith t
        | (.ok h, s) =>
          let c := s.ctx x
          let mer := ((s.router (routerOfSrc s.cur)).surv.get x {}).mer
          let n := (h.getD 0 0).fld 15 0
          if c.ckpt.isSome then s.lateResult d (ckptError 1)
          else if v.fld 47 0 ≤ tick mer then s.lateResult d (ckptError 4)
          else if n = 0 || 1024 < n then s.lateResult d (ckptError 5)
          else match s.descWords va (1 + (n + 3) / 4) with
            | (.error t, s) => s.trapWith t
            | (.ok ws, s) =>
              let acap := (ws.getD 2 0).fld 12 0
              let pages := declaredPages n ws ++ plainAt ((ws.getD 1 0).fld 47 0) (acap + 1) ++
                plainAt ((ws.getD 3 0).fld 47 0) ((ws.getD 4 0).fld 31 0)
              let s := pages.foldl (fun s va => s.readWalk x va) s
              match s.declared x n ws, s.plainPages x ((ws.getD 1 0).fld 47 0) (acap + 1),
                  s.plainPages x ((ws.getD 3 0).fld 47 0) ((ws.getD 4 0).fld 31 0) with
              | some ps, some ar, some sh =>
                let s := (ps.foldl (fun s p => s.touch p.leaf) s).modCtx x fun c => { c with
                  ckpt := some { t := v.fld 47 0, number := Word.of (c.cknum + 1).toNat, pages := ps, arch := ar, acap := acap, shadow := sh } }
                (s.post (.tokenStart x)).lateResult d (Word.of ((c.cknum + 1).toNat % 2 ^ 32))
              | _, _, _ => s.lateResult d (ckptError 2)) s

/-- A page preserved for a store that waits (R390). -/
def execPagePreserve (ctx page : Nat) (s : State) : Result State := .next (s.preservePage ctx page)

/-- The archive engine begins once `mer` has reached the checkpoint's tick (R391). -/
def execArchiveStart (ctx : Nat) (s : State) : Result State :=
  .next (
    let c := s.ctx ctx
    match c.ckpt with
    | none => s
    | some k =>
      if k.started || c.st != .running || c.mer.toNat < k.t * 65536 then s
      else (s.modCtx ctx fun c => { c with ckpt := some { k with started := true } }).post (.archivePage ctx 0))

/-- The archive engine goes on to the next page. -/
def State.nextPage (s : State) (x i : Nat) (k : Ckpt) : State :=
  (s.modCtx x fun c => { c with ckpt := some { k with next := i + 1, archived := k.archived ++ [i] } }).post (.archivePage x (i + 1))

/-- A declared page archived if it is dirty or has a preserved copy: its image, its index entry, its shadow page freed; a
full archive fails the checkpoint (R391, R392). -/
def execArchivePage (ctx page : Nat) (s : State) : Result State :=
  .next (
    let c := s.ctx ctx
    match c.ckpt with
    | none => s
    | some k =>
      if !k.started || k.next != page || c.st != .running then s
      else match k.pages[page]? with
        | none => s.post (.checkpointComplete ctx)
        | some p =>
          let copy := (k.preserved.find? fun q => q.1 = page).map Prod.snd
          let s := s.deviceRead p.leaf 8
          let dirty := Word.fld (Word.of (memRead s.mem p.leaf 8)) 8 8 = 1
          if copy.isNone && !dirty then s.nextPage ctx page k
          else if k.acap ≤ k.count then s.ckptFails ctx 2
          else
            let dst := k.arch.getD (k.count + 1) 0
            let index := k.arch.getD 0 0 + 16 * k.count
            let s := match copy with
              | some sh => s.copyPage sh dst
              | none => (s.clearD ctx p).copyPage p.pa dst
            let s := (s.deviceWrite index 8 p.va).deviceWrite (index + 8) 8 (k.number.toNat % 2 ^ 32)
            s.nextPage ctx page { k with
              count := k.count + 1
              shadow := k.shadow ++ copy.toList
              preserved := k.preserved.filter fun q => q.1 != page })

/-- Every page archived: CKNUM is set, and the supervisor is told (R392). -/
def execCheckpointComplete (ctx : Nat) (s : State) : Result State :=
  .next (match (s.ctx ctx).ckpt with
    | none => s
    | some k =>
      if !k.started || k.next < k.pages.length then s
      else (s.modCtx ctx fun c => { c with cknum := k.number, ckpt := none }).note 0 ctx 0x11 k.number (Word.of k.count) (Word.of k.t))

end Sys2Proof.Machine
end

