-- ==== Sys2Proof/Machine/Timelines.lean ====
section
/-! DEFINITION. What the message unit does on its own: promises, asks, transits, events, entry into the dispatcher,
continuations, and the meridian survey (R109, R178 to R194, R206). -/

namespace Sys2Proof.Machine

open Sys2Proof

/-! ### Promises and asks (R179, R184 to R186) -/

/-- A promise with count `p` and value `v` applied at an in-slot, or parked (R179). -/
def InSlot.promised (i : InSlot) (p : Nat) (v : Word) : InSlot :=
  if countedUpTo p i.e then { i with h := stampMax i.h v, ended := i.ended || v = atTick END }
  else if i.pval = allOnes || !countedUpTo p i.pseq then { i with pval := v, pseq := p }
  else i

/-- A promise reaches an in-slot (R179); one that reaches a free in-slot is discarded (R192). -/
def execPromiseArrival (cluster slot : Nat) (cseq : BitVec 8) (v : Word) (s : State) : Result State :=
  .next (match s.backed cluster with
    | some x => s.toBacking x (.flit (.promiseArrival cluster slot cseq v))
    | none =>
      let i := (s.cluster cluster).ins.get slot {}
      if !i.v || 112 ≤ slot then s
      else
        let s := s.modCluster cluster fun k => { k with ins := k.ins.set slot (i.promised (rebuild i.e cseq) v) }
        (s.retest cluster i.tls).closeIn cluster slot)

/-- A promise flit of an out-slot; a newer one replaces one that has not been sent (R185). One that closes the channel names the
out-slot, which is free when the flit is injected (R203). -/
def State.sendPromise (s : State) (cl out : Nat) (o : OutSlot) (a : Word) : State :=
  let f := s.abroadOr cl (128 + out) { flitTo (cl * 4) o.dcl 6 with
    cslot := BitVec.ofNat 7 o.din, cseq := BitVec.ofNat 8 o.nxt, pay := a.setWidth 128, ctx := (s.cluster cl).ctx.getD 0
    req := if o.st = 3 then some out else none }
  (s.modCluster cl fun k => { k with
    inject := k.inject.filter fun g =>
      !(g.fk = 6 && g.dr = f.dr && g.dp = f.dp && g.cslot = f.cslot && g.abroad = f.abroad) }).inject cl [f]

/-- Whether a message of an out-slot still stands in a send queue of the cluster (R203). -/
def State.outQueued (s : State) (cl out : Nat) : Bool :=
  (coresOf cl).any fun c => (s.core c).sendQ.any fun e => e.out = some out

/-- The message unit forms a promise for an out-slot: by the quantum, for a waiting ask, or to close it once its
messages have been injected (R185, R203). -/
def execPromiseSend (cluster out : Nat) (s : State) : Result State :=
  .next (match (s.cluster cluster).outs.find out with
    | none => s
    | some o =>
      if o.st = 3 then
        if s.outQueued cluster out then s
        else (s.sendPromise cluster out o (atTick END)).modCluster cluster fun k => { k with
          outs := k.outs.set out { o with lastp := atTick END } }
      else if o.st = 2 then
        let a := advert (s.floor cluster o.own) o.l
        if tick o.lastp + o.q ≤ tick a || (o.askp && o.lastp.toNat < a.toNat) then
          (s.sendPromise cluster out o a).modCluster cluster fun k => { k with
            outs := k.outs.set out { o with lastp := a, askp := false } }
        else s
      else s)

/-- Whether an in-slot has a sender that may be asked: on this device or, through a fabric port, on another; never the host's, nor
one whose H is END (R186, R423). -/
def State.asks (s : State) (cl c : Nat) (i : InSlot) : Bool :=
  (i.scl != 0x3FF || (s.abroad.find (abroadKey ((s.cluster cl).ctx.getD 0) cl c)).isSome) && tick i.h < END

/-- The cycle from which an ask may go out on an in-slot that has blocked the candidate since `b`: after 64 cycles of it, and 256
after the last ask (R186). -/
def InSlot.askAt (i : InSlot) (b : Nat) : Nat := max (b + 64) ((i.asked.map (· + 256)).getD 0)

/-- The in-slots of a timeline that block its candidate and may be asked, each with the cycle from which (R186). -/
def State.toAsk (s : State) (cl t : Nat) (m : Item) : List (Nat × InSlot × Nat) :=
  (s.cluster cl).ins.filterMap fun p =>
    if InSlot.serves p t && !passes p m && s.asks cl p.1 p.2 then p.2.since.map fun b => (p.1, p.2, p.2.askAt b) else none

/-- The asks of a timeline on the in-slots that have blocked its candidate for 64 cycles (R186). -/
def execAskSend (cluster slot : Nat) (s : State) : Result State :=
  .next (
    let k := s.cluster cluster
    let v := k.tls.get slot {}
    match k.candidate slot with
    | none => s
    | some (j, m) =>
      if v.st != TlState.wait || v.who != some j then s
      else
        let s := ((s.toAsk cluster slot m).filter fun p => p.2.2 ≤ s.cycle).foldl (fun (s : State) p =>
          (s.modCluster cluster fun k => { k with ins := k.ins.set p.1 { p.2.1 with asked := some s.cycle } }).inject cluster
            [s.abroadOr cluster p.1 { flitTo (cluster * 4) p.2.1.scl 7 with
              cslot := BitVec.ofNat 7 p.2.1.sout, ctx := k.ctx.getD 0 }]) s
        (s.toAsk cluster slot m).foldl (fun s p => s.postOnce (p.2.2 - s.cycle) (.askSend cluster slot)) s)

/-- An ask at its out-slot: answered by a promise, or kept until the advertised value rises (R185, R186). -/
def execAskArrival (cluster out : Nat) (s : State) : Result State :=
  .next (match s.backed cluster with
    | some x => s.toBacking x (.flit (.askArrival cluster out))
    | none =>
      match (s.cluster cluster).outs.find out with
      | none => s
      | some o =>
        if o.st != 2 then s
        else (s.modCluster cluster fun k => { k with outs := k.outs.set out { o with askp := true } }).post
          (.promiseSend cluster out))

/-! ### Transit (R180, R181) -/

/-- The candidate of a timeline transits if the test holds: LAST and INTAKE, HEAD, and the head entry (R180, R206). -/
def execTransit (cluster slot : Nat) (s : State) : Result State :=
  .next (
    let k := s.cluster cluster
    let v := k.tls.get slot {}
    match k.candidate slot with
    | none => s
    | some (j, m) =>
      if v.st = TlState.wait && !m.divert && (s.backed cluster).isNone &&
          m.r.stamp.toNat < (s.ovMin cluster slot).toNat && (k.inSlots slot).all (fun c => passes c m) then
        let s := s.modCluster cluster fun k => { k with
          tls := k.tls.set slot { v with st := .head, last := m.r.stamp, intake := allOnes, blocked := none, who := none } }
        let s := s.enterEntry cluster slot j m
        (s.closeIn cluster m.inSlot).refloor cluster slot
      else s)

/-! ### Events (R194) -/

/-- The record of an event: its stamp and p0. -/
def eventRec (stamp p0 : Word) : Rec := #v[0x2000000000000, stamp, p0, 0, 0, 0, 0, 0]

/-- An event dropped because the store is full: counted, noted, and its number still counts (R194). EVDROP stands still once it has
saturated (R170), and then no drop is the next 1,025th of its count: no further note is sent (DESIGN CHOICE, log 134). -/
def State.dropEvent (s : State) (cl : Nat) (m : Item) (t : Nat) : State :=
  let v := (s.cluster cl).tls.get t {}
  let n := if v.evdrop = 0xFFFF then v.evdrop else v.evdrop + 1
  let s := s.modCluster cl fun k => { k with tls := k.tls.set t { v with evdrop := n } }
  let s := if n.toNat % 1024 = 1 then s.note (routerOfCluster cl) m.ctx 3 (Word.of (tlId cl t v.gen)) (Word.of n.toNat) 0 else s
  if m.rank < 8 then
    (s.modCluster cl fun k =>
      let i := k.ins.get m.inSlot {}
      { k with ins := k.ins.set m.inSlot { i with gaps := m.seq :: i.gaps } }).counted cl m.inSlot
  else s

/-- An event at its message unit (R194): counted as received, held in the store, delivered like any message. -/
def execEventArrival (cluster slot : Nat) (cseq : BitVec 8) (src : BitVec 12) (stamp p0 : Word) (s : State) : Result State :=
  .next (match s.backed cluster with
    | some x => s.toBacking x (.flit (.eventArrival cluster slot cseq src stamp p0))
    | none =>
      let k := s.cluster cluster
      let x := k.ctx.getD 0
      let s := s.countReceived (routerOfCluster cluster) x
      let m := s.addressed cluster { src := src.toNat, dr := 0, dp := 0, fk := 5, ctx := x, cslot := BitVec.ofNat 7 slot, cseq := cseq }
        { ev := true, src := src.toNat, mask := 15, r := eventRec stamp p0, ctx := x }
      let open_ := if m.rank < 8 then (k.ins.get slot {}).v && (k.ins.get slot {}).st = 1
        else (k.tls.get (slot - 112) {}).opn && some ((k.tls.get (slot - 112) {}).gen) = m.tl.map Prod.snd
      if open_ && 256 ≤ k.events then s.dropEvent cluster m ((m.tl.map Prod.fst).getD 0)
      else
        let (j, s) := s.newId
        (s.setItem cluster j { m with order := j }).deliver cluster j)

/-! ### Entry into the dispatcher (R206) -/

/-- Untimed records enter task entries in the order they completed, as entries are free (R206). -/
def execTaskEntry (cluster : Nat) (s : State) : Result State :=
  .next (
    if (s.backed cluster).isSome then s
    else
      let ready := (s.cluster cluster).inbox.filter fun p =>
        p.2.tl.isNone && p.2.st = .pending && !p.2.divert && (s.tagFor cluster p.2).isSome
      match ready.foldl (fun b p => match b with
        | none => some p
        | some (q : Nat × Item) => if p.2.order < q.2.order then some p else some q) none with
      | none => s
      | some (j, m) =>
        match s.tagFor cluster m with
        | none => s
        | some tag => (s.enterEntry cluster tag j m).post (.taskEntry cluster))

/-- The continuation of a `yield` written into a slot of its class or a divert entry, and its core freed; with no place, the core waits for
one (R109, R110, R153, R156). -/
def State.yieldWrite (s : State) (core : Nat) (r : Rec) (timed : Bool) : State :=
  let k := s.core core
  let cl := core / 4
  let cls := recClass r[0]
  let divert := (s.cluster cl).freeSlots cls = 0 || s.waitsInOverflow cl cls
  if divert && 8 ≤ (s.cluster cl).diverts then
    (s.modCore core fun k => { k with run := .leaving r timed }).postIn 1 (.yieldComplete core)
  else
    let t := k.tl.toNat / 1024 % 16
    let (j, s) := s.newId
    let s := s.setItem cl j {
      cls := cls, divert := divert, src := core, mask := 15, r := r, st := .pending
      tl := if timed then some (t, BitVec.ofNat 2 (k.tl.toNat / 16384)) else none
      inSlot := if timed then 112 + t else 0, rank := if timed then 9 else 15, order := j, ctx := k.ctx
      inTask := k.intrap }
    let s := if divert then s.post (.overflowWrite cl) else if timed then s else s.post (.taskEntry cl)
    (s.freeCore core).timelineEnds k.tl

/-- A `yield` whose waits are over: the keys are released and the continuation is written, for which the core may have to wait without its
keys; nothing traps it then (R87, R109). -/
def execYieldComplete (core : Nat) (s : State) : Result State :=
  .next (
    let k := s.core core
    match k.run with
    | .yielding r timed =>
      if !k.drained then s
      else
        let s := if k.keys = 0 then s
          else ((s.releaseKeys k).modCore core fun k => { k with keys := 0 }).post (.taskEntry k.entryCluster)
        s.yieldWrite core r timed
    | .leaving r timed => s.yieldWrite core r timed
    | _ => s)

/-! ### The meridian survey (R187 to R191) -/

/-- The router that visit `n` of a circuit goes to (R187). -/
def visitRouter (n : Nat) : Nat := n / 16 * 16 + (if n / 16 % 2 = 0 then n % 16 else 15 - n % 16)

/-- The stamps of a cluster that MHERE counts (R188). -/
def State.mhereCluster (s : State) (x cl : Nat) : Word :=
  let k := s.cluster cl
  if k.ctx != some x then allOnes
  else
    let b := k.inbox.foldl (fun b p => if p.2.st = .filling || p.2.st = .inlined then b else stampMin b p.2.r.stamp) allOnes
    let b := (List.range 16).foldl (fun b t => stampMin b (s.ovMin cl t)) b
    let b := (s.overflow cl).foldl (fun b o => if o.cluster = cl && o.item.tl.isNone then stampMin b o.item.r.stamp else b) b
    let b := k.ins.foldl (fun b p => if p.1 < 112 && p.2.v && p.2.scl = 0x3FF then stampMin b p.2.h else b) b
    (coresOf cl).foldl (fun b c =>
      let q := s.core c
      let b := if q.run = .free || q.run = .held then b else stampMin b (s.runTerm c)
      q.sendQ.foldl (fun b e => stampMin b (e.r[1])) b) b

/-- MHERE of an interface for a context (R188). -/
def State.mhere (s : State) (x r : Nat) : Word :=
  match computeOfRouter r with
  | none => allOnes
  | some i => (List.range 4).foldl (fun b p => stampMin b (s.mhereCluster x (i * 4 + p))) allOnes

/-- The meridian published at an interface: `mer`, the open ports, every in-slot (R190). -/
def State.publishAt (s : State) (x r : Nat) (m : Word) : State :=
  let s := s.modSurv r x fun v => { v with mer := m }
  match computeOfRouter r with
  | none => s
  | some i => (List.range 4).foldl (fun s p =>
      let cl := i * 4 + p
      if (s.cluster cl).ctx != some x then s
      else
        let lo := (s.ctx x).lopen.toNat
        let s := s.modCluster cl fun k => { k with ins := k.ins.map fun q =>
          let h := stampMax q.2.h (stampSucc m)
          (q.1, { q.2 with h := if 112 ≤ q.1 then stampMax h (atTick (tick m + lo)) else h }) }
        s.retestAll cl) s

/-- Whether a context's token has a reason to circulate (R187). -/
def State.tokenWanted (s : State) (x : Nat) : Bool :=
  let c := s.ctx x
  c.qreq || c.ckpt.isSome || c.found.isSome || c.publishing.isSome ||
  c.clusterList.any fun cl =>
    let k := s.cluster cl
    (k.tls.any fun t => match t.2.blocked with
      | some b => b + 1024 ≤ s.cycle
      | none => false) ||
    let open_ := fun (m : Item) => m.st = .pending && m.rank = 8 && m.tl.isSome
    k.inbox.any (fun p => open_ p.2) || c.ovf.any fun o => open_ o.item

/-- A circuit begins. -/
def State.beginCircuit (s : State) (x : Nat) : State :=
  (s.modCtx x fun c => { c with
    tokOn := true, tokPos := 0, tokStart := s.cycle, tokStalled := false, publishing := c.found, found := none }).postIn 65536
    (.survstall x)

/-- The payload of a token (R189). -/
def Ctx.tokenPay (c : Ctx) : BitVec 128 :=
  BitVec.ofNat 128 (c.tokMin.toNat + (c.tokSum % 2 ^ 40).toNat * 2 ^ 64 + (if c.tokBlack then 2 ^ 104 else 0))

/-- The token of a context leaves router `r` for its next visit, as a SURV flit over the links (R144, R187, R189). -/
def State.sendToken (s : State) (x r : Nat) : State :=
  let c := s.ctx x
  s.offerIn 0 [{ src := 0xE00 + r, dr := visitRouter c.tokPos, dp := 0, fk := 10, ctx := x, pay := c.tokenPay, ev := some (.surveyVisit x) }]

/-- A token that waits begins to circulate, while fewer than 16 do (R187). One that a freeze has stopped (R191) counts among the 16: R187
does not say (DESIGN CHOICE, log 135). -/
def execTokenStart (ctx : Nat) (s : State) : Result State :=
  .next (
    let c := s.ctx ctx
    if c.tokOn || c.st != .running || !s.tokenWanted ctx then s
    else if 16 ≤ (s.ctxs.filter fun p => p.2.tokOn).length then s
    else (s.beginCircuit ctx).postIn 4 (.surveyVisit ctx))

/-- The token takes an interface's values (R189). -/
def State.tokenTakes (s : State) (x iface : Nat) (mh : Word) : State :=
  let v := (s.router iface).surv.get x {}
  (s.modCtx x fun c => { c with
    tokSum := c.tokSum + v.cnt
    tokMin := stampMin c.tokMin (stampMin mh v.msent)
    tokBlack := c.tokBlack || v.blk }).modSurv iface x fun v => { v with cnt := 0, blk := false, msent := allOnes }

/-- A token of context `x` no longer circulates: the contexts whose tokens wait are looked at, in turn from the one after it (R187). -/
def State.tokenFreed (s : State) (x : Nat) : State :=
  s.posts (((s.ctxs.filter fun p => x < p.1) ++ (s.ctxs.filter fun p => p.1 < x)).map fun p => .tokenStart p.1)

/-- The end of a circuit: the links' and ports' interfaces, publication, QUIET, and whether another circuit follows
(R188 to R190). QREQ set while a circuit is under way, with the meridian already at END, is answered at the end of that circuit: R190 does
not say whether it is the first after the write (DESIGN CHOICE, log 138). -/
def State.endCircuit (s : State) (x : Nat) : State :=
  let s := (List.range 26).foldl (fun s i => s.tokenTakes x (192 + i) allOnes) s
  let c := s.ctx x
  let mer := c.publishing.getD c.mer
  let m := stampMin c.tokMin (atTick END)
  let found := if !c.tokBlack && c.tokSum = 0 && mer.toNat < m.toNat then some m else none
  let quiet := c.qreq && mer = atTick END
  let s := s.modCtx x fun c => { c with
    mer := mer, publishing := none, found := found, tokMin := allOnes, tokBlack := false, qreq := c.qreq && !quiet }
  let s := if quiet then s.note (visitRouter 191) x 4 0 0 0 else s
  let s := match c.ckpt with
    | none => s
    | some k => if !k.started && k.t * 65536 ≤ mer.toNat then s.post (.archiveStart x) else s
  if s.tokenWanted x then (s.beginCircuit x).sendToken x (visitRouter 191)
  else (s.modCtx x fun c => { c with tokOn := false }).tokenFreed x

/-- A visit of the token: the interface's values are taken and reset, and a meridian is published (R189, R190); a
frozen context's token stands where it is until the thaw (R191). -/
def execSurveyVisit (ctx : Nat) (s : State) : Result State :=
  .next (
    let c := s.ctx ctx
    if !c.tokOn then s
    else if c.st != .running then s.modCtx ctx fun c => { c with tokHeld := true }
    else
      let r := visitRouter c.tokPos
      let s := s.tokenTakes ctx r (s.mhere ctx r)
      let s := match c.publishing with
        | none => s
        | some m => s.publishAt ctx r m
      let s := s.modCtx ctx fun c => { c with tokPos := c.tokPos + 1 }
      if 191 ≤ c.tokPos then s.endCircuit ctx else s.sendToken ctx r)

/-- A circuit that has not ended 65,536 cycles after its start is noted once (R191). -/
def execSurvstall (ctx : Nat) (s : State) : Result State :=
  .next (
    let c := s.ctx ctx
    if c.tokOn && c.tokStart + 65536 ≤ s.cycle && !c.tokStalled then
      (s.modCtx ctx fun c => { c with tokStalled := true }).note (visitRouter (min c.tokPos 191)) ctx 5 (Word.of (visitRouter (min c.tokPos 191))) 0 0
    else s)

end Sys2Proof.Machine
end

