-- ==== Sys2Proof/Machine/Messages.lean ====
section
/-! DEFINITION. The words that make timelines, channels and messages, and the steps that carry them out (R165, R195
to R203). -/

namespace Sys2Proof.Machine

open Sys2Proof

/-! ### Checks -/

/-- Whether a cluster lies in the rectangle of the running core's context. -/
def State.inRect (s : State) (cl : Nat) : Bool := (s.ctx s.me.ctx).hasCluster cl

/-- The record fault of a head, p5, p4 and p3 (R47, R426). -/
def recTrap (w p5 p4 p3 : Word) : Option Trap :=
  match recCheck w p5 p4 p3 with
  | .ok => none
  | .keys => some { code := 0x0B, pc := 0, tval := p5, recf := true }
  | .illegal => some { code := 0x01, pc := 0, tval := w, recf := true }

/-- The ACCESS trap of an operand that names a unit outside the rectangle (R366 WHY 4). -/
def rectTrap (v : Word) : Trap := { code := 0x05, pc := 0, tval := v, why := 4 }

/-- The head of a message checked: the record, PRIV for SYS in task mode, then the word's own tests (R197 to R199,
R426); then `go`. -/
def State.withHead (s : State) (i : Instr) (head : Word) (bad : Word → Bool) (go : State → State) : State :=
  let k := s.me
  match recTrap head (k.getN 15) (k.getN 14) (k.getN 13) with
  | some t => s.trapWith t
  | none =>
    if recClass head = 3 && k.mode = .task then s.trap 0x02 (wordTval i)
    else if bad head then s.trap 0x01 (wordTval i)
    else go s

/-- A message put at the tail of the send queue under the core's next MTAG, to leave under its release condition (R152, R197); the host
takes a reply without one. A full queue traps SQFULL. -/
def State.enqueue (s : State) (sa : Word) (e : SendEntry) (after : Core → Core) : State :=
  if 8 ≤ s.me.sendQ.length then s.trap 0x09 sa
  else ((s.modMe fun k => after { k with
    sendQ := k.sendQ ++ [{ e with mtag := k.mtag, fence := k.relAll }]
    mtag := if e.host then k.mtag else k.mtag + 1 }).kick s.cur).advance

/-- The payload of a message: s10 to s15. -/
def Core.payload (k : Core) : List Word := (List.range 6).map fun i => k.getN (10 + i)

/-- A record of a head, a stamp and six payload words. -/
def mkRec (w0 w1 : Word) (p : List Word) : Rec :=
  #v[w0, w1, p.getD 0 0, p.getD 1 0, p.getD 2 0, p.getD 3 0, p.getD 4 0, p.getD 5 0]

/-! ### send, post, reply (R197 to R199) -/

/-- The tests of a head that `send` adds: CLASS RPL or PROM, KIND CONT, and what an EVENT may not carry (R197). -/
def sendBad (h : Word) : Bool :=
  recClass h = 1 || recClass h = 2 || recKind h = 5 ||
  (recKind h = 2 && (recNkeys h != 0 || recCond h != 0 || recPri h != 0 || recHandler h != 0))

/-- Whether a stamp may be sent with lookahead `l` (R197): the step of the test that fails, none if it may. -/
def stampTest (l : Nat) (now term st : Word) : Option Nat :=
  if l != 0 then
    if stepOf st != 0 || tick st < tick term + l || END ≤ tick st then some 3 else none
  else if stepOf now = 65535 || st != now + 1 || st.toNat ≤ term.toNat then some 4 else none

/-- send (R197). -/
def execSend (w : Bool) (d a b k : BitVec 5) (s : State) : Result State :=
  word (.send w d a b k) (fun s =>
    let c := s.me
    let head := c.get d
    let sa := c.get a
    let st := c.get b
    s.withHead (.send w d a b k) head sendBad fun s =>
      let opn := sa.fld 16 16 = 1
      if sa.fld 63 17 != 0 || (!opn && sa.fld 15 7 != 0) then s.trapChan sa 1
      else
        let r := if recKind head = 2 then mkRec head st [c.getN 10] else mkRec head st c.payload
        let fk := if recKind head = 2 then 5 else if recClass head = 3 then 4 else 2
        if opn then
          if !s.inRect (sa.fld 9 0) then s.trapWith (rectTrap sa)
          else match stampTest (s.ctx c.ctx).lopen.toNat c.now c.term st with
            | some n => s.trapChan st n
            | none =>
              s.enqueue sa { r := r, fk := fk, cl := sa.fld 9 0, cslot := BitVec.ofNat 7 (112 + sa.fld 13 10)
                             cseq := sa.fld 15 14 * 64 + c.openCount.toNat, bound := c.seq, mask := k }
                fun q => { q with openCount := q.openCount + 1 }
        else
          let cl := s.myCluster
          let n := sa.fld 6 0
          let o := (s.cluster cl).outs.get n {}
          if o.st != 2 || c.tl = 0xFFFF || c.tl.toNat % 1024 != cl || o.own != c.tl.toNat / 1024 % 16 then s.trapChan sa 2
          else match stampTest o.l c.now c.term st with
            | some n => s.trapChan st n
            | none =>
              if 8 ≤ c.sendQ.length then s.trap 0x09 sa
              else
                (s.modCluster cl fun k => { k with outs := k.outs.set n { o with nxt := (o.nxt + 1) % 2 ^ 32 } }).enqueue sa
                  { r := r, fk := fk, cl := o.dcl, cslot := BitVec.ofNat 7 o.din, cseq := o.nxt, out := some n, bound := c.seq
                    mask := k } id) s

/-- The tests of a head that `post` adds (R198). -/
def postBad (clu : Bool) (h : Word) : Bool :=
  recClass h = 1 || recClass h = 2 || recKind h = 2 || recKind h = 5 || recHandler h = 0 ||
  (!clu && (recKind h = 3 || recKind h = 4))

/-- post (R198). -/
def execPost (w : Bool) (d a k : BitVec 5) (s : State) : Result State :=
  word (.post w d a k) (fun s =>
    let c := s.me
    let head := c.get d
    let sa := c.get a
    let clu := sa.fld 12 12 = 1
    s.withHead (.post w d a k) head (postBad clu) fun s =>
      if sa.fld 63 13 != 0 || (clu && sa.fld 11 10 != 0) then s.trapChan sa 1
      else
        let cl := if clu then sa.fld 9 0 else sa.fld 11 0 / 4
        if !s.inRect cl then s.trapWith (rectTrap sa)
        else s.enqueue sa { r := mkRec head c.now c.payload, fk := if recClass head = 3 then 4 else 2, cl := cl
                            untimed := true, core := if clu then none else some (sa.fld 11 0), bound := c.seq, mask := k } id) s

/-- The tests of a head that `reply` adds (R199). -/
def replyBad (h : Word) : Bool := recClass h != 0 || 1 < recKind h || recHandler h = 0

/-- The record of a reply: RPL in place of the head's CLASS (R199). -/
def replyRec (c : Core) (head : Word) : Rec := mkRec (putFld head 52 2 1) c.now c.payload

/-- reply to a core, or to the host, which adds H to its mask (R199, R420): `sa` is s[a], `named` the operand that names the target. -/
def State.replyCore (s : State) (head sa named : Word) (target : Nat) (host : Bool) (k : BitVec 5) : State :=
  let c := s.me
  if host then s.enqueue sa { r := replyRec c head, fk := 3, cl := 0, untimed := true, bound := c.seq, host := true, mask := k ||| maskH } id
  else if !s.inRect (target / 4) then s.trapWith (rectTrap named)
  else s.enqueue sa { r := replyRec c head, fk := 3, cl := target / 4, untimed := true, core := some target, bound := c.seq, mask := k } id

/-- reply: to the core in `src` (R199). -/
def execReply (w : Bool) (d k : BitVec 5) (s : State) : Result State :=
  word (.reply w d k) (fun s =>
    let head := s.me.get d
    let t := s.me.src.toNat
    s.withHead (.reply w d k) head replyBad fun s => s.replyCore head 0 (Word.of t) t (t = 0xFFF) k) s

/-- reply.to: to the core s[a] (R199). -/
def execReplyTo (w : Bool) (d a k : BitVec 5) (s : State) : Result State :=
  word (.replyTo w d a k) (fun s =>
    let head := s.me.get d
    let sa := s.me.get a
    s.withHead (.replyTo w d a k) head replyBad fun s =>
      if sa.fld 63 12 != 0 then s.trapChan sa 1 else s.replyCore head sa sa sa.toNat false k) s

/-- Whether the message at the head of a send queue may be injected: its core's receipts, and the window of its
channel (R152, R178). -/
def State.mayInject (s : State) (c : Nat) (e : SendEntry) : Bool :=
  (s.core c).unreceipted.length < 32 && (match e.out with
    | none => true
    | some n => (e.cseq + 2 ^ 32 - ((s.cluster (c / 4)).outs.get n {}).old) % 2 ^ 32 < 128)

/-- The flits of a message (R143, R146); one on a channel to another device goes to its fabric port (R423). -/
def State.messageFlits (s : State) (c : Nat) (e : SendEntry) (mtag : BitVec 8) (x : Nat) : List Flit :=
  let f : Flit := { flitTo c e.cl e.fk with
    cslot := e.cslot, cseq := BitVec.ofNat 8 e.cseq, mtag := mtag, ctx := x, untimed := e.untimed, core := e.core }
  let f := match e.out with
    | none => f
    | some n => s.abroadOr (c / 4) (128 + n) f
  if e.fk = 5 then [{ f with pay := (e.r[2]) ++ (e.r[1]) }] else recFlits f e.r

/-- A closing channel whose last message has left its send queue sends its promise (R203). -/
def State.closeAfter (s : State) (cl : Nat) (e : SendEntry) : State := match e.out with
  | none => s
  | some n => if ((s.cluster cl).outs.get n {}).st = 3 then s.post (.promiseSend cl n) else s

/-- The message at the head of a send queue is injected once it is released (R152, R178, R188, R197); a single-bit error of it is
corrected and logged; one with an error that cannot be corrected raises a machine-check and is lost (R403, R408, log 119). -/
def execSendInject (core : Nat) (s : State) : Result State :=
  .next (
    let k := s.core core
    match k.sendQ with
    | [] => s
    | e :: t =>
      if !(e.free k && s.mayInject core e && !e.host) || k.run = .stopped then s
      else if e.err then
        ((s.machineCheck .sendQueue (routerOfCluster (core / 4)) core k.ctx e.r[0]).setCore core { k with sendQ := t }).closeAfter
          (core / 4) e |>.kick core
      else
        let s := if e.soft then s.softLog (routerOfCluster (core / 4)) core k.ctx e.r[0] else s
        let cl := core / 4
        let m := e.mtag
        let s := s.setCore core { k with sendQ := t, unreceipted := k.unreceipted ++ [m] }
        let o : OpenSend := { src := core, mtag := m, core := some core, out := e.out, seq := e.cseq, at_ := none, ctx := k.ctx }
        let s := s.modCluster cl fun q => { q with openSends := q.openSends ++ [o] }
        (((s.countSent (routerOfCluster cl) k.ctx e.r.stamp).inject cl (s.messageFlits core e m k.ctx)).closeAfter cl e).kick core)

/-! ### Timelines (R195, R196) -/

/-- tlnew (R195). Where both operands fail the one test of CHAN, `tval` is s[a] (DESIGN CHOICE, log 146). -/
def execTlnew (w : Bool) (d a b : BitVec 5) (s : State) : Result State :=
  word (.tlnew w d a b) (fun s =>
    let c := s.me
    let sa := c.get a
    let sb := c.get b
    if sa.fld 63 16 != 0 || (sa.fld 14 14 = 1 && sa.fld 13 10 != 0) then s.trapChan sa 1
    else if sb.fld 1 0 != 0 || sb.fld 63 48 != 0 then s.trapChan sb 1
    else if !s.inRect (sa.fld 9 0) then s.trapWith (rectTrap sa)
    else
      let q : Query := { core := s.cur, seq := c.seq, what := .tlnew sa sb, d := d, ctx := c.ctx, now := c.now }
      let s := { s with queries := s.queries ++ [q] }
      ((s.modMe fun q => { q with
        seq := q.seq + 1, outs := q.outs.set q.seq { iaddr := q.pc, dest := .reg d 8 false } }).post
          (.tlnewAtCluster s.cur c.seq)).advance) s

/-- The query of a core's word. -/
def State.query (s : State) (c seq : Nat) : Option Query := s.queries.find? fun q => q.core = c && q.seq = seq

/-- A query answered. -/
def State.answerQuery (s : State) (c seq : Nat) (v : Word) (code din : Nat) : State :=
  { s with queries := s.queries.map fun q => if q.core = c && q.seq = seq then { q with answer := some v, code := code, din := din } else q }

/-- The answer of a query reaches its core. -/
def State.closeQuery (s : State) (q : Query) (v : Word) : State :=
  let s := { s with queries := s.queries.filter fun o => !(o.core = q.core && o.seq = q.seq) }
  (s.modCore q.core fun k => { k.put q.d v with outs := k.outs.erase q.seq }).kick q.core

/-- The lowest FREE timeline slot of a cluster. -/
def Cluster.freeSlot (k : Cluster) : Option Nat := (List.range 16).find? fun t => (k.tls.get t {}).st = .free

/-- A timeline placed in a slot (R171, R195). -/
def State.placeTimeline (s : State) (cl t : Nat) (defh intake : Word) (opn : Bool) (h : Word) : State :=
  s.modCluster cl fun k =>
    let v := k.tls.get t {}
    { k with
      tls := k.tls.set t { defh := defh, intake := intake, opn := opn, st := .idle, gen := v.gen, ovmin := v.ovmin, recomp := v.recomp }
      ins := if opn then k.ins.set (112 + t) { v := true, st := 1, rank := 8, tls := t, h := h, gen := v.gen }
        else k.ins.erase (112 + t) }

/-- Whether a request of a core to another cluster's message unit has to wait: interfaces inside a fence send nothing (R412). -/
def State.fencedIn (s : State) (core : Nat) : Bool := (s.fencedCluster (core / 4)).isSome

/-- A query refused by the fence of rectangle `n` around its cluster: counted there, and its word reports ACCESS with WHY 4 (R412, R413:
DESIGN CHOICE, log 107). -/
def State.fenceRefuses (s : State) (n cl : Nat) (q : Query) (operand : Word) : State :=
  let r := routerOfCluster cl
  let s := s.countNak n r r q.core q.ctx q.ctx operand
  let o := (s.core q.core).outs.get q.seq { iaddr := 0 }
  let s := s.defer q.core q.seq { code := 5, pc := 0, tval := operand, iaddr := some o.iaddr, why := 4 }
  let s := { s with queries := s.queries.filter fun o => !(o.core = q.core && o.seq = q.seq) }
  (s.modCore q.core fun k => { k with outs := k.outs.erase q.seq }).kick q.core

/-- A `tlnew` at its cluster (R195), where no fence keeps it back (R412). -/
def execTlnewAtCluster (core seq : Nat) (s : State) : Result State :=
  .next (match s.query core seq with
    | none => s
    | some q =>
      match q.what, q.answer with
      | .tlnew a b, none =>
        let cl := a.fld 9 0
        let k := s.cluster cl
        let any := a.fld 14 14 = 1
        let done := fun (s : State) (v : Word) => (s.answerQuery core seq v 0 0).postLate (.tlnewResult core seq)
        if s.fencedIn core then s.postIn 64 (.tlnewAtCluster core seq)
        else match s.fencedCluster cl with
        | some n => s.fenceRefuses n cl q a
        | none =>
        match (if any then k.freeSlot else if (k.tls.get (a.fld 13 10) {}).st = .free then some (a.fld 13 10) else none) with
        | none => done s (Word.of (2 ^ 63 + (if any then 2 else 1)))
        | some t =>
          let x := s.ctx q.ctx
          let mer := ((s.router (routerOfCluster cl)).surv.get q.ctx {}).mer
          let s := s.placeTimeline cl t b q.now (a.fld 15 15 = 1) (atTick (tick mer + x.lopen.toNat))
          done s (Word.of (tlId cl t (k.tls.get t {}).gen))
      | _, _ => s)

/-- The result of a `tlnew` reaches its core (R195). -/
def execTlnewResult (core seq : Nat) (s : State) : Result State :=
  .next (match s.query core seq with
    | none => s
    | some q => match q.what, q.answer with
      | .tlnew _ _, some v => s.closeQuery q v
      | _, _ => s)

/-- tlfree: posted, no result (R196). -/
def execTlfree (w : Bool) (a : BitVec 5) (s : State) : Result State :=
  word (.tlfree w a) (fun s =>
    let sa := s.me.get a
    if sa.fld 63 16 != 0 then s.trapChan sa 1
    else if !s.inRect (sa.fld 9 0) then s.trapWith (rectTrap sa)
    else (s.post (.tlfreeArrival (sa.fld 9 0) ⟨s.cur, BitVec.ofNat 16 sa.toNat⟩)).advance) s

/-- A head entry withdrawn because its timeline is freed (R231): its keys, its watches, and a FREED dead letter. -/
def State.withdrawHead (s : State) (cl t : Nat) (e : TEntry) : State :=
  let v := (s.cluster cl).tls.get t {}
  let s := s.dropEntry cl t e
  let s := match s.item cl e.item with
    | none => s
    | some m => (s.deadItem cl m (tlId cl t v.gen) 3).dropItem cl e.item
  s.freeTimeline cl t

/-- A `tlfree` of a core at its slot (R171, R196, R231), where no fence keeps it back (R412, R413). -/
def execTlfreeArrival (cluster : Nat) (ask : TlFree) (s : State) : Result State :=
  .next (
    if s.fencedIn ask.core then s.postIn 64 (.tlfreeArrival cluster ask)
    else match s.fencedCluster cluster with
    | some n =>
      let x := (s.core ask.core).ctx
      s.countNak n (routerOfCluster cluster) (routerOfCluster cluster) ask.core x x (ask.id.setWidth 64)
    | none =>
    let t := ask.id.toNat / 1024 % 16
    let v := (s.cluster cluster).tls.get t {}
    if v.gen.toNat != ask.id.toNat / 16384 then s
    else match v.st with
      | .idle => s.freeTimeline cluster t
      | .wait => s.freeTimeline cluster t
      | .run => s.modCluster cluster fun k => { k with tls := k.tls.set t { v with st := .dying } }
      | .head =>
        let s := s.modCluster cluster fun k => { k with tls := k.tls.set t { v with st := .dying } }
        match (s.cluster cluster).entries.find t with
        | none => s
        | some e => s.withdrawHead cluster t e
      | .free => s
      | .dying => s
      | .retired => s)

/-! ### promise, chopen, chclose (R200 to R203) -/

/-- promise (R200, R201). -/
def execPromise (w : Bool) (a : BitVec 5) (s : State) : Result State :=
  word (.promise w a) (fun s =>
    let c := s.me
    let p := c.get a
    if c.tl = 0xFFFF then s.trapChan p 1
    else if p.toNat < c.term.toNat || END * 65536 < p.toNat then s.trapChan p 2
    else
      let s := s.modMe fun q => { q with term := p }
      (s.refloor (c.tl.toNat % 1024) (c.tl.toNat / 1024 % 16)).advance) s

/-- The lowest free out-slot of a cluster. -/
def Cluster.freeOut (k : Cluster) : Option Nat := (List.range 128).find? fun n => !(k.outs.get n {}).v

/-- The lowest free ranked in-slot of a cluster. -/
def Cluster.freeIn (k : Cluster) : Option Nat := (List.range 112).find? fun n => !(k.ins.get n {}).v

/-- A closed channel's receipts still to come no longer settle its out-slot, which a new channel takes (R178, R202). -/
def Cluster.disown (k : Cluster) (n : Nat) : Cluster :=
  { k with openSends := k.openSends.map fun o => if o.out = some n then { o with out := none } else o }

/-- chopen (R202). Where both operands fail the one test of CHAN, `tval` is s[a] (DESIGN CHOICE, log 147). -/
def execChopen (w : Bool) (d a b : BitVec 5) (s : State) : Result State :=
  word (.chopen w d a b) (fun s =>
    let c := s.me
    let sa := c.get a
    let sb := c.get b
    if c.tl = 0xFFFF || sa.fld 63 21 != 0 || 7 < sa.fld 19 16 then s.trapChan sa 1
    else if sb.fld 63 32 = 0 then s.trapChan sb 1
    else if !s.inRect (sa.fld 9 0) then s.trapWith (rectTrap sa)
    else
      let cl := c.tl.toNat % 1024
      let t := c.tl.toNat / 1024 % 16
      let adv := advert (s.floor cl t) (sb.fld 31 0)
      let q : Query := { core := s.cur, seq := c.seq, what := .chopen 0 sa sb adv, d := d, ctx := c.ctx, now := c.term }
      let s := s.modMe fun q => { q with
        seq := q.seq + 1, outs := q.outs.set q.seq { iaddr := q.pc, dest := .reg d 8 false } }
      match (s.cluster cl).freeOut with
      | none =>
        let q := { q with answer := some (Word.of (2 ^ 63 + 1)), code := 1 }
        let s := { s with queries := s.queries ++ [q] }
        (s.postLate (.chopenResult s.cur c.seq)).advance
      | some n =>
        let o : OutSlot := {
          v := true, st := 1, bulk := sa.fld 20 20 = 1, rank := sa.fld 19 16, own := t, dcl := sa.fld 9 0
          q := sb.fld 63 32, l := sb.fld 31 0, lastp := adv }
        let s := s.modCluster cl fun k => { k.disown n with outs := k.outs.set n o }
        let q := { q with what := .chopen n sa sb adv }
        let s := { s with queries := s.queries ++ [q] }
        (s.post (.chopenAtTarget s.cur c.seq)).advance) s

/-- A `chopen` at its target: GONE, RANK, NOIN, LATE, or a new in-slot (R202), where no fence keeps it back (R412). -/
def execChopenAtTarget (core seq : Nat) (s : State) : Result State :=
  .next (match s.query core seq with
    | none => s
    | some q =>
      match q.what, q.answer with
      | .chopen n a _ adv, none =>
        let cl := a.fld 9 0
        let t := a.fld 13 10
        let k := s.cluster cl
        let v := k.tls.get t {}
        let done := fun (s : State) (code din : Nat) =>
          (s.answerQuery core seq (if code = 0 then Word.of n else Word.of (2 ^ 63 + code)) code din).postLate (.chopenResult core seq)
        if s.fencedIn core then s.postIn 64 (.chopenAtTarget core seq)
        else match s.fencedCluster cl with
        | some f =>
          let src := (s.core core).tl.toNat % 1024
          (s.modCluster src fun k => { k with outs := k.outs.erase n }).fenceRefuses f cl q a
        | none =>
        if v.st = .free || v.st = .retired || v.gen.toNat != a.fld 15 14 then done s 4 0
        else if k.ins.any fun p => p.1 < 112 && p.2.v && p.2.st = 1 && p.2.tls = t && p.2.rank = a.fld 19 16 then done s 3 0
        else match k.freeIn with
          | none => done s 2 0
          | some i =>
            if adv.toNat < (s.floor cl t).toNat then done s 5 0
            else
              let src := (s.core core).tl.toNat % 1024
              let s := s.modCluster cl fun k => { k with ins := k.ins.set i {
                h := adv, v := true, st := 1, bulk := a.fld 20 20 = 1, rank := a.fld 19 16, tls := t, scl := src, sout := n, gen := v.gen } }
              done (s.retest cl t) 0 i
      | _, _ => s)

/-- The result of a `chopen` reaches its core: the out-slot opens, or is free again (R202). -/
def execChopenResult (core seq : Nat) (s : State) : Result State :=
  .next (match s.query core seq with
    | none => s
    | some q => match q.what, q.answer with
      | .chopen n _ _ _, some v =>
        let tl := (s.core core).tl
        let cl := tl.toNat % 1024
        let t := tl.toNat / 1024 % 16
        let o := (s.cluster cl).outs.get n {}
        let live := ((s.cluster cl).tls.get t {}).gen.toNat = tl.toNat / 16384
        let s := if q.code = 0 then
            let s := s.modCluster cl fun k => { k with outs := k.outs.set n { o with st := if live then 2 else 3, din := q.din } }
            if live then s else s.post (.promiseSend cl n)
          else if q.code = 1 then s
          else s.modCluster cl fun k => { k with outs := k.outs.erase n }
        (s.closeQuery q v).refloor cl t
      | _, _ => s)

/-- chclose (R203). -/
def execChclose (w : Bool) (a : BitVec 5) (s : State) : Result State :=
  word (.chclose w a) (fun s =>
    let c := s.me
    let sa := c.get a
    let cl := c.tl.toNat % 1024
    let n := sa.fld 6 0
    let o := (s.cluster cl).outs.get n {}
    if sa.fld 63 7 != 0 || c.tl = 0xFFFF || !o.v || o.st != 2 || o.own != c.tl.toNat / 1024 % 16 then s.trapChan sa 1
    else ((s.modCluster cl fun k => { k with outs := k.outs.set n { o with st := 3, askp := false } }).post
      (.promiseSend cl n)).advance) s

/-! ### nstat (R165) -/

/-- Conditions of a cluster in polling mode (R223). -/
def Cluster.polling (k : Cluster) : Nat :=
  k.entries.foldl (fun n p => n + (if p.2.poll.getLsbD 0 then 1 else 0) + (if p.2.poll.getLsbD 1 then 1 else 0)) 0

/-- Whether a bridge link of a router replays or retrains. -/
def State.linkBusy (s : State) (r : Nat) : Bool :=
  (List.range 11).any fun j => match s.linkOf r (portDest r (15 + j)) with
    | none => false
    | some l => l.retrain || s.cycle < max l.upTill l.downTill

/-- A status word (R165). -/
def State.nstatWord (s : State) (sel : Nat) (id : Nat) : Word :=
  let cl := s.myCluster
  let k := s.cluster cl
  let r := s.router (routerOfCluster cl)
  match sel with
  | 0 => Word.of (r.level + r.frac * 4 + (if s.tooOld cl then 1024 else 0) + (if s.linkBusy (routerOfCluster cl) then 2048 else 0))
  | 1 => Word.of (k.freeSlots 0 + k.freeSlots 1 * 2 ^ 8 + k.freeSlots 3 * 2 ^ 15 + k.diverts * 2 ^ 20 + s.me.unreceipted.length * 2 ^ 24)
  | 2 => Word.of ((s.overflow cl).length + (if (s.ctx s.me.ctx).ovfStanding then 2 ^ 32 else 0))
  | 3 =>
    let v := k.tls.get (id / 1024 % 16) {}
    if v.gen.toNat = id / 16384 then v.ovmin else allOnes
  | _ =>
    let ready := (k.entries.filter fun p => p.2.phase = .ready || p.2.phase = .quad).length
    Word.of (min ready 255 + (if k.polling = 0 then 0 else 256) + min k.polling 127 * 512 + (if 2 ≤ r.level then 65536 else 0))

/-- nstat (R165). -/
def execNstat (w : Bool) (d a : BitVec 5) (sel : BitVec 4) (s : State) : Result State :=
  word (.nstat w d a sel) (fun s =>
    let id := (s.me.get a).fld 15 0
    if sel = 3 && id % 1024 != s.myCluster then s.trapWith { code := 0x05, pc := 0, tval := Word.of id, why := 9 }
    else s.result d (s.nstatWord sel.toNat id)) s

end Sys2Proof.Machine
end

