-- ==== Sys2Proof/Machine/Desk.lean ====
section
/-! DEFINITION. The reserve desks, the counter conditions and the words of the dispatcher: `tsub`, `krel`, `kheld`
(R214 to R231). -/

namespace Sys2Proof.Machine

open Sys2Proof

/-! ### Words (R227 to R229) -/

/-- The payload of a submitted record: s[a] to s[a+5]. -/
def Core.payloadAt (k : Core) (a : BitVec 5) : List Word := (List.range 6).map fun i => k.getN (a.toNat + i)

/-- The tests of a head that `tsub` adds (R227). -/
def tsubBad (h : Word) : Bool := recClass h = 1 || recClass h = 2 || recKind h = 2 || recKind h = 5 || recHandler h = 0

/-- tsub (R227). R371 gives a bad GANG16's ACCESS trap `tval` the operand register, and `tsub` has two: the model gives s[d], the head
(DESIGN CHOICE, log 137). -/
def execTsub (w : Bool) (d a k : BitVec 5) (s : State) : Result State :=
  word (.tsub w d a k) (fun s =>
    let c := s.me
    let head := c.get d
    let p := c.payloadAt a
    let cl := s.myCluster
    let cls := recClass head
    match recTrap head (p.getD 5 0) (p.getD 4 0) (p.getD 3 0) with
    | some t => s.trapWith t
    | none =>
      if cls = 3 && c.mode = .task then s.trap 0x02 (wordTval (.tsub w d a k))
      else if tsubBad head then s.trap 0x01 (wordTval (.tsub w d a k))
      else if recKind head = 4 && !(List.range 4).all (fun j => s.inRect (cl / 4 * 4 + j)) then s.trapWith (rectTrap head)
      else if (s.cluster cl).freeSlots cls = 0 || s.waitsInOverflow cl cls then s.trap 0x0C (Word.of cls)
      else
        let (j, s) := s.newId
        let s := s.setItem cl j { cls := cls, src := s.cur, mask := 15, r := mkRec head c.now p, st := .submitting, order := j, ctx := c.ctx }
        ((s.modMe fun q => { q with
          seq := q.seq + 1, held := q.held.set q.seq (q.holding (.submit j) k) }).kick s.cur).advance) s

/-- A submitted record is written into its slot once its release condition holds, and enters the dispatcher (R206,
R227). -/
def execTsubRecordWrite (core seq : Nat) (s : State) : Result State :=
  .next (
    let k := s.core core
    match k.held.find seq with
    | some { what := .submit j, bound := b, mask := m, fence := g } =>
      if !k.mayLeave b m g then s
      else
        let cl := core / 4
        let (o, s) := (s.setCore core { k with held := k.held.erase seq }).newId
        let s := match s.item cl j with
          | none => s
          | some m => (s.setItem cl j { m with st := .pending, order := o }).post (.taskEntry cl)
        s.kick core
    | _ => s)

/-- The position of a key that a task still holds (R228). -/
def Core.keyAt (k : Core) (key : BitVec 16) : Option Nat :=
  (List.range 4).find? fun i => k.keys.getLsbD i && k.keyList[i]? = some key

/-- krel: the key's bit clears at once, in every member of a gang, and its release waits (R228). -/
def execKrel (w : Bool) (a : BitVec 5) (s : State) : Result State :=
  word (.krel w a) (fun s =>
    let c := s.me
    let v := c.get a
    let key := BitVec.ofNat 16 v.toNat
    match (if v.fld 63 16 != 0 then none else c.keyAt key) with
    | none => s.trap 0x0B v
    | some i =>
      let off := fun (q : Core) => { q with keys := q.keys &&& ~~~(BitVec.ofNat 4 (2 ^ i)) }
      let s := if c.gang = 0 then s.modMe off else (s.members c).foldl (fun s m => s.modCore m off) s
      ((s.modMe fun q => { q with
        seq := q.seq + 1, held := q.held.set q.seq (q.holding (.key key) 31) }).kick s.cur).advance) s

/-- The release of a `krel` goes to the key's home (R228); with a task's last one its tag is free (R428). -/
def execKrelSent (core seq : Nat) (s : State) : Result State :=
  .next (
    let k := s.core core
    match k.held.find seq with
    | some { what := .key key, bound := b, mask := m, fence := g } =>
      if !k.mayLeave b m g then s
      else (((s.setCore core { k with held := k.held.erase seq }).sendKrel k.ctx k.entryCluster k.entryTag key).post
        (.taskEntry k.entryCluster)).kick core
    | _ => s)

/-- The key a query asks about. -/
def Query.asked (q : Query) : BitVec 16 := match q.what with
  | .kquery key => key
  | _ => 0

/-- kheld: a KQUERY to the key's home, which carries the entry of the core's task (R226, R229, R428). -/
def execKheld (w : Bool) (d a : BitVec 5) (s : State) : Result State :=
  word (.kheld w d a) (fun s =>
    let c := s.me
    let v := c.get a
    if v.fld 63 16 != 0 || v.fld 15 0 = 0xFFFF then s.trap 0x0B v
    else
      let q : Query := { core := s.cur, seq := c.seq, what := .kquery (BitVec.ofNat 16 v.toNat), d := d, ctx := c.ctx }
      let s := { s with queries := s.queries ++ [q] }
      ((s.modMe fun q => { q with
        seq := q.seq + 1, outs := q.outs.set q.seq { iaddr := q.pc, dest := .reg d 8 false } }).inject (s.cur / 4)
          [deskFlit (flitToSlice s.cur (s.deskOf c.ctx q.asked) 9) .kquery c.ctx c.entryCluster c.entryTag v.toNat 0 0
            (.kqueryAtDesk s.cur c.seq)]).advance) s

/-! ### Desks (R216 to R218, R226, R428) -/

/-- The key entry of a context's key at a desk. -/
def Slice.keyEntry (v : Slice) (x : Nat) (key : BitVec 16) : Option KeyEntry := v.keys.find? fun e => e.ctx = x && e.key = key

/-- A key entry written. -/
def Slice.putKey (v : Slice) (e : KeyEntry) : Slice :=
  { v with keys := v.keys.map fun o => if o.ctx = e.ctx && o.key = e.key then e else o }

/-- A key entry freed. -/
def Slice.dropKey (v : Slice) (e : KeyEntry) : Slice :=
  { v with keys := v.keys.filter fun o => !(o.ctx = e.ctx && o.key = e.key) }

/-- An answer of a desk or of a watch table, 4 cycles after it took the flit (R216, R226). -/
def State.deskAnswers (s : State) (sl x cl tag val : Nat) (o : DeskOp) (e : Event) : State :=
  s.injectIn (576 + sl) 4 [deskFlit (flitTo (0xA00 + sl) cl 9) o x cl tag val 0 0 e]

/-- Hold entries in use (R216). -/
def Slice.holds (v : Slice) : Nat := v.keys.foldl (fun n e => n + e.queue.length) 0

/-- A grant to the holder of an entry: sent, or parked while its context is frozen (R216, R378). -/
def State.grant (s : State) (slice : Nat) (e : KeyEntry) : State :=
  if s.mayStart e.ctx then s.deskAnswers slice e.ctx e.hcl e.htag e.key.toNat .kgrant (.kgrantArrival e.hcl e.htag e.key)
  else s.modSlice slice fun v => v.putKey { e with park := true }

/-- The holder of a key released it: the first requester in the queue is granted it, or the entry is freed (R216). -/
def State.passKey (s : State) (slice : Nat) (e : KeyEntry) : State :=
  match e.queue with
  | [] => s.modSlice slice fun v => v.dropKey e
  | (cl, tag) :: t =>
    let e := { e with hcl := cl, htag := tag, hrun := false, park := false, queue := t }
    (s.modSlice slice fun v => v.putKey e).grant slice e

/-- A key request at a desk (R216). -/
def execDeskKreq (slice ctx cluster tag : Nat) (key : BitVec 16) (s : State) : Result State :=
  .next (
    let v := s.slice slice
    let refuse := s.deskAnswers slice ctx cluster tag key.toNat .krefuse (.krefuseArrival cluster tag key)
    match v.keyEntry ctx key with
    | none =>
      if 4096 ≤ v.keys.length then refuse
      else
        let e : KeyEntry := { ctx := ctx, key := key, hcl := cluster, htag := tag }
        (s.modSlice slice fun v => { v with keys := v.keys ++ [e] }).grant slice e
    | some e =>
      if 512 ≤ v.holds then refuse
      else s.modSlice slice fun v => v.putKey { e with queue := e.queue ++ [(cluster, tag)] })

/-- A release at a desk; one that names no holder changes nothing (R216, R428). -/
def execDeskKrel (slice ctx cluster tag : Nat) (key : BitVec 16) (s : State) : Result State :=
  .next (match (s.slice slice).keyEntry ctx key with
    | none => s
    | some e => if e.hcl = cluster && e.htag = tag then s.passKey slice e else s)

/-- A hold withdrawn at a desk; a key already granted is released instead (R226, R231). -/
def execDeskKcancel (slice ctx cluster tag : Nat) (key : BitVec 16) (s : State) : Result State :=
  .next (match (s.slice slice).keyEntry ctx key with
    | none => s
    | some e =>
      if e.hcl = cluster && e.htag = tag then s.passKey slice e
      else s.modSlice slice fun v => v.putKey { e with queue := e.queue.filter (· != (cluster, tag)) })

/-- The holder of a key has started (R218, R226). -/
def execKrunAtDesk (slice ctx cluster tag : Nat) (key : BitVec 16) (s : State) : Result State :=
  .next (match (s.slice slice).keyEntry ctx key with
    | none => s
    | some e => if e.hcl = cluster && e.htag = tag then s.modSlice slice fun v => v.putKey { e with hrun := true } else s)

/-- The status word of a key for a core's task (R229). MINE compares the tag that the task was started under, also when R428 keeps that tag
for it no longer (DESIGN CHOICE, log 149). -/
def State.keyStatus (s : State) (core x : Nat) (key : BitVec 16) : Word :=
  let h := s.deskOf x key
  let k := s.core core
  match (s.slice h).keyEntry x key with
  | none => Word.of (h * 2 ^ 24 + 0x3FF * 2 ^ 12)
  | some e =>
    Word.of (h * 2 ^ 24 + (if e.park then 2 ^ 23 else 0) + (if e.hrun then 2 ^ 22 else 0) + e.hcl * 2 ^ 12 +
      e.queue.length * 4 + (if e.hcl = k.entryCluster && e.htag = k.entryTag then 2 else 0) + 1)

/-- A key query at its desk (R229). -/
def execKqueryAtDesk (core seq : Nat) (s : State) : Result State :=
  .next (match s.query core seq with
    | none => s
    | some q => match q.what, q.answer with
      | .kquery key, none =>
        let h := s.deskOf q.ctx key
        let v := s.keyStatus core q.ctx key
        let k := s.core core
        (s.answerQuery core seq v 0 0).injectIn (576 + h) 4
          [deskFlit (flitTo (0xA00 + h) (core / 4) 9) .kstat q.ctx k.entryCluster k.entryTag key.toNat 0 v (.kstatArrival core seq)]
      | _, _ => s)

/-- The answer of a key query reaches its core (R229). -/
def execKstatArrival (core seq : Nat) (s : State) : Result State :=
  .next (match s.query core seq with
    | none => s
    | some q => match q.what, q.answer with
      | .kquery _, some v => s.closeQuery q v
      | _, _ => s)

/-! ### Grants and refusals at the dispatcher (R215, R217, R231) -/

/-- A grant reaches a dispatcher: the next key is requested, or the conditions are registered; one that no entry
awaits is answered by a release (R215, R231). -/
def execKgrantArrival (cluster tag : Nat) (key : BitVec 16) (s : State) : Result State :=
  .next (
    let x := (s.cluster cluster).ctx.getD 0
    let refuse := s.sendKrel x cluster tag key
    match s.backed cluster with
    | some x => s.toBacking x (.flit (.kgrantArrival cluster tag key))
    | none =>
      match (s.cluster cluster).entries.find tag with
      | none => refuse
      | some e =>
        if e.phase != .acq || (e.keys[e.granted]?) != some key then refuse
        else
          let s := if e.since.isNone then s.postIn (2 ^ 20) (.dwait cluster tag) else s
          let e := { e with granted := e.granted + 1, tries := 0, retryAt := none, since := some (e.since.getD s.cycle) }
          let s := s.setEntry cluster tag e
          match e.keys[e.granted]? with
          | some k => s.sendKreq e.ctx cluster tag k
          | none =>
            match s.item cluster e.item with
            | none => s
            | some m => s.registerConds cluster tag e m)

/-- A refused request is sent again after its backoff (R217). -/
def execKrefuseArrival (cluster tag : Nat) (key : BitVec 16) (s : State) : Result State :=
  .next (match (s.cluster cluster).entries.find tag with
    | none => s
    | some e =>
      if e.phase != .acq || (e.keys[e.granted]?) != some key then s
      else
        let d := 128 * 2 ^ min e.tries 4
        (s.setEntry cluster tag { e with tries := e.tries + 1, retryAt := some (s.cycle + d) }).postIn d (.keyRetry cluster tag))

/-- The refused request sent again, once its backoff is over; in a context that is not running it waits for the thaw (R217). -/
def execKeyRetry (cluster tag : Nat) (s : State) : Result State :=
  .next (match (s.cluster cluster).entries.find tag with
    | none => s
    | some e =>
      let due := match e.retryAt with
        | none => false
        | some t => t ≤ s.cycle
      if !due || e.phase != .acq || (s.backed cluster).isSome then s
      else match e.keys[e.granted]? with
        | none => s
        | some k => (s.setEntry cluster tag { e with retryAt := none }).sendKreq e.ctx cluster tag k)

/-! ### Conditions (R221 to R223) -/

/-- A condition registered or polled at its slice (R222): met, watched, refused; a poll that obtains a watch ends the polling
(R223); a poisoned counter abandons the task (R221, R261). While the slice's window changes it waits (R254). -/
def execWregAtSlice (cluster tag cond : Nat) (s : State) : Result State :=
  .next (match (s.cluster cluster).entries.find tag with
    | none => s
    | some e =>
      match s.item cluster e.item with
      | none => s
      | some m =>
        if e.phase != .cond || e.met.getLsbD cond then s
        else
          match e.watch[cond]?.getD none with
          | none => s
          | some pa =>
          let w := recCondWord m.r cond
          let t : BitVec 32 := BitVec.ofNat 32 (w.fld 47 16)
          let h := s.homeOf pa
          let answer := fun (s : State) (o : DeskOp) (ev : Event) => s.deskAnswers h e.ctx cluster tag (w.fld 15 0) o ev
          if s.slwinNew.has h then s.postIn 64 (.wregAtSlice cluster tag cond)
          else if s.poisoned pa 8 then s.abandon cluster tag 6 e
          else
            let s := s.correct pa 8 false
            if condHolds (s.readMem pa 8) t then answer s .wmet (.wmetArrival cluster tag cond)
            else if (s.slice h).watches.any fun w => w.ctx = e.ctx && w.cluster = cluster && w.tag = tag && w.cond = cond then s
            else if (s.slice h).watches.length < 64 then
              (s.modSlice h fun v => { v with
                watches := v.watches ++ [{ ctx := e.ctx, pa := pa, target := t, handle := BitVec.ofNat 16 (w.fld 15 0)
                                           cluster := cluster, tag := tag, cond := cond }] }).setEntry cluster tag
                { e with poll := e.poll &&& ~~~(BitVec.ofNat 2 (2 ^ cond)) }
            else answer s .wrefuse (.wrefuseArrival cluster tag cond))

/-- A condition found to hold is latched; the last makes the task READY (R222). -/
def execWmetArrival (cluster tag cond : Nat) (s : State) : Result State :=
  .next (match s.backed cluster with
    | some x => s.toBacking x (.flit (.wmetArrival cluster tag cond))
    | none =>
      match (s.cluster cluster).entries.find tag with
      | none => s
      | some e =>
        match s.item cluster e.item with
        | none => s
        | some m =>
          if e.phase != .cond then s
          else
            let bit := BitVec.ofNat 2 (2 ^ cond)
            let e := { e with met := e.met ||| bit, poll := e.poll &&& ~~~bit }
            if (List.range (recCond m.r[0])).all fun j => e.met.getLsbD j then s.makeReady cluster tag e
            else s.setEntry cluster tag e)

/-- A refused condition is polled every 512 cycles (R223). -/
def execWrefuseArrival (cluster tag cond : Nat) (s : State) : Result State :=
  .next (match s.backed cluster with
    | some x => s.toBacking x (.flit (.wrefuseArrival cluster tag cond))
    | none =>
      match (s.cluster cluster).entries.find tag with
      | none => s
      | some e =>
        if e.phase != .cond then s
        else (s.setEntry cluster tag { e with poll := e.poll ||| BitVec.ofNat 2 (2 ^ cond) }).postIn 512 (.watchPoll cluster tag cond))

/-- The poll (R223). -/
def execWatchPoll (cluster tag cond : Nat) (s : State) : Result State :=
  .next (match (s.cluster cluster).entries.find tag with
    | none => s
    | some e => match s.item cluster e.item with
      | none => s
      | some m => if e.phase = .cond && e.poll.getLsbD cond && (s.backed cluster).isNone then s.sendWreg cluster tag cond e m else s)

/-- A watch freed at its slice (R226, R231): of the context whose cluster it is, since a frozen one's may stand there too. -/
def execWcancelAtSlice (slice cluster tag cond : Nat) (s : State) : Result State :=
  .next (s.modSlice slice fun v => { v with watches := v.watches.filter fun w =>
    !(some w.ctx = (s.cluster cluster).ctx && w.cluster = cluster && w.tag = tag && w.cond = cond) })

/-- Four 16-bit values in one word, unused ones 0xFFFF. -/
def pack16 (l : List Nat) : Word := Word.of ((List.range 4).foldl (fun n i => n + (l[i]?.getD 0xFFFF) % 65536 * 2 ^ (16 * i)) 0)

/-- A task that has held keys for 2^20 cycles in ACQ or COND is noted once (R223, R363). -/
def execDwait (cluster tag : Nat) (s : State) : Result State :=
  .next (match (s.cluster cluster).entries.find tag with
    | none => s
    | some e =>
      match e.since, s.item cluster e.item with
      | some t, some m =>
        if e.noted || s.cycle < t + 2 ^ 20 || !(e.phase = .acq || e.phase = .cond) then s
        else
          let hs := (List.range (recCond m.r[0])).map fun j =>
            if e.phase = .cond && !e.met.getLsbD j then (recCondWord m.r j).fld 15 0 else 0xFFFF
          (s.setEntry cluster tag { e with noted := true }).note (routerOfCluster cluster) e.ctx 7 (Word.of (cluster * 64 + tag))
            (pack16 ((e.keys.take e.granted).map BitVec.toNat)) (pack16 hs)
      | _, _ => s)

end Sys2Proof.Machine
end

