-- ==== Sys2Proof/Machine/Dispatcher.lean ====
section
/-! DEFINITION. The dispatcher's choice, gangs and the barrier units (R159, R209 to R211, R234 to R249). -/

namespace Sys2Proof.Machine

open Sys2Proof

/-! ### Choice (R159, R209 to R211, R237) -/

/-- The cycles that a task deferred since `t` has spent so: 16,384 at most, since from then on it waits for a core and no longer
for the level (R159, R210). -/
def deferredFor (cyc t : Nat) : Nat := min (cyc - t) 16384

/-- The deferral of bulk tasks brought up to date: since when, and how long in all (R159, R210). It is brought up to date at a dispatch only,
so that one that stands goes on over a freeze (DESIGN CHOICE, log 150). -/
def State.deferBulk (s : State) (cl : Nat) : State :=
  let high : Bool := 2 ≤ (s.router (routerOfCluster cl)).level
  (s.readyTasks cl).foldl (fun s (p : Nat × TEntry × Item) =>
    if !p.2.2.isBulk then s
    else match high, p.2.1.defAt with
      | true, none => (s.setEntry cl p.1 { p.2.1 with defAt := some s.cycle }).postIn 16384 (.bulkDeferExpiry cl p.1)
      | false, some t => s.setEntry cl p.1 { p.2.1 with defAt := none, defd := p.2.1.defd + deferredFor s.cycle t }
      | _, _ => s) s

/-- An entry whose deferral so far is counted (R210). -/
def TEntry.settled (e : TEntry) (cyc : Nat) : TEntry :=
  match e.defAt with
  | none => e
  | some t => { e with defd := e.defd + deferredFor cyc t }

/-- The tasks that may start on one of some free cores: READY, not deferred, and bound to one of them if bound. -/
def State.startable (s : State) (cl : Nat) (free : List Nat) : List (Nat × TEntry × Item) :=
  ((s.readyTasks cl).filter fun p => !s.deferredNow cl p.2.1 p.2.2 && (match p.2.2.core with
    | none => true
    | some c => free.contains c)).map fun p => (p.1, p.2.1.settled s.cycle, p.2.2)

/-- Free cores held for a quad gang; when all 16 are, it starts (R237). -/
def State.holdForQuad (s : State) (cl : Nat) : State :=
  let s := (coresOf cl).foldl (fun s c => if (s.core c).run = .free then s.modCore c fun k => { k with run := .held } else s) s
  if ((List.range 16).map (cl / 4 * 16 + ·)).all fun c => (s.core c).run = .held then s.post (.quadGangStart (cl / 4)) else s

/-- The dispatcher applies the order of R209 to its READY tasks and free cores. A GANG16 is chosen, and its quad hold asked for, only while a
core of its cluster is free (R237; DESIGN CHOICE, log 151). -/
def execDispatch (cluster : Nat) (s : State) : Result State :=
  .next (
    let x := (s.cluster cluster).ctx.getD 0
    if (s.cluster cluster).ctx.isNone || !s.mayStart x then s
    else
      let s := (s.unhold cluster).deferBulk cluster
      if (s.router (routerOfCluster cluster)).quadHeld then s.holdForQuad cluster
      else
        let free := (coresOf cluster).filter fun c => (s.core c).run = .free
        match free, firstTask s.cycle (s.cluster cluster).rr (s.startable cluster free) with
        | c :: _, some (tag, e, m) =>
          if recKind m.r[0] = 4 && !m.ev then
            (s.setEntry cluster tag { e with phase := .quad }).posts [.quadHoldRequest cluster tag, .dispatch cluster]
          else if recKind m.r[0] = 3 && !m.ev then
            if free.length = 4 then
              s.startTask cluster tag e m 1 cluster ((List.range 4).map fun i => (cluster * 4 + i, i))
            else
              free.foldl (fun s c => s.modCore c fun k => { k with run := .held })
                (s.modCluster cluster fun k => { k with gang4 := some tag })
          else (s.startTask cluster tag e m 0 0 [(m.core.getD c, 0)]).post (.dispatch cluster)
        | _, _ => s)

/-- A task has been READY for 16,384 cycles: the order changes (R210). -/
def execPriorityPromotion (cluster tag : Nat) (s : State) : Result State :=
  .next (match (s.cluster cluster).entries.find tag with
    | none => s
    | some _ => s.post (.dispatch cluster))

/-- A quad hold request at its router: granted when it is the first (R237). -/
def execQuadHoldRequest (cluster tag : Nat) (s : State) : Result State :=
  .next (match (s.cluster cluster).entries.find tag with
    | none => s
    | some e =>
      let r := routerOfCluster cluster
      if e.phase != .quad || (s.router r).holds.contains (cluster, tag) then s
      else (s.modRouter r fun x => { x with holds := x.holds ++ [(cluster, tag)], quadHeld := true }).posts
        ((List.range 4).map fun p => .dispatch (cluster / 4 * 4 + p)))

/-- All 16 cores of a quad are held: the members start in one step, and the next hold in order is granted (R237). -/
def execQuadGangStart (quad : Nat) (s : State) : Result State :=
  .next (
    let r := routerOfCompute quad
    let cores := (List.range 16).map (quad * 16 + ·)
    match (s.router r).holds with
    | [] => s
    | (cl, tag) :: t =>
      if !((s.router r).quadHeld && cores.all fun c => (s.core c).run = .held) then s
      else if !s.mayStart ((s.cluster cl).ctx.getD 0) then s
      else match (s.cluster cl).entries.find tag with
        | none => s
        | some e => match s.item cl e.item with
          | none => s
          | some m =>
            let s := s.modRouter r fun x => { x with holds := t, quadHeld := !t.isEmpty }
            s.startTask cl tag e m 2 (quad * 4) ((List.range 16).map fun i => (quad * 16 + i, i)))

/-! ### The barrier unit (R240, R241) -/

/-- FULL of a gang's shape (R240). -/
def Barrier.full (b : Barrier) : BitVec 16 := if b.shape = 2 then 0xFFFF else 0x000F

/-- The cycles between a core and its gang's barrier entry (R246). -/
def barrierWay (gang : BitVec 16) : Nat := if gang.toNat / 16 % 4 = 2 then 6 else 3

/-- One completed phase: every member of the gang that had arrived has one phase less to wait for, and is woken when it parks;
the core of a member that has ended may run another task by now, which is left alone (R241, R246). -/
def State.completePhase (s : State) (gang : BitVec 16) (b : Barrier) : State :=
  ((List.range 16).filter fun i => b.arr.getLsbD i).foldl (fun s i =>
    let c := gang.toNat / 64 * 4 + i
    if (s.core c).gang.toNat / 16 != gang.toNat / 16 then s
    else
      let s := s.modCore c fun k => { k with pend := k.pend - 1 }
      match (s.core c).run with
      | .parked _ => if (s.core c).pend = 0 then s.postIn (1 + barrierWay gang) (.barrierWake c) else s
      | _ => s) s

/-- The loop of R241, at most `n` phases. -/
def State.settleBarrier (s : State) (gang : BitVec 16) (b : Barrier) : Nat → Barrier × State
  | 0 => (b, s)
  | n + 1 =>
    if b.arr ||| b.exit = b.full && b.exit != b.full then
      (s.completePhase gang b).settleBarrier gang { b with ph := !b.ph, nph := b.nph + 1, arr := b.nxt, nxt := 0 } n
    else (b, s)

/-- The member's bit in the masks. -/
def memberBit (gang : BitVec 16) : BitVec 16 := BitVec.ofNat 16 (2 ^ (gang.toNat % 16))

/-- An arrival at the entry: the oldest of the core's that are under way, of the gang that it was sent for (R241); an end of the
task that waited for it to be counted goes on. -/
def execBarrierArrival (core : Nat) (s : State) : Result State :=
  .next (match (s.core core).arrivals with
    | [] => s
    | g :: t =>
      let s := s.modCore core fun k => { k with arrivals := t }
      let b := s.barrierOf g
      let s := if !b.v then s
        else
          let m := memberBit g
          let b := if b.arr &&& m = 0 then { b with arr := b.arr ||| m } else { b with nxt := b.nxt ||| m }
          let r := s.settleBarrier g b 3
          r.2.setBarrier g r.1
      match (s.core core).run with
      | .exiting => if t.isEmpty then s.post (.barrierExit core) else s
      | _ => s)

/-- A member that has ended, its arrivals counted before: it counts as arrived from now on; the last one releases the gang's keys, frees the entry
and ends the task of the timeline (R239, R241, R249). -/
def execBarrierExit (core : Nat) (s : State) : Result State :=
  .next (
    let k := s.core core
    match k.run with
    | .exiting =>
      if k.gang = 0 || !k.arrivals.isEmpty then s
      else
        let b := s.barrierOf k.gang
        let r := s.settleBarrier k.gang { b with exit := b.exit ||| memberBit k.gang } 3
        if r.1.exit = r.1.full then
          (((r.2.releaseKeys k).setBarrier k.gang {}).freeCore core).timelineEnds k.tl
        else
          let s := (r.2.setBarrier k.gang r.1).freeCore core
          if k.tl = 0xFFFF then s else s.refloor (k.tl.toNat % 1024) (k.tl.toNat / 1024 % 16)
    | _ => s)

/-- A parked member whose phases are complete goes on (R244). -/
def execBarrierWake (core : Nat) (s : State) : Result State :=
  .next (
    let k := s.core core
    match k.run with
    | .parked n =>
      if k.pend != 0 then s
      else
        let b := s.barrierOf k.gang
        (s.setBarrier k.gang { b with wt := b.wt &&& ~~~(memberBit k.gang) }).setCore core
          { k with run := .running, pc := n, arrived := none, ready := s.cycle + 1 }
    | _ => s)

/-! ### Barrier words (R242 to R245) -/

/-- The arrival of a member: PEND, and the arrival held until its release condition for a mask (R243). -/
def State.arrive (s : State) (m : BitVec 5) : State :=
  (s.modMe fun q => { q with
    pend := q.pend + 1, seq := q.seq + 1, held := q.held.set q.seq (q.holding .arrival m) }).kick s.cur

/-- The wait of `barw`: past every outstanding result, then parked until PEND is 0 (R244). -/
def State.barWait (s : State) : State :=
  s.waited fun s =>
    let k := s.me
    if k.pend = 0 then (s.modMe fun q => { q with arrived := none }).advance
    else
      let b := s.barrierOf k.gang
      (s.setBarrier k.gang { b with wt := b.wt ||| memberBit k.gang }).modMe fun q => { q with run := .parked (q.pc + 4) }

/-- bara (R243). -/
def execBara (w : Bool) (k : BitVec 5) (s : State) : Result State :=
  word (.bara w k) (fun s =>
    if s.me.gang = 0 then s.trap 0x0F 0
    else if 2 ≤ s.me.pend then s.stall
    else (s.arrive k).advance) s

/-- barw (R244). -/
def execBarw (w : Bool) (s : State) : Result State :=
  word (.barw w) (fun s => if s.me.gang = 0 then s.trap 0x0F 0 else s.barWait) s

/-- bar: `bara` followed by `barw` in one word; the word that waits after its arrival does not arrive again (R243,
R244). -/
def execBar (w : Bool) (k : BitVec 5) (s : State) : Result State :=
  word (.bar w k) (fun s =>
    if s.me.gang = 0 then s.trap 0x0F 0
    else if s.me.arrived = some s.me.pc then s.barWait
    else if 2 ≤ s.me.pend then s.stall
    else ((s.arrive k).modMe fun q => { q with arrived := some q.pc }).barWait) s

/-- The arrival of a `bara` or `bar` leaves its core once its release condition holds, behind those of the core issued before it (R241,
R243). -/
def execBarArrivalSent (core seq : Nat) (s : State) : Result State :=
  .next (
    let k := s.core core
    match k.held.find seq with
    | some { what := .arrival, bound := b, mask := m, fence := g } =>
      if !k.mayLeave b m g || k.held.any (fun p => p.1 < seq && p.2.what = .arrival) then s
      else ((s.setCore core { k with held := k.held.erase seq, arrivals := k.arrivals ++ [k.gang] }).postIn (barrierWay k.gang)
        (.barrierArrival core)).kick core
    | _ => s)

end Sys2Proof.Machine
end

