-- ==== Sys2Proof/Machine/Fpu.lean ====
section
/-! DEFINITION. Scalar floating point (R97 to R102): operands read and results written as R60 and R62 lay down, one
rounding under `frm`, flags and FPE as R77 and R102. -/

namespace Sys2Proof.Machine

open Sys2Proof

/-- A word of the FPU family on two operands: a pattern and flags from the format, the mode and two patterns. -/
def fpu3 (i : Instr) (d a b : BitVec 5) (y : BitVec 4) (f : Fmt → BitVec 3 → Nat → Nat → Nat × Flags) (s : State) :
    Result State :=
  word i (fun s =>
    let r := f (fmtD y.toNat) s.me.frm (s.me.get a).toNat (s.me.get b).toNat
    s.fpResult d (Word.of r.1) r.2) s

/-- fadd: round(A + B) (R97). -/
def execFadd (w : Bool) (d a b : BitVec 5) (y : BitVec 4) (s : State) : Result State :=
  fpu3 (.fadd w d a b y) d a b y (fun f rm A B => f.add rm A B) s

/-- fsub: round(A - B) (R97). -/
def execFsub (w : Bool) (d a b : BitVec 5) (y : BitVec 4) (s : State) : Result State :=
  fpu3 (.fsub w d a b y) d a b y (fun f rm A B => f.sub rm A B) s

/-- fmul: round(A times B) (R97). -/
def execFmul (w : Bool) (d a b : BitVec 5) (y : BitVec 4) (s : State) : Result State :=
  fpu3 (.fmul w d a b y) d a b y (fun f rm A B => f.mul rm A B) s

/-- fmin: the lesser, never rounded, no flag (R98). -/
def execFmin (w : Bool) (d a b : BitVec 5) (y : BitVec 4) (s : State) : Result State :=
  fpu3 (.fmin w d a b y) d a b y (fun f _ A B => (f.minMax false A B, 0)) s

/-- fmax: the greater, never rounded, no flag (R98). -/
def execFmax (w : Bool) (d a b : BitVec 5) (y : BitVec 4) (s : State) : Result State :=
  fpu3 (.fmax w d a b y) d a b y (fun f _ A B => (f.minMax true A B, 0)) s

/-- fdiv: round(A / B) (R97). -/
def execFdiv (w : Bool) (d a b : BitVec 5) (y : BitVec 4) (s : State) : Result State :=
  fpu3 (.fdiv w d a b y) d a b y (fun f rm A B => f.div rm A B) s

/-- fsqrt: round(sqrt A) (R97). -/
def execFsqrt (w : Bool) (d a : BitVec 5) (y : BitVec 4) (s : State) : Result State :=
  word (.fsqrt w d a y) (fun s =>
    let r := (fmtD y.toNat).sqrt s.me.frm (s.me.get a).toNat
    s.fpResult d (Word.of r.1) r.2) s

/-- fcmpLt: 1 if A < B; a NaN gives 0 with NV (R97). -/
def execFcmpLt (w : Bool) (d a b : BitVec 5) (y : BitVec 4) (s : State) : Result State :=
  fpu3 (.fcmpLt w d a b y) d a b y (fun f _ A B => ((f.cmp 0 A B).1.toNat, (f.cmp 0 A B).2)) s

/-- fcmpLe: 1 if A <= B; a NaN gives 0 with NV (R97). -/
def execFcmpLe (w : Bool) (d a b : BitVec 5) (y : BitVec 4) (s : State) : Result State :=
  fpu3 (.fcmpLe w d a b y) d a b y (fun f _ A B => ((f.cmp 1 A B).1.toNat, (f.cmp 1 A B).2)) s

/-- fcmpEq: 1 if A = B; a NaN gives 0, no flag (R97). -/
def execFcmpEq (w : Bool) (d a b : BitVec 5) (y : BitVec 4) (s : State) : Result State :=
  fpu3 (.fcmpEq w d a b y) d a b y (fun f _ A B => ((f.cmp 2 A B).1.toNat, (f.cmp 2 A B).2)) s

/-- fclass: one bit set among [8:0] (R99). -/
def execFclass (w : Bool) (d a : BitVec 5) (y : BitVec 4) (s : State) : Result State :=
  word (.fclass w d a y) (fun s =>
    s.fpResult d (Word.of (2 ^ (fmtD y.toNat).classBit (s.me.get a).toNat)) 0) s

/-- fma: round(A times B + C), one rounding (R100). -/
def execFma (w : Bool) (d a b c : BitVec 5) (y : BitVec 4) (s : State) : Result State :=
  word (.fma w d a b c y) (fun s =>
    let r := (fmtD y.toNat).fma s.me.frm (s.me.get a).toNat (s.me.get b).toNat (s.me.get c).toNat
    s.fpResult d (Word.of r.1) r.2) s

/-- fcvt: from type `f` to type `t`, signed integer sides read as unsigned when `u` is 1 (R101). -/
def execFcvt (w : Bool) (d a : BitVec 5) (u : BitVec 1) (f t : BitVec 4) (s : State) : Result State :=
  word (.fcvt w d a u f t) (fun s =>
    let uns := u = 1
    let r := tyConvert t.toNat uns s.me.frm (tyVal f.toNat uns (s.me.get a).toNat)
    s.fpResult d (tyExtend t.toNat uns r.1) r.2) s

end Sys2Proof.Machine
end

