-- ==== Sys2Proof/Machine/Csr.lean ====
section
/-! DEFINITION. The control and status registers (R77, R89 to R91, R255, R300, R364 to R367, R411) and the words that
read and write them. -/

namespace Sys2Proof.Machine

open Sys2Proof

/-- `status` (R367). -/
def Core.status (k : Core) : Word :=
  Word.of (k.fpen.toNat * 2 ^ 8 + (if k.mode = .task then 0 else 8) + (if k.intrap then 4 else 0) + k.pmode.toNat)

/-- `dsstat` of a slice (R255). -/
def Slice.dsstat (v : Slice) : Word := Word.of (min (v.lines.filter HoldLine.holds).length 255 + v.spills.toNat * 2 ^ 8)

/-- A machine register read (R255, R411); none for a number that is no machine register. -/
def State.machineRead (s : State) (n : Nat) : Option Word :=
  let r := s.router s.nlsel
  let l := s.links.get s.lnksel {}
  match n with
  | 0x240 => some (Word.of s.slsel)
  | 0x241 => some (if s.slsel < 96 then Word.of (s.slice s.slsel).win else 0)
  | 0x242 => some (Word.of s.slcols.toNat)
  | 0x243 => some (if s.slbusy then 1 else 0)
  | 0x244 => some (if s.slsel < 96 then (s.slice s.slsel).dsstat else 0)
  | 0x250 => some (Word.of s.nlsel)
  | 0x251 => some (if s.nlsel < 192 then
      Word.of ((if s.frz then 1 else 0) + (if r.logWrap then 2 else 0) + r.logHead * 4) else 0)
  | 0x252 => some (Word.of s.nlidx)
  | 0x253 => some (if s.nlsel < 192 then
      ((r.log.get (s.nlidx % 4096) (Vector.replicate 4 0))[s.nlidx / 4096 % 4]?).getD 0 else 0)
  | 0x254 => some (Word.of s.lnksel)
  | 0x255 => some (Word.of (l.rate + (if l.down then 4 else 0) + (if l.retrain then 8 else 0) +
      (if s.cycle < l.winAt + 65536 then l.replays * 16 else 0)))
  | 0x256 => some (Word.of s.cnsel)
  | 0x257 => some (s.cnrect.get s.cnsel 0)
  | 0x258 => some (s.cnctl.get s.cnsel 0)
  | _ => none

/-- A register read by number (R89, R364, R411); none for a reserved number. -/
def State.csrRead (s : State) (n : Nat) : Option Word :=
  let k := s.me
  match n with
  | 0x000 => some k.now
  | 0x001 => some (Word.of k.tl.toNat)
  | 0x002 => some (Word.of s.cur)
  | 0x003 => some (Word.of k.ctx)
  | 0x004 => some (Word.of k.src.toNat)
  | 0x005 => some (Word.of k.chan.toNat)
  | 0x006 => some (Word.of k.gang.toNat)
  | 0x007 => some (Word.of k.issuer.toNat)
  | 0x008 => some (Word.of k.fflags.toNat)
  | 0x009 => some (Word.of k.frm.toNat)
  | 0x00A => some k.ctrbase
  | 0x00B => some (Word.of (8 - k.sendQ.length))
  | 0x00C => some (Word.of (s.router (routerOfSrc s.cur)).level)
  | 0x00D => some (s.budgetOf k)
  | 0x00E => some (Word.of k.keys.toNat)
  | 0x010 => some (((s.router (routerOfSrc s.cur)).surv.get k.ctx {}).mer)
  | 0x020 => some k.nparam0
  | 0x021 => some k.nparam1
  | 0x022 => some k.nparam2
  | 0x023 => some k.nparam3
  | 0x024 => some k.spk
  | 0x100 => some k.cause
  | 0x101 => some k.epc
  | 0x102 => some k.tval
  | 0x103 => some k.tinfo
  | 0x104 => some (s.ctx k.ctx).tvec
  | 0x105 => some k.status
  | 0x106 => some k.scratch
  | 0x107 => some k.tinfoh
  | n => s.machineRead n

/-- Whether a register takes writes in a mode (R89, R90, R364, R411). -/
def csrWritable (n : Nat) (m : Mode) : Bool :=
  match n with
  | 0x008 => true | 0x009 => true | 0x020 => true | 0x021 => true | 0x022 => true | 0x023 => true | 0x024 => true
  | 0x00A => m != .task
  | 0x243 => false | 0x244 => false | 0x253 => false
  | n => 0x100 ≤ n

/-- The bits a register's layout shows as zero, which a write may not set (R91); the registers of R411 ignore
such writes instead. -/
def csrZero (n : Nat) : Word :=
  match n with
  | 0x008 => 0xFFFFFFFFFFFFFFC0
  | 0x009 => 0xFFFFFFFFFFFFFFF8
  | 0x00A => 7
  | 0x021 => 0xFFFFFF0000000000
  | 0x022 => 0xFFFFFFFF00000000
  | 0x023 => 0xFFFFFFFF00000000
  | 0x024 => 0xFFFFFFFF00000000
  | 0x100 => 0xFFFFFFFFFFFFFC00
  | 0x103 => 1
  | 0x104 => 0xFFFF000000000003
  | 0x105 => 0xFFFFFFFFFFFFC0F0
  | 0x107 => 0xFFFFFFFFFFC00C00
  | 0x240 => 0xFFFFFFFFFFFFFF80
  | 0x241 => 0xFFFFFFFFFFFFFFFC
  | 0x242 => 0xFFFFFFFFFFFFFFF0
  | _ => 0

/-- A register written (R91). -/
def State.csrWrite (s : State) (n : Nat) (v : Word) : State :=
  match n with
  | 0x008 => s.modMe fun k => { k with fflags := v.setWidth 6 }
  | 0x009 => s.modMe fun k => { k with frm := v.setWidth 3 }
  | 0x00A => s.modMe fun k => { k with ctrbase := v }
  | 0x020 => s.modMe fun k => { k with nparam0 := v }
  | 0x021 => s.modMe fun k => { k with nparam1 := v }
  | 0x022 => s.modMe fun k => { k with nparam2 := v }
  | 0x023 => s.modMe fun k => { k with nparam3 := v }
  | 0x024 => s.modMe fun k => { k with spk := v }
  | 0x100 => s.modMe fun k => { k with cause := v }
  | 0x101 => s.modMe fun k => { k with epc := v }
  | 0x102 => s.modMe fun k => { k with tval := v }
  | 0x103 => s.modMe fun k => { k with tinfo := v }
  | 0x104 => s.modCtx s.me.ctx fun x => { x with tvec := v }
  | 0x105 => s.modMe fun k => { k with fpen := BitVec.ofNat 6 (v.fld 13 8), pmode := BitVec.ofNat 2 (v.fld 1 0) }
  | 0x106 => s.modMe fun k => { k with scratch := v }
  | 0x107 => s.modMe fun k => { k with tinfoh := v }
  | 0x241 => s.post (.slwinWrite v)
  | 0x242 => s.post (.slcolsWrite v)
  | 0x251 => s.post (.nlctlWrite v)
  | 0x255 => s.post (.lnkstWrite v)
  | 0x257 => s.post (.cnrectWrite v)
  | 0x258 => if 8 ≤ v.toNat then s
    else if v.fld 1 1 = 1 then s.posts [.cnctlFence s.cnsel (v.fld 0 0 = 1), .cnctlReset s.cnsel]
      else s.post (.cnctlFence s.cnsel (v.fld 0 0 = 1))
  | n => s.post (.registerWrite (.csr (BitVec.ofNat 12 n)) v)

/-- The registers whose access waits for every outstanding result (R78, R301). -/
def csrWaits (n : Nat) : Bool := n = 0x008 || n = 0x009 || n = 0x023 || n = 0x024

/-- Whether a mode may not access a number at all: machine registers, and supervisor registers in task mode (R90, R361). -/
def csrPriv (n : Nat) (m : Mode) : Bool := (0x200 ≤ n && m != .firmware) || (0x100 ≤ n && m = .task)

/-- One of the four words (R90, R91): `new` gives the value written from the old one, none where nothing is
written. -/
def csrWord (i : Instr) (d : BitVec 5) (c : BitVec 12) (new : Core → Word → Option Word) (s : State) : Result State :=
  word i (fun s =>
    let n := c.toNat
    let m := s.me.mode
    match s.csrRead n with
    | none =>
      -- a reserved number: user range ILLEGAL, above it PRIV for a mode that may not use the range (R90, R361)
      if csrPriv n m then s.trap 0x02 (wordTval i)
      else s.trap 0x01 (wordTval i)
    | some old =>
      if csrPriv n m then s.trap 0x02 (wordTval i)
      else
        let body := fun (s : State) =>
          match new s.me old with
          | none => s.result d old
          | some v =>
            if !csrWritable n m then s.trap 0x01 (wordTval i)
            else if v &&& csrZero n != 0 then s.trap 0x01 (wordTval i)
            else if n = 0x105 && 2 ≤ v.fld 1 0 then s.trap 0x01 (wordTval i)
            else ((s.csrWrite n v).modMe fun k => k.clean (n + 32)).result d old
        if csrWaits n then s.waited fun s => body s else body s) s

/-- The register that a word names, if it is one of the four. -/
def csrNamed : Instr → Option (BitVec 12)
  | .csrr _ _ c => some c
  | .csrw _ _ _ c => some c
  | .csrs _ _ _ c => some c
  | .csrc _ _ _ c => some c
  | _ => none

/-- csrr (R91). -/
def execCsrr (w : Bool) (d : BitVec 5) (c : BitVec 12) (s : State) : Result State :=
  csrWord (.csrr w d c) d c (fun _ _ => none) s

/-- csrw (R91). -/
def execCsrw (w : Bool) (d a : BitVec 5) (c : BitVec 12) (s : State) : Result State :=
  csrWord (.csrw w d a c) d c (fun k _ => some (k.get a)) s

/-- csrs: no write with a = s0 (R90, R91). -/
def execCsrs (w : Bool) (d a : BitVec 5) (c : BitVec 12) (s : State) : Result State :=
  csrWord (.csrs w d a c) d c (fun k old => if a = 0 then none else some (old ||| k.get a)) s

/-- csrc: no write with a = s0 (R90, R91). -/
def execCsrc (w : Bool) (d a : BitVec 5) (c : BitVec 12) (s : State) : Result State :=
  csrWord (.csrc w d a c) d c (fun k old => if a = 0 then none else some (old &&& ~~~(k.get a))) s

end Sys2Proof.Machine
end

