-- ==== Sys2Proof/Machine/Control.lean ====
section
/-! DEFINITION. Ending and suspending tasks, traps and the return from one, the watchdog, words that decode to nothing
(R33, R86, R107 to R110, R224, R368 to R374). -/

namespace Sys2Proof.Machine

open Sys2Proof

/-! ### tend (R107, R108, R224, R249) -/

/-- tend: past every outstanding result, the deferred signal's counter is translated, and the task ends once its
waits are over; in a trap handler it ends the interrupted task, or kills its gang, and makes no signal. -/
def execTend (w : Bool) (a : BitVec 5) (n : BitVec 14) (s : State) : Result State :=
  wordWaits (.tend w a n) (fun s =>
    let k := s.me
    let hd := BitVec.ofNat 16 (k.get a).toNat
    if k.intrap then s.endTrapped s.cur (k.cause.fld 7 0)
    else if a = 0 || hd = 0xFFFF then (s.modMe fun q => { q with run := .ending none false }).kick s.cur
    else
      let ea := k.ctrbase + Word.of (8 * hd.toNat)
      s.access ea 1 .both fun pa _ s =>
        if !bankRegion pa false then s.trapWith (xlateTrap 5 8 0 ea)
        else if !(s.unpreservedBy k pa).isEmpty then s.stallOn [pa]
        else (s.modMe fun q => { q with run := .ending (some (pa, Word.of n.toNat)) false }).kick s.cur) s

/-- The deferred signal's addition; a poisoned counter takes none and is noted (R107, R261). -/
def State.signalEnd (s : State) (core x : Nat) (sig : Option (Nat × Word)) : State :=
  match sig with
  | none => s
  | some (pa, n) => match s.addCounter pa n with
    | (true, s) => s.mirror x (tick (s.core core).now) pa 8
    | (false, s) => s.note (s.homeUnit pa).1 x 9 (Word.of pa) (Word.of core) 0

/-- Whether the deferred signal waits for a slice that changes its window (R254). -/
def State.signalWaits (s : State) (sig : Option (Nat × Word)) : Bool := match sig with
  | none => false
  | some (pa, _) => s.switching pa

/-- A task whose waits are over ends: its keys are released, its signal is made, its core is freed; a gang member
goes to the barrier entry instead of releasing the keys, and from its signal on nothing traps it (R87, R107, R239). -/
def execTendComplete (core : Nat) (s : State) : Result State :=
  .next (
    let k := s.core core
    match k.run with
    | .ending sig _ =>
      if !k.quiet then s
      else if s.signalWaits sig then s.postIn 64 (.tendComplete core)
      else if k.gang = 0 then
        (((s.releaseKeys k).signalEnd core k.ctx sig).freeCore core).timelineEnds k.tl
      else
        ((s.signalEnd core k.ctx sig).modCore core fun q => { q with run := .exiting }).post (.barrierExit core)
    | _ => s)

/-! ### yield (R109, R110) -/

/-- Whether a core fetches from an INLINE record's slot at an address (R213). -/
def Core.inSlot (k : Core) (pc : Word) : Option (Nat × Nat) :=
  match k.inline with
  | none => none
  | some (b, i) => if (pc - b).toNat < 48 then some (i, (pc - b).toNat) else none

/-- The keys still held, in ascending order. -/
def heldWord (l : List (BitVec 16)) : Word := pack16 (l.map BitVec.toNat)

/-- The record of a continuation (R109): kind, class, priority, number of keys, handler; stamp; s10 to s15, with the
keys in p5 when there are any. In a trap handler the handler address is `epc` (R110), of which the record takes bits [47:0]; R47 names no
fate for a misaligned one, with which the continuation starts (DESIGN CHOICE, log 129). -/
def continuation (k : Core) (handler st : Word) : Rec :=
  let keys := k.heldKeys
  let w0 := recHandler handler ||| Word.of (recClass k.head * 2 ^ 52 + keys.length * 2 ^ 54 + recPri k.head * 2 ^ 57)
  #v[w0, st, k.getN 10, k.getN 11, k.getN 12, k.getN 13, k.getN 14, if keys.isEmpty then k.getN 15 else heldWord keys]

/-- yield (R109, R110, R200). A continuation below the running term traps (R200), but for a running term of ⟨END.0⟩, after which R201 leaves
`yield` open under R109 (DEDUCED, log 27). The STEP of that trap stands in no pseudocode of `yield`: the model gives 3 (DESIGN CHOICE,
log 27). -/
def execYield (w : Bool) (n : BitVec 14) (s : State) : Result State :=
  wordWaits (.yield w n) (fun s =>
    let k := s.me
    let v := Word.of n.toNat
    if k.gang != 0 || (k.inSlot k.pc).isSome then s.trap 0x01 (wordTval (.yield w n))
    else if n = 0 && stepOf k.now = 65535 then s.trapChan v 1
    else if n != 0 && END ≤ tick k.now + n.toNat then s.trapChan v 2
    else
      let st := if n = 0 then k.now + 1 else Word.of ((tick k.now + n.toNat) * 65536)
      if st.toNat < k.term.toNat && k.term != atTick END then s.trapChan v 3
      else
        let r := continuation k (if k.intrap then k.epc else k.pc + 4) st
        (s.modMe fun q => { q with run := .yielding r (k.tl != 0xFFFF) }).kick s.cur) s

/-! ### Traps (R368 to R374) -/

/-- trap: TRAPI at its own word (R373). -/
def execTrap (w : Bool) (n : BitVec 14) (s : State) : Result State :=
  word (.trap w n) (fun s => s.trap 0x10 (Word.of n.toNat)) s

/-- sysc: TRAPI after its own word (R373). -/
def execSysc (w : Bool) (n : BitVec 14) (s : State) : Result State :=
  word (.sysc w n) (fun s => s.trapWith { code := 0x10, pc := 0, tval := Word.of n.toNat, sc := true }) s

/-- eret (R374). -/
def execEret (w : Bool) (s : State) : Result State :=
  word (.eret w) (fun s =>
    if !s.me.intrap then s.trap 0x01 (wordTval (.eret w))
    else s.waited fun s => s.returnTrap s.cur) s

/-- A word that is no instruction traps ILLEGAL with the word as `tval` (R33). -/
def execIllegalWord (x : BitVec 32) (s : State) : Result State := .next (s.trap 0x01 (x.setWidth 64))

/-- A trap that waited for outstanding results is taken (R368). -/
def execTrapEntry (core : Nat) (s : State) : Result State :=
  .next (
    let k := s.core core
    match k.run with
    | .trapping t => if k.waiting then s else (s.modCore core fun q => { q with run := .running }).enterTrap core t
    | _ => s)

/-- The budget of a task is used up: WATCHDOG before its next word, or at the word at which it is parked, stalled or
waits to end (R372); not once the end or suspension has begun to take effect (R87, R111). -/
def execWatchdog (core : Nat) (s : State) : Result State :=
  .next (
    let k := s.core core
    let bark := (s.modCore core fun q => { q with run := .running }).takeTrap core
      { code := 0x0E, pc := k.pc, tval := Word.of (s.ctx k.ctx).wdog }
    if !k.wdogOn || s.budgetOf k != 0 then s
    else match k.run with
      | .running => bark
      | .parked _ => bark
      | .flushing _ => bark
      | .ending _ false => bark
      | .yielding _ _ => bark
      | .ending _ true => s
      | .exiting => s
      | .leaving _ _ => s
      | .trapping _ => s
      | .free => s
      | .held => s
      | .stopped => s)

/-- Whether a word passes the checks of decoding, and so reaches the checker: no ILLEGAL or PRIV of R35 (R84, R86, R90). -/
def State.passesDecode (s : State) (i : Instr) : Bool :=
  i.wf && (needs i).level ≤ s.me.mode.level && (match csrNamed i with
    | none => true
    | some c => (s.csrRead c.toNat).isSome && !csrPriv c.toNat s.me.mode)

/-- A checker mismatch at a word that has executed and of which nothing is committed (R86). The first time it is executed once more, after
its own interval `n` and 2 cycles (R85), and where no mismatch is to come that retry is logged as one that matched; the second time the
core takes CHECK, which is logged (R409). -/
def State.mismatch (s : State) (x : BitVec 32) (n : Nat) : State :=
  let k := s.me
  let log := fun (s : State) (kind : Nat) => s.logAt (routerOfSrc s.cur) kind s.cur 0 k.ctx k.pc (x.setWidth 64)
  let s := s.modMe fun q => { q with upset := q.upset - 1, retry := !k.retry && k.upset != 1 }
  if k.retry then (log s 4).trap 0x11 (x.setWidth 64)
  else
    let s := s.modMe fun q => { q with ready := s.cycle + n + 2 }
    if k.upset = 1 then log s 3 else s

/-- A register or CSR with an uncorrectable error that a word would read: a precise CHECK at that word, which has no effect (R403,
R409); none where the word reads none. -/
def State.checkRegs (s : State) (i : Instr) (x : BitVec 32) : Option State :=
  let k := s.me
  if k.badRegs.any (readsState i) then
    some ((s.logAt (routerOfSrc s.cur) 4 s.cur 0 k.ctx k.pc (x.setWidth 64)).trap 0x11 (x.setWidth 64))
  else none

/-- The single-bit errors of the registers that a word reads corrected and logged (R403, R409). -/
def State.correctRegs (s : State) (i : Instr) : State :=
  let hit := s.me.softRegs.filter (readsState i)
  if hit.isEmpty then s
  else hit.foldl (fun s n =>
    let (syn, s) := s.draw
    s.logAt (routerOfSrc s.cur) 1 s.cur 0 s.me.ctx (Word.of n) syn)
    (s.modMe fun k => { k with softRegs := k.softRegs.filter fun n => !readsState i n })

end Sys2Proof.Machine
end

