-- ==== Sys2Proof/Machine/Tiles.lean ====
section
/-! DEFINITION. Tile memory words (R135 to R139, R303): the formats of tile and page, the scale groups of a row, and
the rows on their way. -/

namespace Sys2Proof.Machine

open Sys2Proof

/-! ### The plan of a tile access (R136, R137) -/

/-- One row of a tile access: its index, addresses, whether its page is a K page, and its scale words. -/
structure RowPlan where
  row : BitVec 6
  pa : Nat
  va : Word
  kpage : Bool
  groups : List GroupRef
deriving DecidableEq, Repr

/-- A tile access as checked so far: the tag and geometry the tile takes, the first row's page and format, the rows,
or the trap of the first check that failed. -/
structure TilePlan where
  s : State
  tag : BitVec 4
  geo : Bool
  first : Option (Nat × Nat) := none
  rows : List RowPlan := []
  bad : Option Trap := none

/-- FMTV, FMT and BG of a leaf as one number, in which two pages of an access must agree (R116, R136). -/
def formatOf (w1 : Word) : Nat := w1.fld 53 48

/-- The scale words of a row at page offset `o` (R67, R137): sidecar slot, group address and slot in the group. -/
def scalePlaces (w1 : Word) (o : Nat) : List (Nat × Word × Nat) :=
  let size := if w1.fld 53 53 = 1 then 8 else 16
  (List.range (64 / size)).map fun i =>
    let j := o / size + i
    (i, Word.of (w1.fld 47 3 * 8 + 8 * (j / 3)), j % 3)

/-- The trap of a scale group whose page failed (R137). -/
def groupTrap (code why lvl : Nat) (va : Word) : Trap :=
  xlateTrap code (if code = 5 && (why = 2 || why = 3) then 5 else why) lvl va

/-- The groups of a row translated in ascending address; the first that fails decides (R137). -/
def State.planGroups (s : State) (kind : Access) : List (Nat × Word × Nat) → Except Trap (List GroupRef) × State
  | [] => (.ok [], s)
  | (j, va, slot) :: t =>
    match s.translate s.cur va kind with
    | (.bad c w l, s) => (.error (groupTrap c w l va), s)
    | (.ok pa w0 w1 _, s) =>
      if w1.fld 48 48 = 1 then (.error { code := 0x08, pc := 0, tval := va }, s)
      else match s.planGroups kind t with
        | (.ok l, s) => (.ok ({ j := j, pa := pa, va := va, slot := slot, kpage := w0.fld 6 6 = 1 } :: l), s)
        | (.error e, s) => (.error e, s)

/-- One row added to a plan (R136, R137): the data page's translation and format, then the groups; `whole` for `tld`
and `tst`, `write` for the stores. Where the page of a later row fails, `tval` is that row's address (R117; DESIGN CHOICE, log 144). -/
def TilePlan.add (p : TilePlan) (ea : Word) (whole write : Bool) (row : BitVec 6) : TilePlan :=
  if p.bad.isSome then p
  else
    let kind : Access := if write then .store else .load
    let va := if whole then ea + Word.of (64 * row.toNat) else ea
    match p.s.translate p.s.cur va kind with
    | (.bad c w l, s) => { p with s := s, bad := some (xlateTrap c w l va) }
    | (.ok pa w0 w1 lvl, s) =>
      let p := { p with s := s }
      let fmt := BitVec.ofNat 4 (w1.fld 52 49)
      let bg := w1.fld 53 53 = 1
      let key := formatOf w1
      let page := va.toNat / 65536
      let apart := match p.first with
        | none => false
        | some (q, k) => q != page && k != key
      let p := { p with first := match p.first with
        | none => some (page, key)
        | some f => some f }
      let plan := fun (gs : List GroupRef) =>
        ({ row := row, pa := pa, va := va, kpage := w0.fld 6 6 = 1, groups := gs } : RowPlan)
      if apart then { p with bad := some { code := 0x08, pc := 0, tval := Word.of (page * 65536) } }
      else if w1.fld 48 48 = 0 then { p with rows := p.rows ++ [plan []] }
      else
        let fits := fmt = p.tag && (!isFour fmt || bg = p.geo)
        if !fits && (write || !whole) then { p with bad := some { code := 0x08, pc := 0, tval := ea } }
        else
          let p := if fits then p else { p with tag := fmt, geo := if isFour fmt then bg else p.geo }
          if !isFour fmt then { p with rows := p.rows ++ [plan []] }
          else match p.s.planGroups kind (scalePlaces w1 (va.toNat % 2 ^ lvlShift lvl)) with
            | (.ok gs, s) => { p with s := s, rows := p.rows ++ [plan gs] }
            | (.error e, s) => { p with s := s, bad := some e }

/-- The plan of a tile access over some rows. -/
def State.planTile (s : State) (t : BitVec 3) (ea : Word) (rows : List (BitVec 6)) (whole write : Bool) : TilePlan :=
  let d := s.me.tile t
  rows.foldl (fun p r => p.add ea whole write r) { s := s, tag := d.tag, geo := d.geo }

/-- The rows of a tile. -/
def allRows : List (BitVec 6) := (List.range 64).map (BitVec.ofNat 6)

/-- Whether an access of planned rows must wait at issue (R126, R130, log 12). -/
def State.rowsWait (s : State) (rows : List RowPlan) (loads stores : Nat) : Bool :=
  rows.any fun p => s.mustWait p.pa 64 loads stores || p.groups.any fun g => s.mustWait g.pa 8 0 0 || (stores != 0 && !(s.unpreservedBy s.me g.pa).isEmpty)

/-! ### The words -/

/-- The requests of a tile load: each row, and each scale group its rows need once (R146). -/
def loadReqs (t : BitVec 3) (rows : List RowPlan) : List MReq :=
  (rows.map fun q =>
    { core := 0, seq := 0, kind := .rowLoad, pa := q.pa, bytes := 64, dest := .row t q.row, groups := q.groups
      kpage := q.kpage, badAt := q.va }) ++
  (((rows.flatMap RowPlan.groups).map fun g => (g.pa, g.va, g.kpage)).eraseDups.map fun g =>
    { core := 0, seq := 0, kind := .group, pa := g.1, badAt := g.2.1, kpage := g.2.2 })

/-- A tile load (R135, R139): all checks before any row; the rows are then outstanding. -/
def tileLoad (i : Instr) (t : BitVec 3) (rows : List (BitVec 6)) (whole : Bool) (ea : Core → Word) (s : State) :
    Result State :=
  word i (fun s =>
    let a := ea s.me
    match eaBad a 64 with
    | some tr => s.trapWith tr
    | none =>
      let p := s.planTile t a rows whole false
      match p.bad with
      | some tr => p.s.trapWith tr
      | none =>
        let s := p.s
        let entries := if whole then 16 else 1
        let mine := fun (key : Nat) => rows.any fun r => rowKey t r = key
        if s.me.tileHeld t || s.me.touches mine || s.rowsWait p.rows entries 0 then s.stall
        else
          let s := s.modMe fun k => k.setTile t { geo := p.geo, tag := p.tag }
          (s.issueAll (loadReqs t p.rows)
            (some { iaddr := s.me.pc, ea := a, load := entries }) 0 none false).advance) s

/-- tldr: row r of tile t (R135). -/
def execTldr (w : Bool) (t : BitVec 3) (r a : BitVec 5) (h : BitVec 1) (o : BitVec 10) (s : State) : Result State :=
  tileLoad (.tldr w t r a h o) t [rowIndex r h] false (fun k => k.eaRow a o) s

/-- tld: all 64 rows (R135). -/
def execTld (w : Bool) (t : BitVec 3) (a : BitVec 5) (o : BitVec 11) (s : State) : Result State :=
  tileLoad (.tld w t a o) t allRows true (fun k => k.eaTile a o) s

/-- The masked slot writes of stored rows, one for each scale group that they touch (R138, R146): a later row's slot stands in place of an
earlier one's. -/
def slotWrites (k : Core) (t : BitVec 3) (rows : List RowPlan) : List MReq :=
  let all := rows.flatMap fun q => q.groups.map fun g => (q.row, g)
  (all.map fun p => p.2.pa).eraseDups.map fun pa =>
    let mine := all.filter fun p => p.2.pa = pa
    let put := mine.foldl (fun v p => setSlot v p.2.slot (slotOf (k.sideOf t.toNat p.1.toNat) p.2.j)) (0 : BitVec 160)
    { core := 0, seq := 0, kind := .scale (mine.foldl (fun m p => m ||| BitVec.ofNat 3 (2 ^ p.2.slot)) 0), pa := pa, bytes := 8
      data := Word.of (put.toNat % 2 ^ 60), dest := .row t ((mine.head?.map Prod.fst).getD 0) }

/-- A tile store (R135, R138, R139): held until the row instructions that write its rows have done so (R285); an
uncorrectable error in a row traps POISON before any byte leaves (R303), and a single-bit one is corrected (R403). -/
def tileStore (i : Instr) (t : BitVec 3) (rows : List (BitVec 6)) (whole : Bool) (ea : Core → Word) (s : State) :
    Result State :=
  word i (fun s =>
    let a := ea s.me
    match eaBad a 64 with
    | some tr => s.trapWith tr
    | none =>
      let p := s.planTile t a rows whole true
      match p.bad with
      | some tr => p.s.trapWith tr
      | none =>
        let s := p.s
        let k := s.me
        let entries := if whole then 32 else 1
        let mine := fun (key : Nat) => rows.any fun r => rowKey t r = key
        if k.willWrite mine || (rows.any fun r => s.loading s.cur (rowKey t r)) then s.stall
        else match rows.find? fun r => k.rowBad (rowKey t r) ||
            (p.rows.any fun q => q.row = r && q.groups.any fun g => k.badSide.contains (rowKey t r * 8 + g.j)) with
          | some r => s.trapWith { code := 0x06, pc := 0, tval := a, row := r }
          | none =>
            if s.rowsWait p.rows 0 entries then s.stallOn (p.rows.flatMap fun q => q.pa :: q.groups.map fun g => g.pa)
            else
              let s := s.softTiles s.cur (fun b => mine (b / 8)) fun b =>
                p.rows.any fun q => q.groups.any fun g => b = rowKey t q.row * 8 + g.j
              (s.issueAll ((p.rows.map fun q =>
                ({ core := 0, seq := 0, kind := .rowStore, pa := q.pa, bytes := 64, row := k.row t.toNat q.row.toNat
                   dest := .row t q.row, badAt := q.va } : MReq)) ++ slotWrites k t p.rows)
                none entries none false).advance) s

/-- tstr: row r of tile t (R135). -/
def execTstr (w : Bool) (t : BitVec 3) (r a : BitVec 5) (h : BitVec 1) (o : BitVec 10) (s : State) : Result State :=
  tileStore (.tstr w t r a h o) t [rowIndex r h] false (fun k => k.eaRow a o) s

/-- tst: all 64 rows (R135). -/
def execTst (w : Bool) (t : BitVec 3) (a : BitVec 5) (o : BitVec 11) (s : State) : Result State :=
  tileStore (.tst w t a o) t allRows true (fun k => k.eaTile a o) s

/-! ### At the home and back (R138, R139) -/

/-- A row load at its home (R139). -/
def execRowLoadRequest (id : Nat) (s : State) : Result State :=
  .next (s.atTarget id (fun k => k = .rowLoad) (.rowLoadRequest id) fun r s => s.readAt id r)

/-- A row store at its home (R139). -/
def execRowStoreRequest (id : Nat) (s : State) : Result State :=
  .next (s.atTarget id (fun k => k = .rowStore) (.rowStoreRequest id) fun r s =>
    s.storeAt id r r.row fun s => s.bankStore r 64 r.row.toNat)

/-- Whether a request is a scale-slot write. -/
def isScale : ReqKind → Bool
  | .scale _ => true
  | _ => false

/-- Scale slots written by a core's request, with the checkpoint's copy (R138, R390). -/
def State.writeSlots (s : State) (r : MReq) (slots : BitVec 3) : State :=
  (s.slotsAt r.pa slots r.data.toNat r.core r.ctx).mirror r.ctx r.tick r.pa 8

/-- A scale-slot write at its group's home (R138). -/
def execScaleSlotWrite (id : Nat) (s : State) : Result State :=
  .next (s.atTarget id isScale (.scaleSlotWrite id) fun r s =>
    match r.kind with
    | .scale slots => s.storeAt id r (r.data.setWidth 512) fun s => s.writeSlots r slots
    | _ => s)

/-- The reads of a core's word that scale groups need, back or not, by address. -/
def State.groupRead (s : State) (r : MReq) (g : GroupRef) : Option MReq :=
  (s.reqs.find? fun p => p.2.core = r.core && p.2.seq = r.seq && p.2.kind = .group && p.2.pa = g.pa).map Prod.snd

/-- What failed of a row whose accesses are all back: POISON before a refusal, at the address of the row's own access or
of the first group's (R139). -/
def rowFault (r : MReq) (gs : List (GroupRef × MReq)) : Option (BitVec 4 × Word) :=
  let all := (r.status, r.badAt) :: gs.map fun p => (p.2.status, p.1.va)
  match all.find? fun p => p.1 != 0 with
  | none => none
  | some b => some (if all.any fun p => p.1 = 1 then 1 else b.1, b.2)

/-- A row all of whose accesses are back, written (R139): its bytes and scale words, or zeros, and zero blocks in a tile
of a block type, where one failed. -/
def State.rowBack (s : State) (id : Nat) (r : MReq) : State :=
  match r.dest with
  | .row t n =>
    let gs := r.groups.filterMap fun g => (s.groupRead r g).map fun m => (g, m)
    let bad := rowFault r gs
    let side := gs.foldl (fun v p => setSlot v p.1.j (BitVec.ofNat 20 (p.2.data.toNat / 2 ^ (20 * p.1.slot)))) (0 : BitVec 160)
    let s := s.modCore r.core fun k =>
      let k := k.setRow t.toNat n.toNat (if bad.isNone then r.row else 0)
      if bad.isSome then (if isFour (k.tile t).tag then k.setSide t.toNat n.toNat 0 else k)
      else if r.groups.isEmpty then k
      else k.setSide t.toNat n.toNat side
    s.finishRows id (match bad with
      | none => { r with status := 0 }
      | some b => { r with status := b.1, badAt := b.2 }) n.toNat
  | .reg _ _ _ => s
  | .none => s

/-- A row, or a scale group, back at its core (R139, R146): each row whose last access it was is written. -/
def execRowLoadResponse (id : Nat) (s : State) : Result State :=
  .next (match s.reqs.find id with
    | none => s
    | some r =>
      if !(r.stage = 2 && (r.kind = .rowLoad || r.kind = .group)) then s
      else
        let s := s.setReq id { r with stage := 3 }
        let ready := s.reqs.filter fun p =>
          p.2.core = r.core && p.2.seq = r.seq && p.2.kind = .rowLoad && p.2.stage = 3 &&
          p.2.groups.all fun g => match s.groupRead r g with
            | some m => m.stage = 3
            | none => true
        (ready.foldl (fun s p => s.rowBack p.1 p.2) s).post (.vectorUnitStart (r.core / 4)))

end Sys2Proof.Machine
end

