-- ==== Sys2Proof/Machine/Matrix.lean ====
section
/-! DEFINITION. The matrix array (R307 to R335): leases, accumulators and their owners, operands, the five matrix
commands with their checksums, `mva` and `amv`. -/

namespace Sys2Proof.Machine

open Sys2Proof

/-! ### Classes (R307, R308) -/

/-- A type class: elements of a row, group size, interval, latency, and ATY (0 f32, 1 i32, 2 f64). -/
structure ArrayClass where
  kmax : Nat
  g : Nat
  interval : Nat
  latency : Nat
  aty : Nat
deriving DecidableEq, Repr

/-- The class of an operand type by number, none for a type the array does not take (R308). -/
def classNumber (ty : Nat) : Option Nat :=
  match ty with
  | 0xB => some 0 | 0xC => some 0 | 0xD => some 0 | 0xE => some 0
  | 5 => some 1 | 6 => some 1
  | 7 => some 2 | 8 => some 2
  | 3 => some 3 | 4 => some 3
  | 2 => some 4
  | 0 => some 5
  | 1 => some 6
  | _ => none

/-- The rates and times of R307 and the accumulator type of R308. -/
def arrayClass : Nat → ArrayClass
  | 0 => { kmax := 128, g := 8, interval := 16, latency := 36, aty := 0 }
  | 1 => { kmax := 64, g := 2, interval := 32, latency := 52, aty := 0 }
  | 2 => { kmax := 64, g := 2, interval := 32, latency := 52, aty := 1 }
  | 3 => { kmax := 32, g := 1, interval := 32, latency := 52, aty := 0 }
  | 4 => { kmax := 16, g := 1, interval := 32, latency := 52, aty := 0 }
  | 5 => { kmax := 16, g := 1, interval := 64, latency := 84, aty := 0 }
  | _ => { kmax := 8, g := 1, interval := 128, latency := 148, aty := 2 }

/-- ATY of R329 for a source type: f64 to a pair, integers to i32, every other type to f32. -/
def atyOf (ty : Nat) : Nat := if ty = 1 then 2 else if 7 ≤ ty && ty ≤ 10 then 1 else 0

/-- The element type of an ATY. -/
def atyType (aty : Nat) : Nat := if aty = 0 then 0 else if aty = 1 then 10 else 1

/-! ### Accumulators (R310, R311) -/

/-- A descriptor. -/
def Cluster.accDesc (v : Cluster) (a : Nat) : AccDesc := (v.accd[a]?).getD {}
/-- A descriptor changed. -/
def Cluster.setDesc (v : Cluster) (a : Nat) (d : AccDesc) : Cluster := { v with accd := v.accd.set! a d }

/-- The 64 elements of a row, of the pair for f64. -/
def Cluster.accRow (v : Cluster) (a : Nat) (pair : Bool) (i : Nat) : List Nat :=
  let lo := (v.acc.get (a * 64 + i) 0).toNat
  if pair then
    let hi := (v.acc.get ((a + 1) * 64 + i) 0).toNat
    (List.range 64).map fun j => elem lo 4 j + 2 ^ 32 * elem hi 4 j
  else elems lo 4 64

/-- 64 elements of 4 bytes stored as one row; a row of zeros is not listed. -/
def Cluster.putAcc (v : Cluster) (key : Nat) (l : List Nat) : Cluster :=
  let x := BitVec.ofNat 2048 (packElems 4 l)
  { v with
    acc := if x = 0 then v.acc.erase key else v.acc.set key x
    badAcc := v.badAcc.filter (· != key), softAcc := v.softAcc.filter (· != key) }

/-- A row written. -/
def Cluster.setAccRow (v : Cluster) (a : Nat) (pair : Bool) (i : Nat) (l : List Nat) : Cluster :=
  let v := v.putAcc (a * 64 + i) l
  if pair then v.putAcc ((a + 1) * 64 + i) (l.map (· / 2 ^ 32)) else v

/-- Every element of an accumulator zero. -/
def Cluster.clearAcc (v : Cluster) (a : Nat) : Cluster :=
  { v with acc := v.acc.filter fun p => p.1 / 64 != a, badAcc := v.badAcc.filter fun r => r / 64 != a
           softAcc := v.softAcc.filter fun r => r / 64 != a }

/-- An accumulator in the free state of R310. -/
def Cluster.freeAcc (v : Cluster) (a : Nat) : Cluster := (v.clearAcc a).setDesc a {}

/-- Whether a core of the cluster has a release marker pending (R311). -/
def State.markerPending (s : State) (c : Nat) : Bool := (s.core c).qm.entries.any fun e => e.marker

/-- The accumulators that an accumulator and ATY name: the pair for f64. -/
def accNames (a aty : Nat) : List Nat := if aty = 2 then [a, a + 1] else [a]

/-- An accumulator taken by a core for an ATY, with the clearing of R311; `zero` clears in any case. -/
def Cluster.ownAcc (v : Cluster) (core a aty : Nat) (zero rel : Bool) : Cluster :=
  let d := v.accDesc a
  let v := if aty != 2 && d.v && 2 ≤ d.aty.toNat then (v.clearAcc a).freeAcc (if a % 2 = 0 then a + 1 else a - 1) else v
  let names := accNames a aty
  let code := fun (x : Nat) => if aty = 2 then 2 + (x - a) else aty
  let clear := zero || names.any fun x => let e := v.accDesc x; !e.v || e.aty.toNat != code x
  names.foldl (fun v x =>
    let e := v.accDesc x
    (if clear then v.clearAcc x else v).setDesc x
      { v := true, ocore := core, aty := BitVec.ofNat 4 (code x), ovf := if clear then false else e.ovf, rel := rel }) v

/-- A release marker at the head of a core's qm: what the core owns becomes free (R311). -/
def execReleaseMarkerHead (core : Nat) (s : State) : Result State :=
  .next (
    let k := s.core core
    match k.qm.entries with
    | [] => s
    | e :: t =>
      if !e.marker then s
      else
        let s := s.setCore core { k with qm := { k.qm with entries := t } }
        let s := s.modCluster (core / 4) fun v => (List.range 4).foldl (fun v a =>
          let d := v.accDesc a
          if d.v && d.ocore = core % 4 then v.freeAcc a else v) v
        (s.kickQueues core).post (.leaseGrant (core / 4)))

/-! ### Leases (R319, R320) -/

/-- Whether a core's qm head is ready (R319). -/
def State.qmReady (s : State) (c : Nat) : Bool :=
  let k := s.core c
  match k.qm.front with
  | none => false
  | some e =>
    !e.marker && e.stage = .armed && k.qm.fifo.length + k.qm.underway < 16 &&
    (let v := s.cluster (c / 4)
     let a := cwFld e.cw 0 31 30
     cwOp e.cw = 5 || (accNames a (if cwFld e.cw 0 39 36 = 1 && cwOp e.cw != 3 then 2 else 0)).all fun x =>
       let d := v.accDesc x
       !(d.v && d.ocore != c % 4 && d.rel))

/-- Whether a core that holds the lease keeps it (R319): its head is ready, or taken, or about to be examined. -/
def State.leaseStands (s : State) (c : Nat) : Bool :=
  let Q := (s.core c).qm
  match Q.front with
  | none => false
  | some e =>
    !e.marker && e.entered && e.known &&
    (e.stage = .granted || (e.stage = .queued && Q.fifo.length + Q.underway < 16) || s.qmReady c)

/-- The lease ended when its holder's queue is empty or its head is not ready (R319). -/
def State.leaseLapse (s : State) (cluster : Nat) : State :=
  match (s.cluster cluster).lease with
  | none => s
  | some i => if s.leaseStands (4 * cluster + i) then s else s.modCluster cluster fun v => { v with lease := none }

/-- A core's head taken under the lease as its `n`-th command: the lease ends with the sixteenth (R319). -/
def State.leaseTake (s : State) (cluster i n : Nat) : State :=
  let c := 4 * cluster + i
  let s := s.modCluster cluster fun v => { v with
    lease := if 16 ≤ n then none else some i, leaseLast := i, leaseCount := n, leaseAt := s.cycle + 1 }
  match (s.core c).qm.front with
  | none => s
  | some e => (s.modFront c 0 fun x => { x with stage := .granted }).post (.command c e.cw)

/-- The array ends a lease that no longer stands, grants it when it is free, and takes the holder's head (R319). -/
def execLeaseGrant (cluster : Nat) (s : State) : Result State :=
  .next (
    let s := s.leaseLapse cluster
    let v := s.cluster cluster
    if s.cycle < v.leaseAt then s.postOnce (v.leaseAt - s.cycle) (.leaseGrant cluster)
    else match v.lease with
      | some i => if s.qmReady (4 * cluster + i) then s.leaseTake cluster i (v.leaseCount + 1) else s
      | none =>
        match ((List.range 4).map fun j => (v.leaseLast + 1 + j) % 4).find? fun i => s.qmReady (4 * cluster + i) with
        | none => s
        | some i =>
          if s.cycle < v.accBegun + 2 && v.accBegun != 0 then s.postIn (v.accBegun + 2 - s.cycle) (.leaseGrant cluster)
          else s.leaseTake cluster i 1)

/-- mrls (R320). -/
def execMrls (w : Bool) (s : State) : Result State :=
  word (.mrls w) (fun s =>
    let cl := s.myCluster
    let s := if (s.cluster cl).lease = some (s.cur % 4) then
        (s.modCluster cl fun v => { v with lease := none }).post (.leaseGrant cl)
      else s
    s.advance) s

/-- The array starts a command: its interval and its time to completion (R307). -/
def State.arrayStart (s : State) (c iv d : Nat) (f : QEntry → QEntry) : State :=
  let s := s.modCluster (c / 4) fun v => { v with accBegun := s.cycle, leaseAt := s.cycle + max iv 1 }
  (s.startEntry c 0 d f).postIn (max iv 1) (.leaseGrant (c / 4))

/-- A matrix command ended in error with the flags it raised (R313, R324), the next one starting `iv` cycles later at the earliest. -/
def State.arrayFault (s : State) (c code iv d : Nat) (fl : Flags) : State :=
  s.arrayStart c iv d fun e => { e with
    elem := elemOf 0 e.ser code (s.accOvf c 0 e.cw + fl.toNat * 2 ^ 32), sigPa := none }

/-- A matrix command ended by its checks (R324): no interval of its class (R43). -/
def State.arrayError (s : State) (c code d : Nat) : State := s.arrayFault c code 1 d 0

/-! ### Scratchpad operands (R322) -/

/-- A descriptor of a scratchpad operand. -/
structure SpadDesc where
  rot : Nat
  tpitch : Nat
  rpitch : Nat
  bg16 : Bool
  base : Nat
deriving DecidableEq, Repr

/-- A descriptor read; none where R322 ends the command with an ILLEGAL completion. -/
def spadDesc (v : Word) (block : Bool) : Option SpadDesc :=
  if v.fld 63 62 = 3 || v.fld 51 44 = 0 || v.fld 42 19 != 0 || v.fld 5 0 != 0 || (v.fld 43 43 = 1 && !block) then none
  else some { rot := v.fld 63 62, tpitch := v.fld 61 52, rpitch := v.fld 51 44, bg16 := v.fld 43 43 = 1,
              base := v.fld 18 6 * 64 }

/-- The scratchpad offset of line `l` of row `i` (R322). -/
def SpadDesc.line (d : SpadDesc) (i l : Nat) : Nat :=
  let o := d.base + 64 * d.rpitch * i + 64 * l
  match d.rot with
  | 1 => o ^^^ (i % 16 * 64)
  | 2 => o ^^^ (i % 8 * 64)
  | _ => o

/-- The offset of the scale words of row `i` (R322). -/
def SpadDesc.scaleRow (d : SpadDesc) (i : Nat) : Nat := d.base + 64 * d.tpitch + 32 * i

/-- Bytes of a scratchpad. -/
def spadSize : Nat := 0x80000

/-- The feed time of some lines (R322). -/
def feedTime (lines : List Nat) : Nat :=
  max ((lines.length + 3) / 4)
    ((List.range 16).foldl (fun m b => max m (lines.filter fun o => o / 64 % 16 = b).length) 0)

/-- An operand as read: its values row by row, the lines read, whether a line lies out of range, whether one is in
error. -/
structure Operand where
  rows : List (List FVal)
  lines : List Nat := []
  far : Bool := false
  bad : Bool := false

/-- The values of `k` elements of a row (R309), with its sidecar slots for a block type (R63 to R66). -/
def rowValues (ty : Nat) (v : Nat) (side : BitVec 160) (bg k : Nat) : List FVal :=
  if 11 ≤ ty then (List.range k).map fun i => codeVal (slotOf side (i / bg)) (nibble v i)
  else (List.range k).map fun i => tyVal ty false (elem v (tyBytes ty) i)

/-- Bytes of the words of a row that hold one of its `k` elements in use (R326). -/
def usedBytes (ty k : Nat) : Nat := 8 * ((k * (if 11 ≤ ty then 4 else 8 * tyBytes ty) + 63) / 64)
/-- Scale words of a row of which an element is in use (R326). -/
def usedSlots (bg16 : Bool) (k : Nat) : Nat := (k + (if bg16 then 16 else 32) - 1) / (if bg16 then 16 else 32)

/-- Whether word `b` of tile rows, by row times 8 plus the word, is read for a tile operand (R326). -/
def tileWord (t : BitVec 3) (ty n k b : Nat) : Bool := b / 512 = t.toNat && b / 8 % 64 < n && 8 * (b % 8) < usedBytes ty k
/-- The same of a sidecar slot. -/
def tileSlot (t : BitVec 3) (bg16 : Bool) (ty n k b : Nat) : Bool :=
  11 ≤ ty && b / 512 = t.toNat && b / 8 % 64 < n && b % 8 < usedSlots bg16 k

/-- A tile operand (R321): the first `n` rows of `k` elements; only words and slots with an element in use are read (R326). -/
def Core.tileOperand (c : Core) (t : BitVec 3) (ty n k : Nat) : Operand :=
  { rows := (List.range n).map fun i =>
      rowValues ty (c.row t.toNat i).toNat (c.sideOf t.toNat i) (if (c.tile t).geo then 16 else 32) k
    bad := c.badRows.any (tileWord t ty n k) || c.badSide.any (tileSlot t (c.tile t).geo ty n k) }

/-- The places in scratchpad that a scratchpad operand reads: offset and bytes (R322, R326). -/
def SpadDesc.reads (d : SpadDesc) (ty n k : Nat) : List (Nat × Nat) :=
  (List.range n).flatMap fun i => (d.line i 0, usedBytes ty k) ::
    (if 11 ≤ ty then [(d.scaleRow i, 8 * ((usedSlots d.bg16 k + 2) / 3))] else [])

/-- The single-bit errors of what a command reads in scratchpad corrected (R260). -/
def State.correctSpad (s : State) (cl : Nat) (l : List (Nat × Nat)) : State :=
  if s.soft.isEmpty then s else l.foldl (fun (s : State) p => s.correct (scratchPa cl p.1) p.2 false) s

/-- A scratchpad operand (R322, R326): only words with an element in use are read. -/
def State.spadOperand (s : State) (cl : Nat) (d : SpadDesc) (ty n k : Nat) : Operand :=
  let used := usedBytes ty k
  let bg := if d.bg16 then 16 else 32
  let slots := usedSlots d.bg16 k
  let groups := (slots + 2) / 3
  let idx := List.range n
  let pa := fun (o : Nat) => scratchPa cl o
  let side := fun (i : Nat) => (List.range slots).foldl (fun v j =>
    setSlot v j (BitVec.ofNat 20 (s.readMem (pa (d.scaleRow i + 8 * (j / 3))) 8 / 2 ^ (20 * (j % 3))))) (0 : BitVec 160)
  { rows := idx.map fun i =>
      rowValues ty (s.readMem (pa (d.line i 0)) used) (if 11 ≤ ty then side i else 0) bg k
    lines := idx.map fun i => d.line i 0
    far := idx.any fun i => spadSize < d.line i 0 + 64 || (11 ≤ ty && spadSize < d.scaleRow i + 8 * groups)
    bad := (d.reads ty n k).any fun p => s.poisoned (pa p.1) p.2 }

/-! ### mma and mmz (R325 to R327) -/

/-- A list cut into groups of `g`; `n` bounds their number. -/
def groupsOf {α : Type} (g : Nat) : Nat → List α → List (List α)
  | 0, _ => []
  | n + 1, l => if l.isEmpty then [] else l.take g :: groupsOf g n (l.drop g)

/-- The exact sum of a group's products, with NV for 0 times Inf and for unlike infinities (R327). -/
def groupSum (l : List (FVal × FVal)) : FVal × Flags :=
  let ps := l.map fun p => fMulV p.1 p.2
  let fl := ps.foldl (fun f p => f ||| p.2) 0
  let inf := fun (neg : Bool) => ps.any fun p => p.1 = .inf neg
  if inf true && inf false then (.nan false, fl ||| fNV)
  else if ps.any fun p => p.1.isNan then (.nan false, fl)
  else if inf true then (.inf true, fl)
  else if inf false then (.inf false, fl)
  else
    let xs := ps.filterMap fun p => match p.1 with
      | .fin x => some x
      | _ => none
    match xs with
    | [] => (.fin { neg := false, m := 0, e := 0 }, fl)
    | x :: t => (.fin (t.foldl (fun a b => a.add b false) x), fl)

/-- One element of the accumulator: the groups in ascending k (R325), with its flags and whether INT8 overflowed. -/
def macElem (aty g : Nat) (acc : Nat) (a b : List FVal) : Nat × Flags × Bool :=
  (groupsOf g 128 (a.zip b)).foldl (fun (r : Nat × Flags × Bool) l =>
    let p := groupSum l
    if aty = 1 then
      let n : Int := signedOf 4 r.1 + (match p.1 with
        | .fin x => x.at 0
        | _ => 0)
      (wrapInt 4 n, r.2.1, r.2.2 || n < -(2 ^ 31) || 2 ^ 31 ≤ n)
    else
      let f := fmtD (atyType aty)
      let q := fAddV 0 (f.val r.1) p.1
      let v := f.result 0 q.1 q.2
      (v.1, r.2.1 ||| p.2 ||| v.2, r.2.2)) (acc, 0, false)

/-- A value that skips the checksum: a NaN or an infinity (R331). -/
def FVal.special : FVal → Bool
  | .nan _ => true
  | .inf _ => true
  | .fin _ => false

/-- A row of the accumulator through `mma` over `n` columns. -/
def macRow (aty g : Nat) (row : List Nat) (a : List FVal) (b : List (List FVal)) : List (Nat × Flags × Bool) :=
  (row.zip (b.map some ++ List.replicate 64 none)).map fun p => match p.2 with
    | some col => macElem aty g p.1 a col
    | none => (p.1, 0, false)

/-- Reserved-zero fields of `mma` and `mmz` (R323). -/
def legalMm (cw : BitVec 256) : Bool :=
  let asp := cwFld cw 0 29 29 = 1
  let bsp := cwFld cw 0 28 28 = 1
  cwFld cw 0 51 51 = 0 && cwFld cw 0 21 16 = 0 && (cwMask cw || (cwFld cw 0 63 52 = 0 && cwFld cw 0 46 40 = 0)) &&
  (!asp || cwFld cw 0 27 25 = 0) && (!bsp || cwFld cw 0 24 22 = 0) && (asp || cwWord cw 1 = 0) && (bsp || cwWord cw 2 = 0)

/-- An accumulator that `names` lists is owned by another core of the cluster. -/
def Cluster.otherOwner (v : Cluster) (core : Nat) (names : List Nat) : Bool :=
  names.any fun a => (v.accDesc a).v && (v.accDesc a).ocore != core

/-- The members that a word or command which names an accumulator concerns: the pair when it needs one or the accumulator is in one (R324,
R335). -/
def Cluster.concerned (v : Cluster) (a : Nat) (f64 : Bool) : List Nat :=
  if f64 || ((v.accDesc a).v && 2 ≤ (v.accDesc a).aty.toNat) then [a / 2 * 2, a / 2 * 2 + 1] else [a]

/-- Whether a tile's tag serves an operand type (R324): FP19 also takes f32. -/
def tagServes (tag : BitVec 4) (ty : Nat) : Bool := tag.toNat = ty || (ty = 2 && tag = 0)

/-- The result of `mma` or `mmz` over the first `m` rows: the rows, their flags, the INT8 overflow, and whether a NaN
or an infinity takes part. -/
def Cluster.product (v : Cluster) (a aty g : Nat) (A B : List (List FVal)) (n : Nat) :
    List (Nat × List Nat) × Flags × Bool × Bool :=
  let f := fmtD (atyType aty)
  let pair := aty = 2
  let isSpecial := fun (x : Nat) => aty != 1 && (f.val x).special
  let start := (A.any fun r => r.any FVal.special) || (B.any fun r => r.any FVal.special)
  ((List.range A.length).zip A).foldl (fun (acc : List (Nat × List Nat) × Flags × Bool × Bool) p =>
    let old := v.accRow a pair p.1
    let r := macRow aty g old p.2 B
    let row := r.map Prod.fst
    (acc.1 ++ [(p.1, row)], r.foldl (fun fl x => fl ||| x.2.1) acc.2.1, acc.2.2.1 || r.any fun x => x.2.2,
      acc.2.2.2 || (old.take n).any isSpecial || (row.take n).any isSpecial)) ([], 0, false, start)

/-- `mma` or `mmz` at its start: the checks of R324 in order, then the product, its checksum (R331) and its times. What it reads in
scratchpad may miss stores that are not yet performed for class M (R396). A recomputation adds its interval to the time before the next
start as well as to the latency (R307; DESIGN CHOICE, log 153). A command that ends in error, by CHECK too, leaves a free accumulator free
(R311; DESIGN CHOICE, log 155). -/
def State.startMm (s : State) (core : Nat) (cw : BitVec 256) (zero : Bool) (e : QEntry) : State :=
  let cl := core / 4
  let v := s.cluster cl
  let k := s.core core
  let ta := cwFld cw 0 39 36
  let tb := cwFld cw 0 35 32
  let a := cwFld cw 0 31 30
  let at_ := BitVec.ofNat 3 (cwFld cw 0 27 25)
  let bt := BitVec.ofNat 3 (cwFld cw 0 24 22)
  let asp := cwFld cw 0 29 29 = 1
  let bsp := cwFld cw 0 28 28 = 1
  match classNumber ta with
  | none => s.arrayError core 1 2
  | some cn =>
    let c := arrayClass cn
    let m := if cwMask cw then cwFld cw 0 63 58 + 1 else 64
    let n := if cwMask cw then cwFld cw 0 57 52 + 1 else 64
    let kk := if cwMask cw then cwFld cw 0 46 40 + 1 else c.kmax
    let block := cn = 0
    let da := spadDesc (cwWord cw 1) block
    let db := spadDesc (cwWord cw 2) block
    let names := accNames a c.aty
    if classNumber tb != some cn || c.kmax < kk || (c.aty = 2 && a % 2 = 1) || (asp && da.isNone) || (bsp && db.isNone) then
      s.arrayError core 1 2
    else if (!asp && !tagServes (k.tile at_).tag ta) || (!bsp && !tagServes (k.tile bt).tag tb) then s.arrayError core 10 2
    else if v.otherOwner (core % 4) (v.concerned a (c.aty = 2)) then s.arrayError core 7 2
    else if !zero && names.any (fun x => (v.accDesc x).v && (v.accDesc x).aty.toNat != (if c.aty = 2 then 2 + (x - a) else c.aty))
      then s.arrayError core 8 2
    else
      let sp := fun (on : Bool) (d : Option SpadDesc) (ty n : Nat) => match on, d with
        | true, some d => d.reads ty n kk
        | _, _ => []
      let s := s.correctSpad cl (sp asp da ta m ++ sp bsp db tb n)
      let s := s.softTiles core (fun b => (!asp && tileWord at_ ta m kk b) || (!bsp && tileWord bt tb n kk b))
        fun b => (!asp && tileSlot at_ (k.tile at_).geo ta m kk b) || (!bsp && tileSlot bt (k.tile bt).geo tb n kk b)
      let s := s.softAccs core fun b => !zero && names.contains (b / 64) && b % 64 < m
      let (seen, s) := s.engineView maskM
      let v := s.cluster cl
      let A := match da with
        | some d => if asp then seen.spadOperand cl d ta m kk else k.tileOperand at_ ta m kk
        | none => k.tileOperand at_ ta m kk
      let B := match db with
        | some d => if bsp then seen.spadOperand cl d tb n kk else k.tileOperand bt tb n kk
        | none => k.tileOperand bt tb n kk
      let feed := feedTime (A.lines ++ B.lines)
      let v1 := v.ownAcc (core % 4) a c.aty zero (s.markerPending core)
      let badAcc := !zero && names.any fun x => (List.range m).any fun i => v.badAcc.contains (x * 64 + i)
      if A.far || B.far then s.arrayError core 3 2
      else if A.bad || B.bad || badAcc then s.arrayError core 6 (max 8 feed)
      else
        let r := v1.product a c.aty c.g A.rows B.rows n
        let chk := cwChk cw && !r.2.2.2
        let iv := max c.interval feed
        let lat := c.latency + (if cwChk cw then 8 else 0)
        if chk && 2 ≤ v.sumUpset then
          let s := s.modCluster cl fun q => { q with sumUpset := q.sumUpset - 2 }
          let s := s.machineCheck .chkmc (routerOfCluster cl) core e.ctx (Word.of cl)
          (s.note (routerOfCluster cl) e.ctx 0xA (Word.of cl) (Word.of e.ser.toNat) 0).arrayFault core 9 (2 * iv + lat) (2 * lat + iv) r.2.1
        else
          let again := chk && v.sumUpset = 1
          let v2 := r.1.foldl (fun q p => q.setAccRow a (c.aty = 2) p.1 p.2) v1
          let d := v2.accDesc a
          let v2 := if r.2.2.1 then v2.setDesc a { d with ovf := true } else v2
          let s := s.setCluster cl { v2 with sumUpset := if again then 0 else v.sumUpset }
          let s := if again then
              s.logAt (routerOfCluster cl) 5 core 0 e.ctx (Word.of cl) (Word.of e.ser.toNat)
            else s
          let chks := if !cwChk cw then 0 else if r.2.2.2 then 2 else if again then 3 else 1
          let extra := chks * 2 ^ 54 + (if (v2.accDesc a).ovf then 2 ^ 53 else 0) + r.2.1.toNat * 2 ^ 32
          s.arrayStart core (if again then 2 * iv + lat else iv) (if again then 2 * lat + iv else lat) fun x =>
            { x with elem := elemOf 0 x.ser 0 extra }

/-- mma (R325): C := C + A B. -/
def execMma (core : Nat) (cw : BitVec 256) (s : State) : Result State :=
  .next (s.runHead core 0 cw legalMm fun e s => s.startMm core cw false e)

/-- mmz (R325): C := A B. -/
def execMmz (core : Nat) (cw : BitVec 256) (s : State) : Result State :=
  .next (s.runHead core 0 cw legalMm fun e s => s.startMm core cw true e)

/-! ### acrd, acwr, mtr (R328 to R330) -/

/-- Reserved-zero fields of `acrd` (R323). -/
def legalAcrd (cw : BitVec 256) : Bool :=
  cwFld cw 0 51 51 = 0 && cwFld cw 0 46 40 = 0 && cwFld cw 0 35 35 = 0 && cwFld cw 0 29 16 = 0 &&
  cwWord cw 2 = 0 && (cwMask cw || cwFld cw 0 63 52 = 0)

/-- Reserved-zero fields of `acwr` (R323). -/
def legalAcwr (cw : BitVec 256) : Bool :=
  cwFld cw 0 51 51 = 0 && cwFld cw 0 46 40 = 0 && cwFld cw 0 35 32 = 0 && cwFld cw 0 29 16 = 0 &&
  cwWord cw 2 = 0 && (cwMask cw || cwFld cw 0 63 52 = 0)

/-- Reserved-zero fields of `mtr` (R323). -/
def legalMtr (cw : BitVec 256) : Bool :=
  cwFld cw 0 51 51 = 0 && cwFld cw 0 46 40 = 0 && cwFld cw 0 35 16 = 0 && (cwMask cw || cwFld cw 0 63 52 = 0)

/-- The lines of `rows` rows of `bytes` bytes: row, line and offset. -/
def SpadDesc.linesOf (d : SpadDesc) (rows bytes : Nat) : List (Nat × Nat × Nat) :=
  (List.range rows).flatMap fun i => (List.range ((bytes + 63) / 64)).map fun l => (i, l, d.line i l)

/-- The bytes of a row of `bytes` bytes read across its lines. -/
def State.spadRow (s : State) (cl : Nat) (d : SpadDesc) (i bytes : Nat) : Nat :=
  (List.range ((bytes + 63) / 64)).foldl (fun v l =>
    v + 256 ^ (64 * l) * s.readMem (scratchPa cl (d.line i l)) (min 64 (bytes - 64 * l))) 0

/-- The writes of a row of `bytes` bytes to its lines. -/
def SpadDesc.rowWrites (d : SpadDesc) (cl i bytes v : Nat) : List (Nat × Nat × Nat) :=
  (List.range ((bytes + 63) / 64)).map fun l =>
    let n := min 64 (bytes - 64 * l)
    (scratchPa cl (d.line i l), n, v / 256 ^ (64 * l) % 256 ^ n)

/-- Whether a line of a region is in error (R324): the words that hold its elements. -/
def State.linesBad (s : State) (cl bytes : Nat) (ls : List (Nat × Nat × Nat)) : Bool :=
  ls.any fun p => s.poisoned (scratchPa cl p.2.2) (min 64 (bytes - 64 * p.2.1))

/-- acrd (R328): the accumulator converted into scratchpad. -/
def execAcrd (core : Nat) (cw : BitVec 256) (s : State) : Result State :=
  .next (s.runHead core 0 cw legalAcrd fun _ s =>
    let cl := core / 4
    let v := s.cluster cl
    let td := cwFld cw 0 39 36
    let rm := BitVec.ofNat 3 (cwFld cw 0 34 32)
    let a := cwFld cw 0 31 30
    let rows := if cwMask cw then cwFld cw 0 63 58 + 1 else 64
    let cols := if cwMask cw then cwFld cw 0 57 52 + 1 else 64
    let bytes := cols * tyBytes td
    let d := v.accDesc a
    match spadDesc (cwWord cw 1) false with
    | none => s.arrayError core 1 2
    | some de =>
      let ls := de.linesOf rows bytes
      if cwChk cw || 10 < td || 64 * de.rpitch < bytes then s.arrayError core 1 2
      else if v.otherOwner (core % 4) (v.concerned a false) then s.arrayError core 7 2
      else if d.v && d.aty = 3 then s.arrayError core 8 2
      else if ls.any fun p => spadSize < p.2.2 + 64 then s.arrayError core 3 2
      else
        let pair := d.v && d.aty = 2
        let feed := feedTime (ls.map fun p => p.2.2)
        if (accNames a (if pair then 2 else 0)).any (fun x => (List.range rows).any fun i => v.badAcc.contains (x * 64 + i)) then
          s.arrayError core 6 (max 2 feed)
        else
          let s := s.softAccs core fun b => (accNames a (if pair then 2 else 0)).contains (b / 64) && b % 64 < rows
          let src := if d.v then atyType d.aty.toNat else 0
          let out := (List.range rows).map fun i =>
            gather ((v.accRow a pair i).take cols |>.map fun x => tyConvert td false rm (tyVal src false x))
          let fl := out.foldl (fun f r => f ||| r.2) (0 : Flags)
          let ws := ((List.range rows).zip out).flatMap fun p => de.rowWrites cl p.1 bytes (packElems (tyBytes td) p.2.1)
          s.arrayStart core feed (feed + 12) fun x => { x with
            writes := ws
            elem := elemOf 0 x.ser 0 ((if d.ovf then 2 ^ 53 else 0) + fl.toNat * 2 ^ 32) })

/-- acwr (R329): a region of the accumulator from scratchpad, converted exactly; a row written in part keeps an error that it has
(R407). -/
def execAcwr (core : Nat) (cw : BitVec 256) (s : State) : Result State :=
  .next (s.runHead core 0 cw legalAcwr fun _ s =>
    let cl := core / 4
    let v := s.cluster cl
    let ts := cwFld cw 0 39 36
    let a := cwFld cw 0 31 30
    let rows := if cwMask cw then cwFld cw 0 63 58 + 1 else 64
    let cols := if cwMask cw then cwFld cw 0 57 52 + 1 else 64
    let bytes := cols * tyBytes ts
    let aty := atyOf ts
    match spadDesc (cwWord cw 1) false with
    | none => s.arrayError core 1 2
    | some de =>
      let ls := de.linesOf rows bytes
      let feed := feedTime (ls.map fun p => p.2.2)
      if cwChk cw || 10 < ts || 64 * de.rpitch < bytes || (aty = 2 && a % 2 = 1) then s.arrayError core 1 2
      else if v.otherOwner (core % 4) (v.concerned a (aty = 2)) then s.arrayError core 7 2
      else if ls.any fun p => spadSize < p.2.2 + 64 then s.arrayError core 3 2
      else if s.linesBad cl bytes ls then s.arrayError core 6 (max 2 feed)
      else
        let s := s.correctSpad cl (ls.map fun p => (p.2.2, min 64 (bytes - 64 * p.2.1)))
        let s := s.softAccs core fun b => cols < 64 && (accNames a aty).contains (b / 64) && b % 64 < rows
        let (seen, s) := s.engineView maskM
        let v1 := (s.cluster cl).ownAcc (core % 4) a aty false (s.markerPending core)
        let v2 := (List.range rows).foldl (fun q i =>
          let src := seen.spadRow cl de i bytes
          let old := q.accRow a (aty = 2) i
          let new := (List.range cols).map fun j =>
            (tyConvert (atyType aty) false 0 (tyVal ts false (elem src (tyBytes ts) j))).1
          q.setAccRow a (aty = 2) i (new ++ old.drop cols)) v1
        let v2 := if cols < 64 then { v2 with badAcc := v1.badAcc } else v2
        (s.setCluster cl v2).arrayStart core feed (feed + 12) fun x => { x with
          elem := elemOf 0 x.ser 0 (if (v2.accDesc a).ovf then 2 ^ 53 else 0) })

/-- mtr (R330): the transpose of the source as read. -/
def execMtr (core : Nat) (cw : BitVec 256) (s : State) : Result State :=
  .next (s.runHead core 0 cw legalMtr fun _ s =>
    let cl := core / 4
    let ty := cwFld cw 0 39 36
    let w := tyBytes ty
    let rows := if cwMask cw then cwFld cw 0 63 58 + 1 else 64 / max w 1
    let cols := if cwMask cw then cwFld cw 0 57 52 + 1 else 64
    let sb := cols * w
    let db := rows * w
    match spadDesc (cwWord cw 1) false, spadDesc (cwWord cw 2) false with
    | some sd, some dd =>
      let sl := sd.linesOf rows sb
      let dl := dd.linesOf cols db
      let feed := feedTime ((sl ++ dl).map fun p => p.2.2)
      if cwChk cw || 10 < ty || 64 < db || sd.rpitch < (sb + 63) / 64 || sd.tpitch != 0 || dd.tpitch != 0 then s.arrayError core 1 2
      else if (sl ++ dl).any fun p => spadSize < p.2.2 + 64 then s.arrayError core 3 2
      else if s.linesBad cl sb sl then s.arrayError core 6 (max 2 feed)
      else
        let s := s.correctSpad cl (sl.map fun p => (p.2.2, min 64 (sb - 64 * p.2.1)))
        let (seen, s) := s.engineView maskM
        let src := (List.range rows).map fun i => seen.spadRow cl sd i sb
        let ws := (List.range cols).flatMap fun c =>
          dd.rowWrites cl c db (packElems w (src.map fun r => elem r w c))
        s.arrayStart core feed (feed + 12) fun x => { x with writes := ws, elem := elemOf 0 x.ser 0 0 }
    | _, _ => s.arrayError core 1 2)

/-! ### mva and amv (R332 to R335) -/

/-- The accumulators a command names as ACC (R335): both members of an f64 pair. -/
def cwAccs (cw : BitVec 256) : List Nat :=
  let o := cwOp cw
  let a := cwFld cw 0 31 30
  if 1 ≤ o && o ≤ 4 then (if cwFld cw 0 39 36 = 1 && o != 3 then [a / 2 * 2, a / 2 * 2 + 1] else [a]) else []

/-- The `tval` of ACCBUSY for an accumulator and the members concerned; none when the word may go on (R335). -/
def State.accBusy (s : State) (a : Nat) (names : List Nat) : Option Word :=
  let c := s.cur
  let v := s.cluster s.myCluster
  let pend := s.markerPending c
  let owner := (names.find? fun x => (v.accDesc x).v).map fun x => (v.accDesc x).ocore
  let tv := fun (ser : Nat) (other : Bool) =>
    let rel := pend || names.any fun x => (v.accDesc x).rel
    Word.of (ser * 65536 + (owner.getD (c % 4)) * 16 + (if rel then 8 else 0) + (if other then 4 else 0) + a)
  if v.otherOwner (c % 4) names then some (tv 0xFFFF true)
  else if pend then some (tv 0xFFFF false)
  else match s.me.qm.entries.find? fun e => !e.marker && ((e.multi && !e.entered) || (cwAccs e.cw).any fun x => names.contains x) with
    | some e => some (tv e.ser.toNat false)
    | none => none

/-- mva (R333): columns of the accumulator from a tile, converted exactly; a row written in part keeps an error that it has (R407). -/
def execMva (w : Bool) (c t p : BitVec 3) (y : BitVec 4) (s : State) : Result State :=
  word (.mva w c t p y) (fun s =>
    let k := s.me
    let tag := (k.tile t).tag
    let a := c.toNat
    let mine := fun (key : Nat) => key / 64 = t.toNat
    if tag != y then s.trap 0x08 (Word.of (t.toNat * 256 + tag.toNat * 16 + y.toNat))
    else if k.willWrite mine || (allRows.any fun r => s.loading s.cur (rowKey t r)) then s.stall
    else match s.accBusy a ((s.cluster s.myCluster).concerned a (y = 1)) with
      | some tv => s.trap 0x07 tv
      | none => match allRows.find? fun r => k.rowBad (rowKey t r) with
        | some r => s.trapWith { code := 0x06, pc := 0, tval := 0, row := r }
        | none =>
          let aty := atyOf y.toNat
          let b := tyBytes y.toNat
          let n := 64 / b
          let lo := p.toNat * n
          let s := s.softTiles s.cur (fun b => mine (b / 8)) fun _ => false
          let s := s.softAccs s.cur fun b => n < 64 && (accNames a aty).contains (b / 64)
          (s.modCluster s.myCluster fun v =>
            let v1 := v.ownAcc (s.cur % 4) a aty false false
            let v2 := (List.range 64).foldl (fun q i =>
              let old := q.accRow a (aty = 2) i
              let new := (elems (k.row t.toNat i).toNat b n).map fun x =>
                (tyConvert (atyType aty) false 0 (tyVal y.toNat false x)).1
              q.setAccRow a (aty = 2) i (old.take lo ++ new ++ old.drop (lo + n))) v1
            if n < 64 then { v2 with badAcc := v1.badAcc } else v2).advance) s

/-- amv (R334): rows of a tile from columns of the accumulator, converted under `frm`; an accumulator row in error
leaves the tile's rows and the flags and is reported under R32 (R403). ACCBUSY comes before the wait for commands that still read the
tile, since a `pushm` whose words are unknown would hold every tile (R321, R335). -/
def execAmv (w : Bool) (t c p : BitVec 3) (y : BitVec 4) (s : State) : Result State :=
  word (.amv w t c p y) (fun s =>
    let k := s.me
    let v := s.cluster s.myCluster
    let a := c.toNat
    let d := v.accDesc a
    let mine := fun (key : Nat) => key / 64 = t.toNat
    if d.v && d.aty = 3 then s.trap 0x08 (Word.of (a * 256 + 16))
    else if k.touches mine || (allRows.any fun r => s.loading s.cur (rowKey t r)) then s.stall
    else match s.accBusy a (v.concerned a false), k.tileHeld t with
      | some tv, _ => s.trap 0x07 tv
      | none, true => s.stall
      | none, false =>
        let pair := d.v && d.aty = 2
        let src := if d.v then atyType d.aty.toNat else 0
        let b := tyBytes y.toNat
        let n := 64 / b
        let s := s.modMe fun k => k.setTile t { k.tile t with tag := y }
        let bad := (accNames a (if pair then 2 else 0)).any fun x => v.badAcc.any fun r => r / 64 = x
        if bad then
          ((s.modMe fun k => { k with seq := k.seq + 1 }).defer s.cur k.seq
            { code := 0x06, pc := 0, tval := 0, iaddr := some k.pc }).advance
        else
          let s := s.softAccs s.cur fun b => (accNames a (if pair then 2 else 0)).contains (b / 64)
          let rows := (List.range 64).map fun i =>
            gather (((v.accRow a pair i).drop (p.toNat * n) |>.take n).map fun x => tyConvert y.toNat false k.frm (tyVal src false x))
          (s.modMe fun k =>
            ((List.range 64).zip rows).foldl (fun (k : Core) r =>
              (k.setRow t.toNat r.1 (rowOfElems b r.2.1)).orFlags r.2.2) k).advance) s

end Sys2Proof.Machine
end

