-- ==== Sys2Proof/Machine/Image.lean ====
section
/-! DEFINITION. The save area of a frozen context: save blocks and cluster images as lists of fields, each with its place
in memory, its reading and its writing (R380 to R383, R387). What a fixed layout does not name is kept in the state itself. -/

namespace Sys2Proof.Machine

open Sys2Proof

/-- A field of an image: its offset and bytes, the value it has and the value it is given; whether it has an uncorrectable error,
which is poison in the image (R403, R407), and how it takes one from there. -/
structure ImageField (σ : Type) where
  off : Nat
  n : Nat
  get : σ → Nat
  set : Nat → σ → σ
  bad : σ → Bool := fun _ => false
  setBad : Bool → σ → σ := fun _ v => v

/-- The fields written to memory from `base`. -/
def State.saveFields {σ : Type} (s : State) (base : Nat) (v : σ) (fs : List (ImageField σ)) : State :=
  fs.foldl (fun s f =>
    let s := s.writeMem (base + f.off) f.n (f.get v)
    if f.bad v then s.spoil (base + f.off) f.n else s) s

/-- A value with its fields read back from memory at `base`. -/
def State.loadFields {σ : Type} (s : State) (base : Nat) (v : σ) (fs : List (ImageField σ)) : σ :=
  fs.foldl (fun v f => f.setBad (s.poisoned (base + f.off) f.n) (f.set (s.readMem (base + f.off) f.n) v)) v

/-- `n` bytes at `a` zero, without poison. -/
def State.zeroMem (s : State) (a n : Nat) : State :=
  { s.clean a n with
    soft := s.soft.filter fun w => !(a ≤ 8 * w && 8 * w + 8 ≤ a + n)
    mem := s.mem.filter fun c => !(a ≤ c.1 && c.1 < a + n)
    lagging := s.lagging.map fun l => l.after a n }

/-- A list that holds a number, or does not. -/
def setIn (n : Nat) (b : Bool) (l : List Nat) : List Nat := if b then setAdd n l else l.filter (· != n)

/-- Bits [hi:lo] of a number. -/
def bits (v hi lo : Nat) : Nat := v / 2 ^ lo % 2 ^ (hi + 1 - lo)

/-! ### Save blocks (R381) -/

/-- Mode and INTRAP as [37:34] of the block's word at 0x118 hold them: the model's order (log 60). -/
def Core.modeBits (k : Core) : Nat := k.mode.level + (if k.intrap then 8 else 0)

/-- The mode that a block's bits name: no core of a context runs in firmware mode (R361, log 60). -/
def modeOfBits (v : Nat) : Mode := if v % 8 = 0 then .task else .supervisor

/-- A field of a save block with the errors of the registers that it holds, by their numbers (R403). -/
def ImageField.regs (f : ImageField Core) (ns : List Nat) : ImageField Core :=
  { f with
    bad := fun k => ns.any fun n => k.badRegs.contains n
    setBad := fun b k => { k with badRegs := ns.foldl (fun l n => setIn n b l) k.badRegs } }

/-- The 32 bytes of a row's sidecar: a slot in the low 20 bits of each 4-byte word. -/
def sideBytes (v : BitVec 160) : Nat := (List.range 8).foldl (fun a j => a + (slotOf v j).toNat * 2 ^ (32 * j)) 0

/-- The slots of those 32 bytes. -/
def sideOfBytes (n : Nat) : BitVec 160 :=
  (List.range 8).foldl (fun v j => setSlot v j (BitVec.ofNat 20 (n / 2 ^ (32 * j)))) 0

/-- The fields of a save block; `budget` is what is left of the task's budget (R381). -/
def blockFields (cyc : Nat) (budget : Word) : List (ImageField Core) :=
  (List.range 32).map (fun i => ({ off := 8 * i, n := 8, get := fun k => (k.getN i).toNat
                                   set := fun v k => k.put (BitVec.ofNat 5 i) (Word.of v) } : ImageField Core).regs [i]) ++
  [ { off := 0x100, n := 8, get := fun k => k.pc.toNat, set := fun v k => { k with pc := Word.of v } },
    { off := 0x108, n := 8, get := fun k => k.term.toNat, set := fun v k => { k with term := Word.of v } },
    ({ off := 0x110, n := 8
       get := fun k => k.tl.toNat + k.src.toNat * 2 ^ 16 + k.chan.toNat * 2 ^ 28 + k.gang.toNat * 2 ^ 40 + k.keys.toNat * 2 ^ 56
       set := fun v k => { k with
         tl := BitVec.ofNat 16 v, src := BitVec.ofNat 12 (v / 2 ^ 16), chan := BitVec.ofNat 12 (v / 2 ^ 28)
         gang := BitVec.ofNat 16 (v / 2 ^ 40), keys := BitVec.ofNat 4 (v / 2 ^ 56) } } : ImageField Core).regs
      [32 + 1, 32 + 4, 32 + 5, 32 + 6, 32 + 0xE],
    ({ off := 0x118, n := 8
       get := fun k => k.issuer.toNat + k.caddn.toNat * 2 ^ 16 + k.pend % 4 * 2 ^ 32 + k.modeBits * 2 ^ 34
       set := fun v k => { k with
         issuer := BitVec.ofNat 16 v, caddn := BitVec.ofNat 16 (v / 2 ^ 16), pend := bits v 33 32
         mode := modeOfBits (bits v 36 34), intrap := bits v 37 37 = 1 && modeOfBits (bits v 36 34) = .supervisor } } :
         ImageField Core).regs [32 + 7],
    ({ off := 0x120, n := 8, get := fun _ => budget.toNat, set := fun v k => { k with budget := v, budgetAt := cyc } } :
      ImageField Core).regs [32 + 0xD],
    { off := 0x128, n := 8, get := fun k => k.savedBudget, set := fun v k => { k with savedBudget := v } },
    ({ off := 0x130, n := 8, get := fun k => k.fflags.toNat + k.frm.toNat * 2 ^ 8
       set := fun v k => { k with fflags := BitVec.ofNat 6 v, frm := BitVec.ofNat 3 (v / 2 ^ 8) } } : ImageField Core).regs
      [32 + 8, 32 + 9],
    ({ off := 0x138, n := 8, get := fun k => k.nparam0.toNat, set := fun v k => { k with nparam0 := Word.of v } } :
      ImageField Core).regs [32 + 0x20],
    ({ off := 0x140, n := 8, get := fun k => k.nparam1.toNat, set := fun v k => { k with nparam1 := Word.of v } } :
      ImageField Core).regs [32 + 0x21],
    ({ off := 0x148, n := 8, get := fun k => k.nparam2.toNat, set := fun v k => { k with nparam2 := Word.of v } } :
      ImageField Core).regs [32 + 0x22],
    ({ off := 0x150, n := 8, get := fun k => k.nparam3.toNat, set := fun v k => { k with nparam3 := Word.of v } } :
      ImageField Core).regs [32 + 0x23],
    ({ off := 0x158, n := 8, get := fun k => k.spk.toNat, set := fun v k => { k with spk := Word.of v } } :
      ImageField Core).regs [32 + 0x24],
    ({ off := 0x160, n := 8, get := fun k => k.cause.toNat, set := fun v k => { k with cause := Word.of v } } :
      ImageField Core).regs [32 + 0x100],
    ({ off := 0x168, n := 8, get := fun k => k.epc.toNat, set := fun v k => { k with epc := Word.of v } } :
      ImageField Core).regs [32 + 0x101],
    ({ off := 0x170, n := 8, get := fun k => k.tval.toNat, set := fun v k => { k with tval := Word.of v } } :
      ImageField Core).regs [32 + 0x102],
    ({ off := 0x178, n := 8, get := fun k => k.tinfo.toNat, set := fun v k => { k with tinfo := Word.of v } } :
      ImageField Core).regs [32 + 0x103],
    ({ off := 0x180, n := 8, get := fun k => k.tinfoh.toNat, set := fun v k => { k with tinfoh := Word.of v } } :
      ImageField Core).regs [32 + 0x107],
    ({ off := 0x188, n := 8, get := fun k => k.status.toNat
       set := fun v k => { k with fpen := BitVec.ofNat 6 (v / 2 ^ 8), pmode := if v % 4 = 1 then 1 else 0 } } :
      ImageField Core).regs [32 + 0x105],
    ({ off := 0x190, n := 8, get := fun k => k.scratch.toNat, set := fun v k => { k with scratch := Word.of v } } :
      ImageField Core).regs [32 + 0x106],
    { off := 0x198, n := 8, get := fun k => k.openCount.toNat, set := fun v k => { k with openCount := BitVec.ofNat 6 v } } ] ++
  (List.range 8).map (fun t => ({
    off := 0x1A0 + 8 * t, n := 8
    get := fun k => (k.tile (BitVec.ofNat 3 t)).tag.toNat + (if (k.tile (BitVec.ofNat 3 t)).geo then 16 else 0)
    set := fun v k => k.setTile (BitVec.ofNat 3 t) { tag := BitVec.ofNat 4 v, geo := bits v 4 4 = 1 } } : ImageField Core)) ++
  (List.range 512).map (fun i => ({
    off := 0x200 + 64 * i, n := 64, get := fun k => (k.rows.get i 0).toNat
    set := fun v k => { k with rows := k.rows.put i (BitVec.ofNat 512 v) 0 } } : ImageField Core)) ++
  (List.range 512).map (fun i => ({
    off := 0x8200 + 32 * i, n := 32, get := fun k => sideBytes (k.side.get i 0)
    set := fun v k => { k with side := k.side.put i (sideOfBytes v) 0 } } : ImageField Core))

/-- The poisoned words among `n` words from an aligned address, by their place. -/
def State.poisonedFrom (s : State) (base n : Nat) : List Nat :=
  s.poison.filterMap fun w => if base / 8 ≤ w && w < base / 8 + n then some (w - base / 8) else none

/-- The single-bit errors of a core's registers, tiles and sidecars corrected and logged, as a freeze reads them all (R403, R409). -/
def State.correctCore (s : State) (c : Nat) : State :=
  let s := s.softTiles c (fun _ => true) (fun _ => true)
  let k := s.core c
  k.softRegs.foldl (fun s n => s.softLog (routerOfSrc c) c k.ctx (Word.of n)) (s.setCore c { k with softRegs := [] })

/-- A core's save block written; a register, a tile word or a sidecar slot with an uncorrectable error leaves poison in the block
(R303, R403, R407). Then the watches of what was written are tested (R265). -/
def State.saveBlock (s : State) (base c : Nat) : State :=
  let s := s.correctCore c
  let k := s.core c
  let s := ((s.touchAll base 49664).zeroMem base 49664).saveFields base k (blockFields s.cycle (s.budgetOf k))
  let s := k.badRows.foldl (fun s i => s.addPoison (base + 0x200 + 8 * i)) s
  (k.badSide.foldl (fun s i => s.addPoison (base + 0x8200 + 4 * i)) s).watchesIn base 49664

/-- A core with its save block read back; its task goes on at the saved PC (R384). -/
def State.loadBlock (s : State) (base c : Nat) : State :=
  let s := s.deviceRead base 49664
  let k := s.core c
  let k := s.loadFields base k (blockFields s.cycle 0)
  s.setCore c { k with
    run := .running, ready := s.cycle
    badRows := s.poisonedFrom (base + 0x200) 4096
    badSide := (s.poisonedFrom (base + 0x8200) 2048).flatMap fun i => [2 * i, 2 * i + 1] }

/-! ### Cluster images (R383) -/

/-- Word 0 of a barrier entry (R240). -/
def Barrier.word0 (b : Barrier) : Word :=
  Word.of ((if b.v then 2 ^ 63 else 0) + (if b.ph then 2 ^ 62 else 0) + b.shape * 2 ^ 60 + b.exit.toNat * 2 ^ 32 +
    b.nxt.toNat * 2 ^ 16 + b.arr.toNat)
/-- Word 1 of a barrier entry (R240). -/
def Barrier.word1 (b : Barrier) : Word := Word.of (b.nph.toNat * 2 ^ 32 + b.wt.toNat)

/-- A barrier entry from its words (R240). -/
def barrierOfWords (a b : Nat) : Barrier :=
  { v := bits a 63 63 = 1, ph := bits a 62 62 = 1, shape := bits a 61 60, exit := BitVec.ofNat 16 (a / 2 ^ 32)
    nxt := BitVec.ofNat 16 (a / 2 ^ 16), arr := BitVec.ofNat 16 a, nph := BitVec.ofNat 32 (b / 2 ^ 32), wt := BitVec.ofNat 16 b }

/-- The number of a timeline state (R170). -/
def TlState.code : TlState → Nat
  | .free => 0
  | .idle => 1
  | .wait => 2
  | .head => 3
  | .run => 4
  | .dying => 5
  | .retired => 6

/-- The state of a number; 7 is unused. -/
def tlStateOf (n : Nat) : TlState := match n with
  | 1 => .idle
  | 2 => .wait
  | 3 => .head
  | 4 => .run
  | 5 => .dying
  | 6 => .retired
  | _ => .free

/-- The words of a timeline slot (R170). -/
def Timeline.words (t : Timeline) : List Nat :=
  [t.defh.toNat, t.intake.toNat, t.last.toNat,
   t.evdrop.toNat * 2 ^ 48 + (if t.opn then 128 else 0) + t.st.code * 16 + t.gen.toNat]

/-- A timeline slot given its words. -/
def Timeline.ofWords (t : Timeline) (a b c d : Nat) : Timeline :=
  { t with
    defh := Word.of a, intake := Word.of b, last := Word.of c, evdrop := BitVec.ofNat 16 (d / 2 ^ 48)
    opn := bits d 7 7 = 1, st := tlStateOf (bits d 6 4), gen := BitVec.ofNat 2 d }

/-- The words of an in-slot (R174). ATIM of a channel that has never been asked, of which the rule says nothing, reads as the
greatest value (DESIGN CHOICE, log 128). -/
def InSlot.words (i : InSlot) (cyc : Nat) : List Nat :=
  [i.h.toNat, i.pseq * 2 ^ 32 + i.e, i.pval.toNat,
   (if i.v then 2 ^ 63 else 0) + i.st * 2 ^ 61 + (if i.bulk then 2 ^ 60 else 0) + i.rank * 2 ^ 52 + i.tls * 2 ^ 48 +
     i.scl * 2 ^ 38 + i.sout * 2 ^ 31 + (match i.asked with
       | none => 65535
       | some a => min (cyc - a) 65535)]

/-- An in-slot given its words. -/
def InSlot.ofWords (i : InSlot) (cyc a b c d : Nat) : InSlot :=
  { i with
    h := Word.of a, pseq := bits b 63 32, e := bits b 31 0, pval := Word.of c, v := bits d 63 63 = 1, st := bits d 62 61
    bulk := bits d 60 60 = 1, rank := bits d 55 52, tls := bits d 51 48, scl := bits d 47 38, sout := bits d 37 31
    asked := if bits d 15 0 = 65535 then i.asked else some (cyc - bits d 15 0) }

/-- The words of an out-slot (R175). -/
def OutSlot.words (o : OutSlot) : List Nat :=
  [(if o.v then 2 ^ 63 else 0) + o.st * 2 ^ 61 + (if o.bulk then 2 ^ 60 else 0) + (if o.askp then 2 ^ 59 else 0) +
     o.rank * 2 ^ 52 + o.own * 2 ^ 48 + o.dcl * 2 ^ 38 + o.din * 2 ^ 31,
   o.q * 2 ^ 32 + o.l, o.old * 2 ^ 32 + o.nxt, o.lastp.toNat]

/-- An out-slot given its words. -/
def OutSlot.ofWords (o : OutSlot) (a b c d : Nat) : OutSlot :=
  { o with
    v := bits a 63 63 = 1, st := bits a 62 61, bulk := bits a 60 60 = 1, askp := bits a 59 59 = 1, rank := bits a 55 52
    own := bits a 51 48, dcl := bits a 47 38, din := bits a 37 31, q := bits b 63 32, l := bits b 31 0
    old := bits c 63 32, nxt := bits c 31 0, lastp := Word.of d }

/-- A list of words as one number of 8 bytes each. -/
def packWords (l : List Nat) : Nat := packElems 8 l
/-- Word `i` of such a number. -/
def wordAt (v i : Nat) : Nat := v / 2 ^ (64 * i) % 2 ^ 64

/-- A record as 64 bytes. -/
def Rec.bytes (r : Rec) : Nat := packWords ((List.range 8).map fun i => (r[i]?.getD 0).toNat)
/-- A record of 64 bytes. -/
def recOfBytes (v : Nat) : Rec := Vector.ofFn fun i => Word.of (wordAt v i.val)

/-- An inbox entry changed. -/
def Cluster.modItem (k : Cluster) (j : Nat) (f : Item → Item) : Cluster :=
  match k.inbox.find j with
  | none => k
  | some m => { k with inbox := k.inbox.set j (f m) }

/-- A slot's state (R383). -/
def Item.slotState (m : Item) : Nat :=
  m.mask.toNat + m.cls * 16 + (if m.mask = 15 then 64 else 0) + (if m.st = .entered then 128 else 0)

/-- A slot given its state: presence mask, class, complete, held by a task entry. -/
def Item.ofSlotState (m : Item) (v : Nat) : Item :=
  { m with
    mask := BitVec.ofNat 4 v, cls := bits v 5 4
    st := if bits v 7 7 = 1 then .entered
      else if bits v 6 6 = 0 then .filling
      else if m.st = .filling || m.st = .entered then .pending
      else m.st }

/-- A task entry as 16 bytes: state, slot, keys granted, conditions latched; the places within are the model's (log 60). -/
def TEntry.bytes (e : TEntry) (slot : Nat) : Nat :=
  (match e.phase with
    | .acq => 1
    | .cond => 2
    | .ready => 3
    | .quad => 4) + slot * 2 ^ 32 + e.granted * 2 ^ 64 + e.met.toNat * 2 ^ 96

/-- A task entry given its 16 bytes; `slots` the inbox entries that hold slots, by number. -/
def TEntry.ofBytes (e : TEntry) (slots : List Nat) (v : Nat) : TEntry :=
  { e with
    phase := (match bits v 31 0 with
      | 1 => .acq
      | 2 => .cond
      | 4 => .quad
      | _ => .ready)
    item := (slots[bits v 63 32]?).getD e.item, granted := bits v 95 64, met := BitVec.ofNat 2 (v / 2 ^ 96) }

/-- A task entry that an edit has added, for an inbox entry: its keys are those of the record (R207, R382). -/
def Cluster.addedEntry (k : Cluster) (i : Nat) : TEntry :=
  let m := k.inbox.get i {}
  { item := i, ctx := m.ctx, keys := if m.ev then [] else recKeys m.r[0] m.r[7], order := i }

/-- Task entry `t` given its 16 bytes: none where they are zero. -/
def Cluster.setEntryBytes (k : Cluster) (slots : List Nat) (t v : Nat) : Cluster :=
  if v = 0 then { k with entries := k.entries.erase t }
  else match k.entries.find t, slots[bits v 63 32]? with
    | some e, _ => { k with entries := k.entries.set t (e.ofBytes slots v) }
    | none, some i => { k with entries := k.entries.set t ((k.addedEntry i).ofBytes slots v) }
    | none, none => k

/-- An accumulator descriptor's bits (R310). -/
def AccDesc.code (d : AccDesc) : Nat :=
  (if d.v then 128 else 0) + d.ocore * 32 + d.aty.toNat % 4 * 8 + (if d.ovf then 4 else 0) + (if d.rel then 2 else 0)

/-- An accumulator descriptor of its bits. -/
def accDescOf (v : Nat) : AccDesc :=
  { v := bits v 7 7 = 1, ocore := bits v 6 5, aty := BitVec.ofNat 4 (bits v 4 3), ovf := bits v 2 2 = 1, rel := bits v 1 1 = 1 }

/-- The fields of a cluster's image (R383), the core parts apart. -/
def clusterFields (cyc conts : Nat) (k0 : Cluster) : List (ImageField Cluster) :=
  let slots := k0.slots false
  let evs := k0.slots true
  let num := fun (l : List Nat) => (List.range l.length).zip l
  (num slots).flatMap (fun p => [
    ({ off := 64 * p.1, n := 64, get := fun k => ((k.inbox.get p.2 {}).r).bytes
       set := fun v k => k.modItem p.2 fun m => { m with r := recOfBytes v }
       bad := fun k => (k.inbox.get p.2 {}).err, setBad := fun b k => k.modItem p.2 fun m => { m with err := b } } :
       ImageField Cluster),
    { off := 0x4000 + 2 * p.1, n := 2, get := fun k => (k.inbox.get p.2 {}).slotState
      set := fun v k => k.modItem p.2 fun m => m.ofSlotState v }]) ++
  (num evs).map (fun p => ({
    off := 0x4200 + 16 * p.1, n := 16
    get := fun k => packWords [(k.inbox.get p.2 {}).r[1].toNat, (k.inbox.get p.2 {}).r[2].toNat]
    set := fun v k => k.modItem p.2 fun m => { m with r := (m.r.set 1 (Word.of v)).set 2 (Word.of (wordAt v 1)) }
    bad := fun k => (k.inbox.get p.2 {}).err, setBad := fun b k => k.modItem p.2 fun m => { m with err := b } } :
      ImageField Cluster)) ++
  (List.range 16).map (fun t => ({
    off := 0x5200 + 32 * t, n := 32, get := fun k => packWords (k.tls.get t {}).words
    set := fun v k => { k with
      tls := k.tls.put t ((k.tls.get t {}).ofWords (wordAt v 0) (wordAt v 1) (wordAt v 2) (wordAt v 3)) {} } } : ImageField Cluster)) ++
  (List.range 128).map (fun i => ({
    off := 0x5400 + 32 * i, n := 32, get := fun k => packWords ((k.ins.get i {}).words cyc)
    set := fun v k => { k with
      ins := k.ins.put i ((k.ins.get i {}).ofWords cyc (wordAt v 0) (wordAt v 1) (wordAt v 2) (wordAt v 3)) {} } } :
      ImageField Cluster)) ++
  (List.range 128).map (fun i => ({
    off := 0x6400 + 32 * i, n := 32, get := fun k => packWords (k.outs.get i {}).words
    set := fun v k => { k with
      outs := k.outs.put i ((k.outs.get i {}).ofWords (wordAt v 0) (wordAt v 1) (wordAt v 2) (wordAt v 3)) {} } } :
      ImageField Cluster)) ++
  (List.range 48).map (fun t => ({
    off := 0x7400 + 16 * t, n := 16
    get := fun k => match k.entries.find t with
      | none => 0
      | some e => e.bytes ((slots.findIdx? (· = e.item)).getD 0xFFFF)
    set := fun v k => k.setEntryBytes slots t v } : ImageField Cluster)) ++
  (List.range 16).map (fun t => ({
    off := 0x7700 + 8 * t, n := 8, get := fun k => (k.tls.get t {}).ovmin.toNat
    set := fun v k => { k with tls := k.tls.put t { k.tls.get t {} with ovmin := Word.of v } {} } } : ImageField Cluster)) ++
  [ { off := 0x7780, n := 16, get := fun k => packWords [k.barrier.word0.toNat, k.barrier.word1.toNat]
      set := fun v k => { k with barrier := barrierOfWords (wordAt v 0) (wordAt v 1) } },
    { off := 0x7790, n := 8, get := fun _ => conts, set := fun _ k => k } ] ++
  (List.range 256).map (fun i => ({
    off := 0xA800 + 256 * i, n := 256, get := fun k => (k.acc.get i 0).toNat
    set := fun v k => { k with acc := k.acc.put i (BitVec.ofNat 2048 v) 0 }
    bad := fun k => k.badAcc.contains i, setBad := fun b k => { k with badAcc := setIn i b k.badAcc } } : ImageField Cluster)) ++
  (List.range 4).map (fun a => ({
    off := 0x1A800 + 16 * a, n := 8, get := fun k => ((k.accd[a]?).getD {}).code
    set := fun v k => { k with accd := k.accd.set! a (accDescOf v) } } : ImageField Cluster))

/-- Whether a queue's entry is a command that has not started, and no restartable one (R336, R359). -/
def QEntry.waits (e : QEntry) : Bool := !e.marker && !e.stage.started && !(e.stage = .queued && e.uid != 0)

/-- The commands of a queue that have not started. -/
def Queue.waitingCmds (q : Queue) : List QEntry := q.entries.filter QEntry.waits

/-- The `n`-th of a list's entries that a test picks, changed. -/
def modNth {α : Type} (is : α → Bool) (f : α → α) : Nat → List α → List α
  | _, [] => []
  | n, e :: t =>
    if !is e then e :: modNth is f n t
    else match n with
      | 0 => f e :: t
      | n + 1 => e :: modNth is f n t

/-- Whether a command of qw had been in flight when a freeze stopped it (R359). -/
def QEntry.restarts (e : QEntry) : Bool := !e.marker && e.stage = .queued && e.uid != 0

/-- The `n`-th waiting command changed. -/
def Queue.modWaiting (q : Queue) (n : Nat) (f : QEntry → QEntry) : Queue := { q with entries := modNth QEntry.waits f n q.entries }

/-- Where a queue's commands, their serials and the serial of its next command lie in the 2,048 bytes of a core (R383); the
places of the serials are the model's (log 60). -/
def queueOff (q : Nat) : Nat × Nat × Nat := (512 * q, 1280 + 32 * q, 1376 + 2 * q)

/-- Where the parts of core `c` begin among the engine queues, and where its CONT record lies behind them (R380; its place is the
model's, log 60). -/
def coreOff (c : Nat) : Nat × Nat := (0x8800 + 2048 * (c % 4), 0x8800 + 2048 * (c % 4) + 1792)

/-- Where entry `i` of the send queue of core `c` of a cluster lies in its image (R383). -/
def sendOff (c i : Nat) : Nat := 0x7800 + 1024 * c + 128 * i

/-- What follows the record of a message in a send queue: CSLOT, CSEQ, mask and MTAG (R383), then what the model knows of it besides, its
target, flit kind and marks, the core it is bound to and its out-slot (log 60). -/
def SendEntry.rest (e : SendEntry) : Nat :=
  packWords [e.cslot.toNat, e.cseq, e.mask.toNat, e.mtag.toNat,
    e.cl + e.fk * 2 ^ 16 + (if e.untimed then 2 ^ 24 else 0) + (if e.host then 2 ^ 25 else 0),
    (e.core.map (· + 1)).getD 0, (e.out.map (· + 1)).getD 0]

/-- A message given those words (R382). -/
def SendEntry.ofRest (e : SendEntry) (v : Nat) : SendEntry :=
  let m := wordAt v 4
  let there := fun (n : Nat) => if n = 0 then none else some (n - 1)
  { e with
    cslot := BitVec.ofNat 7 v, cseq := wordAt v 1, mask := BitVec.ofNat 5 (wordAt v 2), mtag := BitVec.ofNat 8 (wordAt v 3)
    cl := bits m 15 0, fk := bits m 23 16, untimed := bits m 24 24 = 1, host := bits m 25 25 = 1
    core := there (wordAt v 5), out := there (wordAt v 6) }

/-- The parts of a cluster's image that core `c` of it holds: send queue, command words, serials, result FIFOs, receipts
awaited (R383). -/
def coreFields (c : Nat) (k0 : Core) : List (ImageField Core) :=
  let base := (coreOff c).1
  ((List.range k0.sendQ.length).flatMap fun i => [
    ({ off := sendOff c i, n := 64, get := fun k => ((k.sendQ[i]?).map fun e => e.r.bytes).getD 0
       set := fun v k => { k with sendQ := k.sendQ.modify i fun e => { e with r := recOfBytes v } }
       bad := fun k => (k.sendQ[i]?).any fun e => e.err
       setBad := fun b k => { k with sendQ := k.sendQ.modify i fun e => { e with err := b } } } : ImageField Core),
    { off := sendOff c i + 64, n := 56
      get := fun k => ((k.sendQ[i]?).map SendEntry.rest).getD 0
      set := fun v k => { k with sendQ := k.sendQ.modify i fun e => e.ofRest v } }]) ++
  ([0, 1, 2].flatMap fun q =>
    ((List.range (k0.queue q).waitingCmds.length).flatMap fun i => [
      ({ off := base + (queueOff q).1 + 32 * i, n := 32
         get := fun k => (((k.queue q).waitingCmds[i]?).map fun e => e.cw.toNat).getD 0
         set := fun v k => k.setQueue q ((k.queue q).modWaiting i fun e => { e with cw := BitVec.ofNat 256 v })
         bad := fun k => ((k.queue q).waitingCmds[i]?).any fun e => e.err
         setBad := fun b k => k.setQueue q ((k.queue q).modWaiting i fun e => { e with err := b }) } :
         ImageField Core),
      { off := base + (queueOff q).2.1 + 2 * i, n := 2
        get := fun k => (((k.queue q).waitingCmds[i]?).map fun e => e.ser.toNat).getD 0
        set := fun v k => k.setQueue q ((k.queue q).modWaiting i fun e => { e with ser := BitVec.ofNat 16 v }) }]) ++
    [({ off := base + (queueOff q).2.2, n := 2, get := fun k => (k.queue q).serial.toNat
        set := fun v k => k.setQueue q { k.queue q with serial := BitVec.ofNat 16 v } } : ImageField Core)] ++
    (List.range (k0.queue q).fifo.length).map fun i => ({
      off := base + 1408 + 128 * q + 8 * i, n := 8, get := fun k => ((k.queue q).fifo.getD i 0).toNat
      set := fun v k => k.setQueue q { k.queue q with fifo := (k.queue q).fifo.set i (Word.of v) } } : ImageField Core)) ++
  [{ off := 0x7798 + 8 * c, n := 8, get := fun k => k.unreceipted.length
     set := fun v k => { k with unreceipted := (k.unreceipted ++ (List.range v).map (BitVec.ofNat 8)).take v } }]

/-- The entries of a cluster's inbox, send queues and engine queues, and its accumulators, read as a freeze saves them: a single-bit
error is corrected and logged, an uncorrectable one of an entry is a machine-check (R403, R408, R409). -/
def State.readUnits (s : State) (cl : Nat) : State :=
  let r := routerOfCluster cl
  let s := (s.softAccs (4 * cl) fun _ => true)
  let s := (s.cluster cl).inbox.foldl (fun s p => s.readItem cl p.2) s
  let s := s.modCluster cl fun k => { k with inbox := k.inbox.map fun p => (p.1, { p.2 with soft := false }) }
  (coresOf cl).foldl (fun s c =>
    let k := s.core c
    let see := fun (kind : CheckKind) (err soft : Bool) (x : Nat) (w : Word) (s : State) =>
      if err then s.machineCheck kind r c x w else if soft then s.softLog r c x w else s
    let s := k.sendQ.foldl (fun s e => see .sendQueue e.err e.soft k.ctx e.r[0] s) s
    let saved := fun (q : Queue) => q.waitingCmds ++ q.entries.filter QEntry.restarts
    let s := [0, 1, 2].foldl (fun s q => (saved (k.queue q)).foldl (fun s e => see .engineQueue e.err e.soft e.ctx 0 s) s) s
    let clean := fun (q : Queue) => { q with entries := q.entries.map fun e => { e with soft := false } }
    s.modCore c fun k => { k with
      sendQ := k.sendQ.map fun e => { e with soft := false }
      qm := clean k.qm, qw := clean k.qw, qb := clean k.qb }) s

/-- A cluster's image written (R383), and the watches of what was written tested (R265). -/
def State.saveImage (s : State) (base cl conts : Nat) : State :=
  let s := s.readUnits cl
  let s := ((s.touchAll base 110592).zeroMem base 110592).saveFields base (s.cluster cl) (clusterFields s.cycle conts (s.cluster cl))
  ((List.range 4).foldl (fun s c => s.saveFields base (s.core (4 * cl + c)) (coreFields c (s.core (4 * cl + c)))) s).watchesIn base
    110592

/-- What an edit of an image has added behind the inbox slots and events that were there (R382): they follow those, without a gap
(log 60). -/
def State.addItems (s : State) (base cl : Nat) : State :=
  let k := s.cluster cl
  let more := fun (n top : Nat) (there : Nat → Bool) => ((List.range (top - n)).map (n + ·)).takeWhile there
  let slots := more (k.slots false).length 256 fun n => s.readMem (base + 0x4000 + 2 * n) 2 != 0
  let evs := more (k.slots true).length 256 fun n => s.readMem (base + 0x4200 + 16 * n) 16 != 0
  let add := fun (s : State) (m : Item) =>
    let (j, s) := s.newId
    s.setItem cl j { m with order := j, ctx := k.ctx.getD 0, st := .pending }
  let s := slots.foldl (fun s _ => add s {}) s
  evs.foldl (fun s _ => add s { ev := true, mask := 15, r := #v[0x2000000000000, 0, 0, 0, 0, 0, 0, 0] }) s

/-- The messages that an edit of an image has added to a core's send queue, behind what was there (R382, log 60). -/
def State.addSends (s : State) (base c : Nat) : State :=
  s.modCore c fun k =>
    let n := k.sendQ.length
    let new := ((List.range (8 - n)).map (n + ·)).takeWhile fun i => s.readMem (base + sendOff (c % 4) i) 128 != 0
    { k with sendQ := k.sendQ ++ new.map fun _ => { r := Vector.replicate 8 0, fk := 2, cl := 0, bound := 0 } }

/-- A core's send queue without the messages whose places in the image are zero (R382, log 60). -/
def State.dropSends (s : State) (base c : Nat) : State :=
  s.modCore c fun k => { k with
    sendQ := (((List.range k.sendQ.length).zip k.sendQ).filter fun p => s.readMem (base + sendOff (c % 4) p.1) 128 != 0).map Prod.snd }

/-- What an edit of an image has added to a core's engine queues and result FIFOs (R382), behind what was there (log 60). -/
def State.addCommands (s : State) (base c : Nat) : State :=
  let (lo, _) := coreOff c
  let x := s.ctx (s.core c).ctx
  [0, 1, 2].foldl (fun s q => s.modCore c fun k =>
    let Q := k.queue q
    let more := fun (n top : Nat) (there : Nat → Bool) => ((List.range (top - n)).map (n + ·)).takeWhile there
    let cmds := more Q.waitingCmds.length (queueDepth q) fun n => s.readMem (base + lo + (queueOff q).1 + 32 * n) 32 != 0
    let elems := more Q.fifo.length 16 fun n => s.readMem (base + lo + 1408 + 128 * q + 8 * n) 8 != 0
    k.setQueue q { Q with
      entries := Q.entries ++ cmds.map fun _ => { ctrb := x.ctrb, ctx := k.ctx, epoch := k.epoch, issuer := k.issuer, entered := true }
      fifo := Q.fifo ++ elems.map fun _ => 0 }) s

/-- A cluster with its image read back (R382, R384): what was there with its edits, what was added, and no slot whose state is zero. -/
def State.loadImage (s : State) (base cl : Nat) : State :=
  let s := (s.deviceRead base 110592).addItems base cl
  let slots := (s.cluster cl).slots false
  let gone := ((List.range slots.length).zip slots).filter fun p => s.readMem (base + 0x4000 + 2 * p.1) 2 = 0
  let s := s.setCluster cl (s.loadFields base (s.cluster cl) (clusterFields s.cycle 0 (s.cluster cl)))
  let s := s.modCluster cl fun k => { k with inbox := gone.foldl (fun m p => m.erase p.2) k.inbox }
  (coresOf cl).foldl (fun s c =>
    let s := (s.addCommands base c).addSends base c
    (s.setCore c (s.loadFields base (s.core c) (coreFields (c % 4) (s.core c)))).dropSends base c) s

/-! ### Walker images (R359, R383) -/

/-- A walker's accept table, 2 bits for each group id, and MCDROP (R351). -/
def walkerFields : List (ImageField Walker) :=
  [ { off := 0, n := 16, get := fun w => (List.range 64).foldl (fun a g => a + (w.accept.get g 0).toNat * 4 ^ g) 0
      set := fun v w => { w with accept := (List.range 64).foldl (fun m g => m.put g (BitVec.ofNat 2 (v / 4 ^ g)) 0) w.accept } },
    { off := 16, n := 8, get := fun w => w.mcdrop, set := fun v w => { w with mcdrop := v } } ]

/-- The quad barrier entry behind them. -/
def quadFields : List (ImageField Router) :=
  [ { off := 24, n := 16, get := fun r => packWords [r.barrier.word0.toNat, r.barrier.word1.toNat]
      set := fun v r => { r with barrier := barrierOfWords (wordAt v 0) (wordAt v 1) } } ]

/-- A restartable entry: the command word, its serial with the core's port above it, its restart word (R359). -/
def QEntry.restart (e : QEntry) (c : Nat) : Nat :=
  e.cw.toNat + (e.ser.toNat + c % 16 * 2 ^ 16) * 2 ^ 256 + (match e.xd with
    | some w => (2 ^ 63 + w.toNat) * 2 ^ 320
    | none => 0)

/-- A restartable entry given its words (R382). -/
def QEntry.ofRestart (e : QEntry) (v : Nat) : QEntry :=
  { e with
    cw := BitVec.ofNat 256 v, ser := BitVec.ofNat 16 (wordAt v 4)
    xd := if bits (wordAt v 5) 63 63 = 1 then some (BitVec.ofNat 20 (wordAt v 5)) else none }

/-- The restartable entries of a walker, in queue order: the core of each and its place among that core's (R359). -/
def State.restarts (s : State) (i : Nat) : List (Nat × Nat) :=
  ((List.range 16).map (i * 16 + ·)).flatMap fun c =>
    (List.range ((s.core c).qw.entries.filter QEntry.restarts).length).map fun n => (c, n)

/-- Where a walker's restartable entries lie in its image, behind the quad barrier entry. -/
def restartOff (n : Nat) : Nat := 0x1A840 + 64 + 64 * n

/-- The walker's part of the image of local port 0 written. -/
def State.saveWalker (s : State) (base i : Nat) : State :=
  let s := (s.saveFields (base + 0x1A840) (s.walker i) walkerFields).saveFields (base + 0x1A840)
    (s.router (routerOfCompute i)) quadFields
  let rs := s.restarts i
  (((List.range rs.length).zip rs).foldl (fun s p =>
    match ((s.core p.2.1).qw.entries.filter QEntry.restarts)[p.2.2]? with
    | none => s
    | some e =>
      let s := s.writeMem (base + restartOff p.1) 48 (e.restart p.2.1)
      if e.err then s.spoil (base + restartOff p.1) 48 else s) s).watchesIn (base + 0x1A840) 1984

/-- A restartable entry that an edit has added, behind the others of its core and ahead of the queued commands (R359, R382, log 60). -/
def State.addRestart (s : State) (i v : Nat) : State :=
  let c := i * 16 + bits (wordAt v 4) 19 16
  let (n, s) := s.newId
  s.modCore c fun k =>
    let e : QEntry := { ctrb := (s.ctx k.ctx).ctrb, ctx := k.ctx, epoch := k.epoch, issuer := k.issuer, entered := true, uid := n + 1 }
    let queued := fun (o : QEntry) => o.waits
    { k with qw := { k.qw with
      entries := k.qw.entries.takeWhile (!queued ·) ++ e.ofRestart v :: k.qw.entries.dropWhile (!queued ·) } }

/-- The walker's part read back (R382, R384): the restartable entries with their edits, those that were added, and none whose words are
zero. -/
def State.loadWalker (s : State) (base i : Nat) : State :=
  let s := s.deviceRead (base + 0x1A840) 1984
  let s := s.modWalker i fun w => s.loadFields (base + 0x1A840) w walkerFields
  let s := s.modRouter (routerOfCompute i) fun r => s.loadFields (base + 0x1A840) r quadFields
  let at_ := fun (n : Nat) => base + restartOff n
  let rs := s.restarts i
  let t := ((List.range rs.length).zip rs).foldl (fun t p =>
    t.modCore p.2.1 fun k => { k with qw := { k.qw with
      entries := modNth QEntry.restarts (fun e => { e.ofRestart (s.readMem (at_ p.1) 48) with err := s.poisoned (at_ p.1) 48 }) p.2.2
        k.qw.entries } }) s
  let new := ((List.range (8 - rs.length)).map (rs.length + ·)).takeWhile fun n => s.readMem (at_ n) 48 != 0
  let t := new.foldl (fun t n => t.addRestart i (s.readMem (at_ n) 48)) t
  ((List.range 16).map (i * 16 + ·)).foldl (fun t c => t.modCore c fun k => { k with qw := { k.qw with
    entries := k.qw.entries.filter fun e => !(e.restarts && e.cw = 0) } }) t

end Sys2Proof.Machine
end

