-- ==== Sys2Proof/Machine/Freeze.lean ====
section
/-! DEFINITION. Freezing, thawing and tearing down a context (R250, R304, R336, R359, R377 to R387). A frozen context's
units stay in place in the state, as its images in memory show them; they are taken out of the rectangle when another
context is placed on it. -/

namespace Sys2Proof.Machine

open Sys2Proof

/-- The cores of a context. -/
def Ctx.coreList (c : Ctx) : List Nat := c.clusterList.flatMap coresOf

/-- The compute routers of a context. -/
def Ctx.computeList (c : Ctx) : List Nat := (List.range 144).filter c.hasCompute

/-! ### Stopping (R87, R140, R379, R394) -/

/-- The sequence numbers of the `pop` words that wait for an element. -/
def Core.popSeqs (k : Core) : List Nat := k.qm.pops ++ k.qw.pops ++ k.qb.pops

/-- Whether all that a forced pre-emption waits for is over: every outstanding result but that of a `pop`, every row
instruction, every store, everything that leaves after them, arrivals at a barrier among them (R140, R250, R304). -/
def Core.settled (k : Core) : Bool :=
  k.outs.all (fun p => k.popSeqs.contains p.1) && k.rowQ.isEmpty && k.rowRun.isEmpty && k.stores.isEmpty && k.lags.isEmpty &&
    k.held.isEmpty && k.arrivals.isEmpty

/-- One core brought to a stop between words: a fault that a result reported is taken first, so that the task stops at its
handler's first word (R394); a task whose end, suspension or trap waits for a `pop` alone stops at that word. -/
def State.stopCore (s : State) (c : Nat) : State :=
  let k := s.core c
  let stop := s.setCore c { k with run := .stopped }
  let fault := !k.deferred.isEmpty && !k.waiting
  let take := (s.modCore c fun q => { q with run := .running }).enterTrap c { code := 0, pc := k.pc }
  let popping := k.settled && k.waiting
  match k.run with
  | .running => if fault then take else stop
  | .parked _ => if fault then take else stop
  | .stopped => if fault then take else s
  | .trapping t => if popping then s.setCore c { k with run := .stopped, pc := t.pc } else s
  | .ending _ false => if popping then stop else s
  | .yielding _ _ => if popping then stop else s
  | .ending _ true => s
  | .exiting => s
  | .leaving _ _ => s
  | .flushing _ => s
  | .free => s
  | .held => s

/-- A queue's commands at a freeze: one that has not started waits again, a walker's one in flight is to be restarted; one whose
work is over completes (R336, R359). -/
def QEntry.requeued (walker : Bool) (cyc : Nat) (e : QEntry) : QEntry :=
  let flies := e.openWork != 0 || e.drain.isSome || cyc < e.due
  match e.stage with
  | .hold => { e with stage := .queued }
  | .armed => { e with stage := .queued }
  | .granted => { e with stage := .queued }
  | .running => if walker && flies
    then { e with stage := .queued, writes := [], slotWrites := [], reads := [], openWork := 0, dropped := [], rows := 0, drain := none }
    else e
  | _ => e

/-- The reads, writes and transfers of a walker's commands in flight that have sent no flit are not issued; the others arrive, and are
answered (R359). -/
def State.stopTransfers (s : State) (c : Nat) : State :=
  let gone := ((s.core c).qw.entries.filter fun e => e.stage = .running).map fun e => e.uid
  let i := c / 16
  let whole := fun (id n : Nat) => ((s.walker i).inject.filter fun f => f.req = some id).length = n
  let unsent := ((s.mcasts.filter fun p => p.2.core = c && gone.contains p.2.uid && whole p.1 p.2.flits).map Prod.fst) ++
    (s.reqs.filter fun p => (p.2.engine.any fun e => e.1 = c && e.2.1 = 1 && gone.contains e.2.2) &&
      whole p.1 p.2.payloads.length).map Prod.fst
  { s.modWalker i fun w => { w with inject := w.inject.filter fun f => match f.req with
      | some id => !unsent.contains id
      | none => true } with
    mcasts := s.mcasts.filter fun p => !unsent.contains p.1
    reqs := s.reqs.filter fun p => !unsent.contains p.1 }

/-- The engines of a core and their transfers stopped (R336, R359). -/
def State.stopEngines (s : State) (c : Nat) : State :=
  (s.stopTransfers c).modCore c fun k => { k with
    qm := { k.qm with entries := k.qm.entries.map (QEntry.requeued false s.cycle) }
    qw := { k.qw with entries := k.qw.entries.map (QEntry.requeued true s.cycle) }
    qb := { k.qb with entries := k.qb.entries.map (QEntry.requeued false s.cycle) } }

/-- Whether a queue has a command under way. -/
def Queue.busy (q : Queue) : Bool := q.entries.any fun e => e.stage = .running || e.stage = .adding

/-- Whether a core has come to rest for a freeze. -/
def Core.resting (k : Core) : Bool :=
  (k.run = .free || k.run = .held || (k.run = .stopped && k.settled && k.deferred.isEmpty)) &&
  !k.qm.busy && !k.qw.busy && !k.qb.busy

/-- Whether everything of a context has come to rest, its messages under way receipted, its engines' requests answered and its transfers
there. -/
def State.resting (s : State) (x : Nat) : Bool :=
  let c := s.ctx x
  c.coreList.all (fun i => (s.core i).resting) &&
  (c.clusterList.all fun cl => (s.cluster cl).openSends.isEmpty && (s.cluster cl).inject.isEmpty) &&
  (c.computeList.all fun i => (s.walker i).inject.isEmpty) && (s.mcasts.all fun p => p.2.ctx != x) &&
  s.reqs.all fun p => p.2.engine.isNone || p.2.ctx != x

/-! ### Save area (R379 to R383, R387) -/

/-- The CONT record of a stopped task (R380). -/
def contRec (k : Core) (block : Nat) : Rec :=
  #v[recHandler k.pc ||| Word.of (5 * 2 ^ 48 + recClass k.head * 2 ^ 52 + recPri k.head * 2 ^ 57), k.now, Word.of block,
    0, 0, 0, 0, 0]

/-- The stopped tasks of a context, a gang as one (R250). -/
def State.stoppedTasks (s : State) (x : Nat) : List (Nat × List Nat) :=
  ((s.ctx x).coreList.filter fun c => (s.core c).run = .stopped).filterMap fun c =>
    let k := s.core c
    if k.gang = 0 then some (c, [c])
    else
      let ms := s.members k
      if ms.head? = some c then some (c, ms) else none

/-- Where a member's block lies in the block of its task (R381). -/
def State.memberBlock (s : State) (t : SavedTask) (block c : Nat) : Nat :=
  if t.gang then block + 64 + 49664 * ((s.core c).gang.toNat % 16) else block

/-- `gang` of member 0 of a gang: the member field zero (R235). -/
def gangOf (g : BitVec 16) : BitVec 16 := g &&& 0xFFF0

/-- A task's save block written, a gang's with its header (R250, R381). -/
def State.saveTask (s : State) (block : Nat) (t : SavedTask) : State :=
  let s := ((s.touchAll block t.size).zeroMem block t.size).watchesIn block 64
  let s := match t.gang, t.cores with
    | true, c :: _ =>
      let g := (s.core c).gang
      let b := s.barrierOf g
      s.deviceWrite block 24 (packWords [b.word0.toNat, b.word1.toNat, (gangOf g).toNat])
    | _, _ => s
  t.cores.foldl (fun s c => s.saveBlock (s.memberBlock t block c) c) s

/-- The first member of a stopped task: its CONT record lies with that core's part of the image. -/
def SavedTask.first (t : SavedTask) : Nat := t.cores.headD 0

/-- A CONT record written: where the core's `now` has an uncorrectable error, its word is poison (R380, R407). -/
def State.saveCont (s : State) (a : Nat) (t : SavedTask) : State :=
  let s := s.deviceWrite a 64 t.r.bytes
  if (s.core t.first).badRegs.contains 32 then s.addPoison (a + 8) else s

/-- Every stopped task of a context recorded and its block written, in order (R379, R387). -/
def State.saveTasks (s : State) (x : Nat) : State :=
  (s.stoppedTasks x).foldl (fun s p =>
    let block := s.backBase x
    let k := s.core p.1
    let t : SavedTask := {
      cluster := p.1 / 4, cores := p.2, gang := k.gang != 0, r := contRec k block, quad := k.gang.toNat / 16 % 4 = 2 }
    (s.saveTask block t).modCtx x fun c => { c with saved := c.saved ++ [t] })
    (s.modCtx x fun c => { c with saved := [] })

/-- The end of the grace: tasks and engines stop; once all is at rest, the CONT records and save blocks are written, and the
images follow (R379). -/
def execFreezeGraceEnd (ctx : Nat) (s : State) : Result State :=
  .next (
    let c := s.ctx ctx
    if c.st != .freezing then s
    else if s.cycle < c.graceEnd then s.postIn (c.graceEnd - s.cycle) (.freezeGraceEnd ctx)
    else
      let s := c.coreList.foldl (fun s i => (s.stopCore i).stopEngines i) s
      let s := c.clusterList.foldl (fun s cl => s.modCluster cl fun k => { k with lease := none, leaseCount := 0 }) s
      if s.resting ctx then (s.saveTasks ctx).post (.freezeDone ctx) else s.postIn 1 (.freezeGraceEnd ctx))

/-- The context's state in the header of its save area (R387). -/
def State.headState (s : State) (x : Nat) : State := s.deviceWrite (s.ctx x).save.toNat 8 (s.ctx x).st.code

/-- The header of the save area; the places of its words are the model's (R387, log 60). -/
def State.saveHeader (s : State) (x : Nat) : State :=
  let c := s.ctx x
  (((s.touchAll c.save.toNat 256).zeroMem c.save.toNat 256).writeMem c.save.toNat 40
    (packWords [c.st.code, s.cycle, c.saved.length, c.backing.length, c.bkcap])).watchesIn c.save.toNat 256

/-- The last steps of a freeze: images, header, backing inbox in memory; the context is FROZEN and firmware is told (R377,
R379, R387). -/
def execFreezeDone (ctx : Nat) (s : State) : Result State :=
  .next (
    let c := s.ctx ctx
    if c.st != .freezing then s
    else if !s.resting ctx then s.post (.freezeGraceEnd ctx)
    else
      let cls := c.clusterList
      let at_ := fun (i : Nat) => c.save.toNat + 256 + 110592 * i
      let s := ((List.range cls.length).zip cls).foldl (fun s p =>
        let conts := (c.saved.filter fun t => t.cluster = p.2).length
        let s := s.saveImage (at_ p.1) p.2 conts
        let s := (c.saved.filter fun t => t.cluster = p.2).foldl (fun s t =>
          s.saveCont (at_ p.1 + (coreOff t.first).2) t) s
        if p.2 % 4 = 0 then s.saveWalker (at_ p.1) (p.2 / 4) else s) s
      let s := ((List.range c.backing.length).zip c.backing).foldl (fun s p => s.backWrite ctx p.1 p.2) s
      ((s.flushCtx ctx).modCtx ctx fun c => { c with st := .frozen }).saveHeader ctx |>.fwNote .frozen [ctx])

/-! ### The rectangle lent (R379) -/

/-- A cluster as another context finds it: free but for what its divert buffer holds of messages to contexts other than `x` (R378). -/
def Cluster.lent (k : Cluster) (x : Nat) : Cluster := { inbox := k.inbox.filter fun p => p.2.divert && p.2.ctx != x }

/-- A cluster without that. -/
def Cluster.own (k : Cluster) (x : Nat) : Cluster := { k with inbox := k.inbox.filter fun p => !(p.2.divert && p.2.ctx != x) }

/-- A frozen context's units taken out of its rectangle. -/
def State.unitsOut (s : State) (x : Nat) : State :=
  let cls := (s.ctx x).clusterList.filter fun cl => (s.cluster cl).ctx = some x
  let cores := cls.flatMap coresOf
  let rs := (s.ctx x).computeList
  let s := s.modCtx x fun c => { c with
    images := cls.foldl (fun (m : Map Cluster) cl => m.set cl ((s.cluster cl).own x)) c.images
    cores := cores.foldl (fun m i => m.set i (s.core i)) c.cores
    quads := rs.foldl (fun m i => m.set i (s.router (routerOfCompute i))) c.quads
    walkers := rs.foldl (fun m i => m.set i { s.walker i with records := [] }) c.walkers }
  let s := { s with
    clusters := cls.foldl (fun m cl => Map.put m cl ((s.cluster cl).lent x) {}) s.clusters
    cores := cores.foldl Map.erase s.cores
    walkers := rs.foldl Map.erase s.walkers }
  rs.foldl (fun s i => s.modRouter (routerOfCompute i) fun r => { r with barrier := {}, holds := [], quadHeld := false }) s

/-- A context's units put back. -/
def State.unitsIn (s : State) (x : Nat) : State :=
  let c := s.ctx x
  let s := { s with
    clusters := c.images.foldl (fun m (p : Nat × Cluster) =>
      Map.set m p.1 { p.2 with inbox := (s.cluster p.1).inbox.foldl (fun (m : Map Item) (q : Nat × Item) => Map.set m q.1 q.2) p.2.inbox }) s.clusters
    cores := c.cores.foldl (fun m (p : Nat × Core) => Map.set m p.1 p.2) s.cores
    walkers := c.walkers.foldl (fun m (p : Nat × Walker) => Map.set m p.1 p.2) s.walkers }
  let s := c.quads.foldl (fun s p => s.modRouter (routerOfCompute p.1) fun r =>
    { r with barrier := p.2.barrier, holds := p.2.holds, quadHeld := p.2.quadHeld }) s
  s.modCtx x fun c => { c with images := [], cores := [], quads := [], walkers := [] }

/-- The other contexts that own clusters of a context's rectangle. -/
def State.lodgers (s : State) (x : Nat) : List Nat :=
  ((s.ctx x).clusterList.filterMap fun cl => (s.cluster cl).ctx).eraseDups.filter (· != x)

/-! ### Thaw (R384) -/

/-- A backed-up message delivered: it takes a slot of its class, or goes by the divert buffer to the overflow queue
(R153, R384). -/
def State.replayMessage (s : State) (cl : Nat) (m : Item) : State :=
  let full := (s.cluster cl).freeSlots m.cls = 0 || s.waitsInOverflow cl m.cls
  let (j, s) := s.newId
  let s := (s.setItem cl j { m with divert := full, order := j }).deliver cl j
  if full then s.post (.overflowWrite cl) else s

/-- An entry of the backing inbox at `a` replayed as memory holds it: the record of a message, or the step of a one-flit entry; poison is an
error of the record (R403, R407). A record names no cluster: it goes where the entry `e` at its place was bound for, and one that an edit
has added to the first cluster of the context, untimed (R382, R384, log 95). -/
def State.replayEntry (s : State) (x a : Nat) (e : Option BackEntry) : State :=
  let s := s.deviceRead a 64
  match flitOfWords fun i => s.readMem (a + 8 * i) 8 with
  | some f => s.post f
  | none =>
    let r := recOfBytes (s.readMem a 64)
    let fresh : Item := { r := r, cls := recClass r[0], mask := 15, st := .pending, ctx := x, err := s.poisoned a 64 }
    match e with
    | some (.message cl m) => s.replayMessage cl { m with r := r, err := s.poisoned a 64 }
    | some (.flit f) => s.replayMessage (flitCluster f) fresh
    | none => s.replayMessage ((s.ctx x).clusterList.headD 0) fresh
where
  /-- The cluster that a one-flit entry is bound for. -/
  flitCluster : Event → Nat
    | .promiseArrival cl _ _ _ | .askArrival cl _ | .eventArrival cl _ _ _ _ _ | .kgrantArrival cl _ _ | .krefuseArrival cl _ _
    | .wmetArrival cl _ _ | .wrefuseArrival cl _ _ => cl
    | _ => 0

/-- The timers and steps of a cluster's unit started again. -/
def State.rekick (s : State) (cl : Nat) : State :=
  let k := s.cluster cl
  let s := s.retestAll cl
  let s := k.entries.foldl (fun s p => match p.2.since with
    | some t => if p.2.noted then s else s.postIn (t + 2 ^ 20 - s.cycle) (.dwait cl p.1)
    | none => s) s
  let s := k.entries.foldl (fun s p => match p.2.phase with
    | .acq => match p.2.retryAt with
      | none => s
      | some t => s.postIn (t - s.cycle) (.keyRetry cl p.1)
    | .cond => (List.range 2).foldl (fun s j => if p.2.poll.getLsbD j then s.post (.watchPoll cl p.1 j) else s) s
    | .ready => s.postIn 16384 (.priorityPromotion cl p.1)
    | .quad => s) s
  let s := k.tls.foldl (fun s p => if p.2.blocked.isSome then s.post (.askSend cl p.1) else s) s
  let s := k.outs.foldl (fun s p => s.post (.promiseSend cl p.1)) s
  let s := s.posts [.taskEntry cl, .overflowWrite cl, .recall cl .req, .recall cl .rpl, .recall cl .sys, .dispatch cl,
    .leaseGrant cl, .flitInject cl]
  (coresOf cl).foldl (fun s c => ((s.kick c).watch c).kickQueues c) s

/-- The parked grants of a context delivered (R218, R384). -/
def State.deliverParked (s : State) (x : Nat) : State :=
  (List.range 96).foldl (fun s sl =>
    ((s.slice sl).keys.filter fun e => e.ctx = x && e.park).foldl (fun s e =>
      (s.modSlice sl fun v => v.putKey { e with park := false }).fromDesk sl x e.hcl e.htag e.key.toNat .kgrant
        (.kgrantArrival e.hcl e.htag e.key)) s) s

/-- The holds for gangs in a context's rectangle ended, granted or not: their tasks are READY again, the cores held go back (R237,
R211). -/
def State.endHolds (s : State) (x : Nat) : State :=
  let c := s.ctx x
  let s := c.clusterList.foldl (fun s cl => s.modCluster cl fun k => { k with
    gang4 := none
    entries := k.entries.map fun p => (p.1, if p.2.phase = .quad then { p.2 with phase := .ready } else p.2) }) s
  (c.computeList.foldl (fun s i => s.modRouter (routerOfCompute i) fun r => { r with holds := [], quadHeld := false }) s).giveBack
    c.coreList

/-- ctxc.frz: a running context begins to freeze (R377, R379). -/
def State.freeze (s : State) (x : Nat) : State :=
  ((s.endHolds x).modCtx x fun c => { c with
    st := .freezing, graceEnd := s.cycle + 20000, bkfull := false, backing := [], saved := [] }).postIn 20000 (.freezeGraceEnd x)

/-- A stopped task with its save block read back, at the address that its CONT record names; its `now`, CLASS and PRI are those
of the record (R380, R384). -/
def State.resume (s : State) (t : SavedTask) : State :=
  let block := t.r[2].toNat
  let s := s.deviceRead block 64
  let s := match t.gang, t.cores with
    | true, m :: _ => s.setBarrier (s.core m).gang (barrierOfWords (s.readMem block 8) (s.readMem (block + 8) 8))
    | _, _ => s
  t.cores.foldl (fun s i => (s.loadBlock (s.memberBlock t block i) i).modCore i fun k => { k with
    now := t.r[1]
    head := (k.head &&& Word.of (2 ^ 64 - 1 - 3 * 2 ^ 52 - 3 * 2 ^ 57)) |||
      Word.of (recClass t.r[0] * 2 ^ 52 + recPri t.r[0] * 2 ^ 57) }) s

/-- The CONT records of a cluster as its image has them, with that of a core that had none (R380, R382): as many as the image counts. -/
def State.contTasks (s : State) (x cl base : Nat) : List SavedTask :=
  let at_ := fun (c : Nat) => s.readMem (base + (coreOff c).2) 64
  let mine := (s.ctx x).saved.filter fun t => t.cluster = cl
  let more := (coresOf cl).filter fun c => at_ c != 0 && mine.all fun t => !t.cores.contains c
  let more : List SavedTask := more.map fun c => { cluster := cl, cores := [c], gang := false, r := recOfBytes (at_ c) }
  (mine.map (fun (t : SavedTask) => { t with r := recOfBytes (at_ t.first) }) ++ more).take (s.readMem (base + 0x7790) 8)

/-- The tasks of a cluster started again at a thaw. A stopped task whose record an edit has taken away is gone: its cores are free (R382,
log 60). -/
def State.resumeAll (s : State) (x cl base : Nat) : State :=
  let ts := s.contTasks x cl base
  let lost := ((s.ctx x).saved.filter fun t => t.cluster = cl).filter fun t => ts.all fun u => u.first != t.first
  let s := lost.foldl (fun s t => t.cores.foldl (fun s c => s.modCore c fun k => { k with run := .free }) s) s
  ts.foldl (fun s t =>
    (s.resume t).modCore t.first fun k => { k with
      badRegs := setIn 32 (s.poisoned (base + (coreOff t.first).2 + 8) 8) k.badRegs }) s

/-- The end of a thaw: images and save blocks read back, the tasks go on, the backing inbox is replayed, parked grants are
delivered, the token and the archive engine go on, dispatch resumes (R384, R392). -/
def execThawDone (ctx : Nat) (s : State) : Result State :=
  .next (
    let c := s.ctx ctx
    if c.st != .thawing then s
    else if (s.lodgers ctx).any fun y => (s.ctx y).st != .frozen then s.postIn 1000 (.thawDone ctx)
    else
      let s := (s.lodgers ctx).foldl State.unitsOut s
      let s := if c.images.isEmpty then s else s.unitsIn ctx
      let back := s.backBase ctx
      let s := s.deviceRead c.save.toNat 256
      let n := min (s.readMem (c.save.toNat + 24) 8) c.bkcap
      let cls := c.clusterList
      let at_ := fun (i : Nat) => c.save.toNat + 256 + 110592 * i
      let s := ((List.range cls.length).zip cls).foldl (fun s p =>
        let s := s.loadImage (at_ p.1) p.2
        let s := s.resumeAll ctx p.2 (at_ p.1)
        if p.2 % 4 = 0 then s.loadWalker (at_ p.1) (p.2 / 4) else s) s
      let s := ((s.flushCtx ctx).modCtx ctx fun c => { c with st := .running, saved := [], backing := [], tokHeld := false }).headState ctx
      let s := (List.range n).foldl (fun s i => s.replayEntry ctx (back + 64 * i) c.backing[i]?) s
      let s := s.deliverParked ctx
      let s := if !c.tokOn then s.post (.tokenStart ctx) else if c.tokHeld then s.post (.surveyVisit ctx) else s
      let s := match c.ckpt with
        | some k => if k.started then s.post (.archivePage ctx k.next) else s
        | none => s
      cls.foldl State.rekick s)

/-! ### Teardown (R385) -/

/-- A context emptied: rounds sealed, keys, holds and watches freed, the rectangle's scratchpads and tiles cleared, but for the
clusters on which another context stands (log 93); its token no longer counts among those that circulate (R187). -/
def State.tear (s : State) (x : Nat) : State :=
  let c := s.ctx x
  let s := s.flushCtx x
  let lines := (List.range 96).flatMap fun sl => ((s.slice sl).lines.filter fun l => l.ctx = x).map fun l => l.pa
  let s := lines.foldl (fun s pa => (s.dsealAt x pa).2) s
  let s := (List.range 96).foldl (fun s sl => s.modSlice sl fun v => { v with
    keys := v.keys.filter fun e => e.ctx != x
    watches := v.watches.filter fun w => w.ctx != x }) s
  let cls := c.clusterList.filter fun cl => ((s.cluster cl).ctx.getD x) = x
  let cores := cls.flatMap coresOf
  let rs := (cls.map (· / 4)).eraseDups
  let s := cls.foldl (fun s cl => s.zeroMem (scratchPa cl 0) 0x80000) s
  let s := { s with
    clusters := cls.foldl (fun m cl => Map.put m cl ((s.cluster cl).lent x) {}) s.clusters
    cores := cores.foldl Map.erase s.cores
    walkers := rs.foldl Map.erase s.walkers
    abroad := s.abroad.filter fun p => abroadCtx p.1 != x
    ctxs := s.ctxs.erase x }
  let s := if c.tokOn then s.tokenFreed x else s
  rs.foldl (fun s i => s.modRouter (routerOfCompute i) fun r => { r with barrier := {}, holds := [], quadHeld := false }) s

/-! ### The words (R386) -/

/-- The result of a `ctxc` that moves a context, and the context moved (R377): `from` its state, `go` what it does. -/
def State.moveCtx (s : State) (d : BitVec 5) (x : Nat) (start : CtxState) (go : State → State) : State :=
  match (s.ctx x).st with
  | .freezing => s.lateResult d 1
  | .thawing => s.lateResult d 1
  | st => if st = start then (go s).lateResult d 0 else s.lateResult d 2

/-- ctxc.frz (R377, R386). -/
def execCtxcFrz (w : Bool) (d a : BitVec 5) (s : State) : Result State :=
  ctxcWord (.ctxcFrz w d a) a 0xFFFFFFFFFFFF00FF (fun x _ s => s.moveCtx d x .running fun s => s.freeze x) s

/-- ctxc.thaw (R377, R386). -/
def execCtxcThaw (w : Bool) (d a : BitVec 5) (s : State) : Result State :=
  ctxcWord (.ctxcThaw w d a) a 0xFFFFFFFFFFFF00FF (fun x _ s => s.moveCtx d x .frozen fun s =>
    ((s.modCtx x fun c => { c with st := .thawing }).headState x).postIn 4096 (.thawDone x)) s

/-- ctxc.tear (R377, R385, R386). -/
def execCtxcTear (w : Bool) (d a : BitVec 5) (s : State) : Result State :=
  ctxcWord (.ctxcTear w d a) a 0xFFFFFFFFFFFF00FF (fun x _ s => s.moveCtx d x .frozen fun s => s.tear x) s

end Sys2Proof.Machine
end

