-- ==== Sys2Proof/Machine/Registers.lean ====
section
/-! DEFINITION. The machine registers as the device takes their writes: bank windows and slice columns (R254 to R257), night
log and links (R404, R405, R410, R411), containment (R411 to R414), register pages (R416, R418, R419). -/

namespace Sys2Proof.Machine

open Sys2Proof

/-! ### Bank windows and columns (R254 to R257) -/

/-- SLSTAT: whether a switch is in progress (R255). -/
def State.slSettle (s : State) : State := { s with slbusy := !s.slwinNew.isEmpty || s.slcolsNew.isSome }

/-- slwin written: the switch of the selected slice begins (R254); it takes the time the spec allows it (log 7). -/
def execSlwinWrite (v : Word) (s : State) : Result State :=
  .next (
    if 96 ≤ s.slsel || v &&& csrZero 0x241 != 0 then s
    else
      let s := { s with slwinNew := s.slwinNew.set s.slsel (v.fld 1 0) }
      s.slSettle.postIn 65536 (.slwinSwitchDone s.slsel (BitVec.ofNat 2 (v.fld 1 0))))

/-- The switch of a slice ends: the window has its new size, and what lay beyond it is gone (R254). -/
def execSlwinSwitchDone (slice : Nat) (win : BitVec 2) (s : State) : Result State :=
  .next (
    if s.slwinNew.find slice != some win.toNat then s
    else
      let old := (s.slice slice).win
      let a := 0x10000000000 + slice * 0x400000
      let s := if win.toNat < old then s.zeroMem (a + win.toNat * 0x100000) ((old - win.toNat) * 0x100000) else s
      let s := s.modSlice slice fun q => { q with win := win.toNat }
      ({ s with slwinNew := s.slwinNew.erase slice } : State).slSettle)

/-- Whether a slice holds a key entry, a watch or an open holding line (R257). -/
def Slice.busy (v : Slice) : Bool := !v.keys.isEmpty || !v.watches.isEmpty || !v.lines.isEmpty

/-- Whether the machine is as a column switch asks: every resident context QUIET or frozen, every slice empty (R257). -/
def State.columnsMayMove (s : State) : Bool :=
  s.ctxs.all (fun p => p.2.st = .empty || p.2.st = .frozen || p.2.mer = atTick END) && s.slices.all fun p => !p.2.busy

/-- The first slice that is not empty (R257). -/
def State.firstBusy (s : State) : Option Nat := (List.range 96).find? fun i => (s.slice i).busy

/-- slcols written: ignored with fewer than two columns or while step 1 of R257 does not hold, which firmware is told with the
first slice that is not empty; else the switch begins (R255, R257). -/
def execSlcolsWrite (v : Word) (s : State) : Result State :=
  .next (
    let n := ((List.range 4).filter fun i => v.getLsbD i).length
    if v &&& csrZero 0x242 != 0 || n < 2 then s
    else if !s.columnsMayMove then s.fwNote .colbusy s.firstBusy.toList
    else
      let c := v.setWidth 4
      ({ s with slcolsNew := some c } : State).slSettle.post (.slcolsSwitch c))

/-- Every slice and translation unit changes its hash in one step (R256, R257). -/
def execSlcolsSwitch (cols : BitVec 4) (s : State) : Result State :=
  .next (if s.slcolsNew = some cols then ({ s with slcols := cols, slcolsNew := none } : State).slSettle else s)

/-- The first address of a slice's bank window (R113). -/
def windowBase (slice : Nat) : Nat := 0x10000000000 + slice * 0x400000

/-- The word that a scrubber reads next, and the cycles until then: a bank window's 393,216 words take 2^30 cycles, the 2^36 words
of HBM, of which it reads those homed at its slice, 2^36 (R404). -/
def scrubNext (slice addr : Nat) : Nat × Nat :=
  match region addr with
  | .window _ o => (if o + 16 ≤ 0x300000 then addr / 8 * 8 + 8 else windowBase slice, 2730)
  | _ => ((addr / 8 * 8 + 8) % 0x8000000000, 1)

/-- The patrol scrubber of a slice: a single-bit error of the word is corrected and logged if it is the slice's; then the next word
(R404). -/
def execPatrolScrub (slice addr : Nat) (s : State) : Result State :=
  .next (
    let n := scrubNext slice addr
    let s := if s.homeOf addr = slice && bankRegion addr false then s.correct (addr / 8 * 8) 8 false else s
    s.postIn n.2 (.patrolScrub slice n.1))

/-! ### Night log and links (R410, R411) -/

/-- nlctl written: a one in FRZ thaws every log (R410, R411). -/
def execNlctlWrite (v : Word) (s : State) : Result State :=
  .next (if v.fld 63 14 = 0 && v.fld 0 0 = 1 then { s with frz := false } else s)

/-- lnkst written: the selected link retrains at a rate (R405, R411). -/
def execLnkstWrite (v : Word) (s : State) : Result State :=
  .next (if v.fld 63 20 != 0 || v.fld 1 0 = 3 || 600 ≤ s.lnksel then s else s.retrainAt s.lnksel (v.fld 1 0))

/-! ### Containment (R411 to R414) -/

/-- The context that owns a rectangle. -/
def rectOwner (w : Word) : Nat := w.fld 23 16

/-- Whether two rectangles share a compute router. -/
def rectsMeet (a b : Word) : Bool := (List.range 144).any fun i => rectHas a i && rectHas b i

/-- Whether a value may stand as rectangle `n`: no bit beyond the layout, within its context's RECT, apart from the context's
other rectangles (R411). -/
def State.rectOk (s : State) (n : Nat) (v : Word) : Bool :=
  v.fld 63 25 = 0 &&
  (v.fld 24 24 = 0 ||
    (v.fld 3 0 + v.fld 11 8 < 12 && v.fld 7 4 + v.fld 15 12 < 12 &&
      (List.range 144).all (fun i => !rectHas v i || (s.ctx (rectOwner v)).hasCompute i) &&
      s.cnrect.all fun p => p.1 = n || rectOwner p.2 != rectOwner v || !rectsMeet p.2 v))

/-- The value of a rectangle's register taken, unless its FENCE is set or R411 ignores it. -/
def State.writeRect (s : State) (n : Nat) (v : Word) : State :=
  if (s.cnctl.get n 0).fld 0 0 = 1 || !s.rectOk n v then s else { s with cnrect := s.cnrect.set n v }

/-- cnrect written (R411). -/
def execCnrectWrite (v : Word) (s : State) : Result State := .next (s.writeRect s.cnsel v)

/-- FENCE of a rectangle set or cleared; injection inside goes on once it is cleared (R412). -/
def execCnctlFence (rect : Nat) (on : Bool) (s : State) : Result State :=
  .next (
    let s := { s with cnctl := s.cnctl.set rect (putFld (s.cnctl.get rect 0) 0 1 (if on then 1 else 0)) }
    if on then s
    else ((List.range 576).filter fun cl => rectHas (s.cnrect.get rect 0) (cl / 4)).foldl (fun s cl => s.post (.flitInject cl)) s)

/-- The releases of a core's `krel` words that have not left (R224, R228). -/
def State.sendHeldKeys (s : State) (k : Core) : State :=
  k.held.foldl (fun s p => match p.2.what with
    | .key key => s.sendKrel k.ctx k.entryCluster k.entryTag key
    | _ => s) s

/-- Whether a request of a core ends with its reset: it has not left the core whole, or it is answered, or it is for a command of its
queues. -/
def State.requestEnds (s : State) (c id : Nat) (r : MReq) : Bool :=
  (r.engine.any fun e => e.1 = c) || r.core = c && (r.stage != 1 || (s.cluster (c / 4)).inject.any fun f => f.req = some id && f.fk = 0)

/-- A core stopped by a containment reset: its keys are released, its requests that have not left or are answered are dropped, its
engines and tiles are empty; the numbers it hands out go on (R224, R412). -/
def State.resetCore (s : State) (c : Nat) : State :=
  let k := s.core c
  let s := if k.run = .free || k.run = .held then s else (s.releaseKeys k).sendHeldKeys k
  let s := { s with
    reqs := s.reqs.filter fun p => !s.requestEnds c p.1 p.2
    queries := s.queries.filter fun q => q.core != c
    mcasts := s.mcasts.filter fun p => p.2.core != c }
  s.setCore c { mtag := k.mtag, seq := k.seq, epoch := k.epoch + 1, mseqs := k.mseqs }

/-- The next life of a timeline slot (R169, R412). -/
def Timeline.nextLife (t : Timeline) : Timeline :=
  if t.gen = 3 || t.st = .retired then { gen := 3, st := .retired } else { gen := t.gen + 1 }

/-- What the survey has counted as sent from a cluster and not seen received: messages not yet in the network, and those of
which the cluster's inbox holds the first flit (R188, R413). -/
def Cluster.lostMessages (k : Cluster) : Nat :=
  (k.inject.filter fun f => 2 ≤ f.fk && f.fk ≤ 5 && f.fi = 0).length +
  (k.inbox.filter fun p => p.2.st = .filling && p.2.mask.getLsbD 0).length

/-- Releases, withdrawals and cancellations that a fenced cluster has formed go to their desks from the fence, as it injects nothing
(R412, R414). -/
def State.fenceDesks (s : State) (fs : List Flit) : State :=
  fs.foldl (fun s f => match f.ev with
    | some (.deskKrel a b c d e) => s.post (.deskKrel a b c d e)
    | some (.deskKcancel a b c d e) => s.post (.deskKcancel a b c d e)
    | some (.wcancelAtSlice a b c d) => s.post (.wcancelAtSlice a b c d)
    | _ => s) s

/-- A cluster reset: entries abandoned, open out-slots closed at their receivers by promises from the boundary, everything empty,
its context kept; overflow records that stand for it are dropped (R412). -/
def State.resetCluster (s : State) (cl : Nat) : State :=
  let k := s.cluster cl
  let x := k.ctx.getD 0
  let s := k.entries.foldl (fun s p => s.dropEntry cl p.1 p.2) s
  let s := (List.range k.lostMessages).foldl (fun s _ => s.countReceived (routerOfCluster cl) x) s
  let s := s.fenceDesks (s.cluster cl).inject
  let s := k.outs.foldl (fun (s : State) p =>
    if p.2.v && p.2.st != 1 then s.offerIn 0 [s.abroadOr cl (128 + p.1) { flitTo (0xE00 + routerOfCluster cl) p.2.dcl 6 with
      cslot := BitVec.ofNat 7 p.2.din, cseq := BitVec.ofNat 8 p.2.nxt, pay := (atTick END).setWidth 128, ctx := x }]
    else s) s
  let s := s.zeroMem (scratchPa cl 0) 0x80000
  let s := s.modCtx x fun c => { c with ovf := c.ovf.filter fun o => o.cluster != cl }
  let s := { s with abroad := s.abroad.filter fun p => !(abroadCtx p.1 = x && p.1 / 256 % 1024 = cl) }
  s.setCluster cl {
    ctx := k.ctx, umtag := k.umtag
    tls := (List.range 16).foldl (fun m t => Map.put m t (k.tls.get t {}).nextLife {}) [] }

/-- The containment reset of a rectangle (R412): steps 2 to 5, after the drain of step 1. -/
def State.resetRect (s : State) (rect : Nat) : State :=
  let w := s.cnrect.get rect 0
  let rs := (List.range 144).filter (rectHas w)
  let cls := rs.flatMap fun i => (List.range 4).map (4 * i + ·)
  let s := (cls.flatMap coresOf).foldl State.resetCore s
  let s := cls.foldl State.resetCluster s
  let s := rs.foldl (fun s i =>
    (s.modRouter (routerOfCompute i) fun r => { r with barrier := {}, holds := [], quadHeld := false }).modWalker i fun q =>
      { q with tlb := [], records := [], inject := [] }) s
  { s with slices := s.slices.map fun p => (p.1, { p.2 with watches := p.2.watches.filter fun v => !cls.contains v.cluster }) }

/-- The first router of a rectangle, where its reset is logged. -/
def rectRouter (w : Word) : Nat := routerOfCompute (w.fld 3 0 * 12 + w.fld 7 4)

/-- RESET of a fenced rectangle written (R411, R412): the reset begins, and its steps follow the drain of step 1. -/
def execCnctlReset (rect : Nat) (s : State) : Result State :=
  .next (
    let v := s.cnctl.get rect 0
    if v.fld 0 0 = 0 || v.fld 1 1 = 1 then s
    else
      let w := s.cnrect.get rect 0
      let s := { s with cnctl := s.cnctl.set rect 3, cnapplied := s.cnapplied.filter (· != rect) }
      (s.logAt (rectRouter w) 0xB (0xE00 + rectRouter w) 0 (rectOwner w) (Word.of rect) 0).post (.containmentResetDone rect))

/-- Whether a flit in the network is still to complete before a rectangle's reset (step 1 of R412): it came from inside, or is bound for
the inside and stands there. A survey token goes on, and a NAK of the boundary is none of the traffic that was there. -/
def flitWithin (w : Word) (router : Nat) (f : Flit) : Bool :=
  let inside := fun (r : Nat) => match computeOfRouter r with
    | some i => rectHas w i
    | none => false
  f.fk != 10 && f.fk != 11 && (inside (routerOfSrc f.src) || (inside f.dr && inside router))

/-- Whether the flits that a rectangle's reset waits for have completed (R412). -/
def State.rectDrained (s : State) (w : Word) : Bool :=
  s.routers.all (fun p => p.2.flits.all fun f => !flitWithin w p.1 f) &&
  s.links.all fun p => p.2.buffer.all fun b => !flitWithin w b.1 b.2.1

/-- A containment reset goes on (R412): the drain of step 1 is awaited, steps 2 to 5 are made, and the end, due within the bound of the
rule (log 7), sets DONE, with the log entry and the note NAKR. -/
def execContainmentResetDone (rect : Nat) (s : State) : Result State :=
  .next (
    let v := s.cnctl.get rect 0
    let w := s.cnrect.get rect 0
    if v.fld 1 1 = 0 then s
    else if !s.cnapplied.contains rect then
      if s.rectDrained w then ({ s.resetRect rect with cnapplied := rect :: s.cnapplied } : State).postIn 4096 (.containmentResetDone rect)
      else s.postIn 1 (.containmentResetDone rect)
    else
      let s := { s with cnctl := s.cnctl.set rect (Word.of (v.fld 0 0 + 4)), cnapplied := s.cnapplied.filter (· != rect) }
      (s.logAt (rectRouter w) 0xB (0xE00 + rectRouter w) 0 (rectOwner w) (Word.of rect) 1).note (rectRouter w) (rectOwner w) 0xE 0xFFF
        (Word.of rect) 0)

/-! ### Register writes (R411, R416, R418, R419) -/

/-- A function's page. -/
def State.vf (s : State) (fn : Nat) : Vf := s.vfs.get fn {}
/-- A function's page changed. -/
def State.modVf (s : State) (fn : Nat) (f : Vf → Vf) : State := { s with vfs := s.vfs.set fn (f (s.vf fn)) }

/-- A machine register of the index kind written; bits beyond the layout make it ignored (R255, R411). -/
def State.indexWrite (s : State) (n : Nat) (v : Word) : State :=
  match n with
  | 0x240 => if v.toNat < 128 then { s with slsel := v.toNat } else s
  | 0x250 => if v.toNat < 256 then { s with nlsel := v.toNat } else s
  | 0x252 => if v.toNat < 16384 then { s with nlidx := v.toNat } else s
  | 0x254 => if v.toNat < 1024 then { s with lnksel := v.toNat } else s
  | 0x256 => if v.toNat < 32 then { s with cnsel := v.toNat } else s
  | _ => s

/-- A register of a function's page written; other offsets ignore writes (R418). -/
def State.pageWrite (s : State) (fn off : Nat) (v : Word) : State :=
  match off with
  | 0x08 => if v.fld 5 0 = 0 then s.modVf fn fun p => { p with rrbase := v } else s
  | 0x10 => if v.toNat < 65536 then s.modVf fn fun p => { p with rrcap := v } else s
  | 0x18 => s.post (.rrheadWrite fn v)
  | _ => s

/-- A register of the PF's page written (R419). -/
def State.pfWrite (s : State) (off : Nat) (v : Word) : State :=
  if off < 0x1000 then s.pageWrite 384 off v
  else if off < 0x1000 + 8 * 384 then (if off % 8 = 0 then s.post (.vfbindWrite ((off - 0x1000) / 8) v) else s)
  else match off with
    | 0x4008 => { s with fnbase := v }
    | 0x4010 => { s with fncap := v }
    | 0x4020 => s.post (.domidWrite v)
    | _ => s

/-- A register written (R158, R255, R411, R416, R418, R419); a route entry written makes its channel start anew. A threshold of the
throttle takes a fraction of its window (log 20). -/
def execRegisterWrite (r : DevReg) (v : Word) (s : State) : Result State :=
  .next (match r with
    | .csr n => s.indexWrite n.toNat v
    | .vf fn off => if fn < 384 then s.pageWrite fn off v else s
    | .pf off => s.pfWrite off v
    | .throttle i => if v.toNat ≤ 256 then { s with thr := s.thr.set i v.toNat } else s
    | .route fn entry => if fn < 385 && entry < 1024 then { s with routes := s.routes.set (fn * 1024 + entry) { w := v } } else s)

end Sys2Proof.Machine
end

