-- ==== Sys2Proof/Machine/Host.lean ====
section
/-! DEFINITION. The host's and the fabric's side of the device: post windows, replies, register pages, firmware requests
(R415 to R421), fabric frames and reduction windows (R422 to R424), module and bring-up (R425), creating a context (R57, R176,
R377). -/

namespace Sys2Proof.Machine

open Sys2Proof

/-! ### Post windows (R416, R417) -/

/-- The context a function is bound to, if resident (R417, R419): the firmware context for the PF. -/
def State.boundTo (s : State) (fn : Nat) : Option Nat :=
  let b := (s.vf fn).bind
  if 384 ≤ fn then some 0xFF
  else if b.fld 8 8 = 1 && (s.ctx (b.fld 7 0)).st != .empty then some (b.fld 7 0) else none

/-- The interface of a PCIe link in the survey (R188). -/
def linkIface (link : Nat) : Nat := 192 + link % 2

/-- Whether a route entry is valid (R416). -/
def Route.valid (r : Route) : Bool := r.w.fld 63 19 = 0 && r.w.fld 18 18 = 1 && r.w.fld 9 0 < 576
/-- Whether a route entry names no channel. -/
def Route.untimed (r : Route) : Bool := r.w.fld 17 17 = 1
/-- The cluster of a route entry. -/
def Route.cluster (r : Route) : Nat := r.w.fld 9 0
/-- The in-slot of a route entry. -/
def Route.slot (r : Route) : Nat := r.w.fld 16 10

/-- A context's cluster, wherever it stands: on its rectangle, or taken out of it while frozen. -/
def State.clusterOf (s : State) (x cl : Nat) : Cluster :=
  if (s.cluster cl).ctx = some x then s.cluster cl else (s.ctx x).images.get cl {}

/-- A window write dropped: counted, and the supervisor told the entry, by a note formed at the link (R47, R363, R417). -/
def State.dropPost (s : State) (fn entry link : Nat) : State :=
  let s := s.modVf fn fun p => { p with hpwcnt := p.hpwcnt + 1 }
  match s.boundTo fn with
  | none => s
  | some x => if x = 0xFF then s else s.note (linkIface link) x 0xC (Word.of entry) 0 0

/-- A message that enters the device from outside: counted as sent at its interface (R188), its flits offered to the router one in
a cycle; an event is one flit (R194). The spec gives such a message no MTAG: the model numbers it (DESIGN CHOICE, log 9). -/
def State.enterDevice (s : State) (iface src x cl fk slot cseq : Nat) (untimed : Bool) (sender : Nat) (r : Rec) : State :=
  let (id, s) := s.newId
  let f : Flit := { flitTo src cl fk with
    cslot := BitVec.ofNat 7 slot, cseq := BitVec.ofNat 8 cseq, mtag := BitVec.ofNat 8 id, ctx := x, untimed := untimed
    sender := some sender }
  (s.countSent iface x r.stamp).offerIn 0
    (if recKind r[0] = 2 && !untimed then [{ f with fk := 5, pay := r[2] ++ r[1] }] else recFlits f r)

/-- A promise or an ask that enters the device from outside, as a flit to its slot (R178, R185, R417, R423). -/
def State.enterFlit (s : State) (src x cl fk slot : Nat) (cseq : BitVec 8) (v : Word) : State :=
  s.offerIn 0 [{ flitTo src cl fk with cslot := BitVec.ofNat 7 slot, cseq := cseq, ctx := x, pay := v.setWidth 128 }]

/-- The tests of a window write that do not look at its record (R417): the bound context and the route entry, or none. -/
def State.window (s : State) (fn entry link : Nat) : Option (Nat × Route) :=
  match s.boundTo fn with
  | none => none
  | some x =>
    let e := s.routes.get (fn * 1024 + entry) {}
    if e.valid && entry < 1024 && (match e.link with
      | none => true
      | some l => l = link) then some (x, e) else none

/-- A record or a promise for firmware, by the PF's window (R415, R417): REQ or SYS, with the horizon of the entry's channel, whose
in-slot is firmware's. Firmware has what passes; it runs no program here (log 8). -/
def State.postFirmware (s : State) (entry link : Nat) (e : Route) (q : Rec) : State :=
  if recCheck q[0] q[7] q[6] q[5] != .ok || !(recClass q[0] = 0 || recClass q[0] = 3) || (!e.untimed && q.stamp.toNat < e.h.toNat) then
    s.dropPost 384 entry link
  else
    let e' : Route := { e with link := some link, seq := if e.untimed then e.seq else (e.seq + 1) % 2 ^ 32 }
    { s with routes := s.routes.set (384 * 1024 + entry) e', fwPosts := s.fwPosts ++ [q] }

/-- A write to a post window (R417): a message, a promise, or a write dropped; before READY it is dropped (R425). The PF's
window reaches the firmware context only. A record whose stamp has the tick END is no ground of R417 to drop it: it goes in (R167; DESIGN
CHOICE, log 148). -/
def execHostPostWrite (fn entry link : Nat) (r : List Word) (s : State) : Result State :=
  .next (
    if !s.devReady || 384 < fn then s
    else if r.length != 8 then s.dropPost fn entry link
    else if r.getD 0 0 = allOnes then s.post (.hostPromise fn entry link (r.getD 1 0))
    else match s.window fn entry link with
      | none => s.dropPost fn entry link
      | some (x, e) =>
        let q : Rec := Vector.ofFn fun i => r.getD i.val 0
        let h := ((s.clusterOf x e.cluster).ins.get e.slot {}).h
        if fn = 384 then s.postFirmware entry link e q
        else if recCheck q[0] q[7] q[6] q[5] != .ok || recClass q[0] != 0 || (!e.untimed && q.stamp.toNat < h.toNat) then
          s.dropPost fn entry link
        else
          let e' : Route := { e with link := some link, seq := if e.untimed then e.seq else (e.seq + 1) % 2 ^ 32 }
          let s := { s with routes := s.routes.set (fn * 1024 + entry) e' }
          s.enterDevice (linkIface link) (0xC00 + link % 2) x e.cluster 2 (if e.untimed then 0 else e.slot) (if e.untimed then 0 else e.seq)
            e.untimed 0xFFF q)

/-- A host promise: the horizon of its channel rises under R179 (R417). -/
def execHostPromise (fn entry link : Nat) (v : Word) (s : State) : Result State :=
  .next (
    if !s.devReady || 384 < fn then s
    else match s.window fn entry link with
      | none => s.dropPost fn entry link
      | some (x, e) =>
        if e.untimed then s.dropPost fn entry link
        else
          let e' : Route := { e with link := some link }
          if fn = 384 then
            { s with routes := s.routes.set (fn * 1024 + entry) { e' with h := if e.h.toNat < v.toNat then v else e.h } }
          else
            ({ s with routes := s.routes.set (fn * 1024 + entry) e' } : State).enterFlit (0xC00 + link % 2) x e.cluster 6 e.slot
              (BitVec.ofNat 8 e.seq) v)

/-! ### Register pages as the host reads them (R418, R419) -/

/-- The function and the context that a page shows: the PF's is that of the firmware context (R418, R419). -/
def State.ctxst (s : State) (fn : Nat) : Word :=
  let b := (s.vf fn).bind
  if 384 ≤ fn then Word.of (1 + 0xFF * 256 + 65536)
  else if b.fld 8 8 = 1 then Word.of ((s.ctx (b.fld 7 0)).st.code + b.fld 7 0 * 256 + 65536) else 0

/-- What the host reads in a function's page; offsets not listed read zero (R418). -/
def State.pageRead (s : State) (fn off : Nat) : Word :=
  let p := s.vf fn
  match off with
  | 0x00 => s.ctxst fn
  | 0x08 => p.rrbase
  | 0x10 => p.rrcap
  | 0x18 => p.rrhead
  | 0x20 => p.rrtail
  | 0x28 => p.hpwcnt
  | 0x30 => p.note
  | _ => 0

/-- What the host reads in the PF's page (R419). -/
def State.pfRead (s : State) (off : Nat) : Word :=
  if off < 0x1000 then s.pageRead 384 off
  else if off < 0x1000 + 8 * 384 then (if off % 8 = 0 then (s.vf ((off - 0x1000) / 8)).bind else 0)
  else match off with
    | 0x4000 => Word.of ((if s.devReady then 1 else 0) + s.domid.toNat % 256 * 256)
    | 0x4008 => s.fnbase
    | 0x4010 => s.fncap
    | 0x4018 => s.fntail
    | 0x4020 => s.domid
    | _ => 0

/-! ### Replies to the host (R420) -/

/-- The reply at the head of a core's send queue written to the reply ring once released, RRTAIL after it; it waits while
the ring is full, and is a dead letter without a ring (R420). R192 names no timeline and no in-slot for that dead letter: its word 8
holds 0xFFFF and 0 there (DESIGN CHOICE, log 126). One with an error that cannot be corrected raises a machine-check and is lost
(R408, log 119). -/
def execHostReplyWrite (core : Nat) (s : State) : Result State :=
  .next (
    let k := s.core core
    match k.sendQ with
    | [] => s
    | e :: t =>
      if !e.host || !e.free k || k.run = .stopped then s
      else
        let gone := fun (s : State) => (s.modCore core fun k => { k with sendQ := t }).kick core
        if e.err then gone (s.machineCheck .sendQueue (routerOfSrc core) core k.ctx e.r[0])
        else
        let s := if e.soft then s.softLog (routerOfSrc core) core k.ctx e.r[0] else s
        let dead := fun (s : State) => gone (s.deadLetter (routerOfSrc core) k.ctx e.r 0xFFFF 0 4 core)
        match s.fnOf k.ctx with
        | none => dead s
        | some fn =>
          let p := s.vf fn
          if p.rrcap = 0 then dead s
          else if p.rrtail - p.rrhead = p.rrcap then s
          else
            let a := 0x4000000000000 + (p.rrbase.toNat + 64 * (p.rrtail.toNat % p.rrcap.toNat)) % 2 ^ 50
            let s := s.writeMem a 64 e.r.bytes
            let s := s.modVf fn fun p => { p with rrtail := p.rrtail + 1 }
            gone ((s.countSent (routerOfSrc core) k.ctx e.r.stamp).countReceived (linkIface (fn / 192 % 2)) k.ctx))

/-- RRHEAD written: replies that wait may be written (R420). -/
def execRrheadWrite (fn : Nat) (v : Word) (s : State) : Result State :=
  .next (
    let s := s.modVf fn fun p => { p with rrhead := v }
    match s.boundTo fn with
    | none => s
    | some x => ((s.ctx x).coreList).foldl (fun s c => match (s.core c).sendQ with
        | [] => s
        | e :: _ => if e.host then s.post (.hostReplyWrite c) else s) s)

/-- The functions bound to resident contexts. -/
def State.boundFns (s : State) : List Nat := (List.range 384).filter fun f => (s.boundTo f).isSome

/-- VFBIND written; ignored while the bound context is resident (R419), and where 144 functions are bound to resident contexts
already (R17, R419: DESIGN CHOICE, log 125). -/
def execVfbindWrite (fn : Nat) (v : Word) (s : State) : Result State :=
  .next (if 384 ≤ fn || (s.boundTo fn).isSome || (v.fld 8 8 = 1 && 144 ≤ s.boundFns.length) then s else s.modVf fn fun p => { p with bind := v &&& 0x1FF })

/-- DOMID written, while READY is 0 (R419). -/
def execDomidWrite (v : Word) (s : State) : Result State :=
  .next (if s.devReady then s else { s with domid := v &&& 0xFF })

/-! ### Firmware requests (R421) -/

/-- The lowest rectangle number that no context uses. -/
def State.freeRect (s : State) : Option Nat := (List.range 32).find? fun n => (s.cnrect.get n 0).fld 24 24 = 0

/-- CODE 1: the context's rectangle list replaced by the values given, as far as R411 takes them. -/
def State.requestRects (s : State) (x : Nat) (vs : List Word) : State :=
  let mine := s.cnrect.filter fun p => p.2.fld 24 24 = 1 && rectOwner p.2 = x
  let s := mine.foldl (fun s p => s.writeRect p.1 0) s
  vs.foldl (fun s v =>
    if v.fld 24 24 = 1 && rectOwner v = x then
      match s.freeRect with
      | some n => s.writeRect n v
      | none => s
    else s) s

/-- Firmware takes an entry of a context's request ring, and HEAD moves past it (R421). -/
def execFirmwareRequestTake (ctx : Nat) (s : State) : Result State :=
  .next (
    let c := s.ctx ctx
    let a := c.save.toNat - 4096
    let s := s.deviceRead a 16
    let tail := s.readMem a 8
    let head := s.readMem (a + 8) 8
    if c.st = .empty || c.save.toNat < 4096 || head = tail then s
    else
      let e := a + 64 + 64 * (head % 63)
      let s := s.deviceRead e 64
      let s := match s.readMem e 1 with
        | 1 => s.requestRects ctx ((List.range 6).map fun i => Word.of (s.readMem (e + 8 + 8 * i) 8))
        | 2 => s.fwNote .host (ctx :: (List.range 7).map fun i => s.readMem (e + 8 + 8 * i) 8)
        | _ => s
      (((s.touch (a + 8)).preserveAll (a + 8)).bankWrite (a + 8) 8 ((head + 1) % 2 ^ 64) 0xB00 0xFF).postIn 1 (.firmwareRequestTake ctx))

/-! ### Fabric (R422, R423) -/

/-- The context of a frame that a fabric port takes for a cluster's slot: that of the port table's entry for the slot, the cluster's
present owner where the table names it too or names none (R378, R423, log 109). -/
def State.frameCtx (s : State) (port cl n : Nat) : Nat :=
  let xs := (s.abroad.filter fun p => p.1 % 2 ^ 18 = cl * 256 + n && s.peerPort p.2.1 = port % 24).map fun p => abroadCtx p.1
  let own := (s.cluster cl).ctx.getD 0xFF
  if xs.contains own then own else xs.headD own

/-- The flit kind of a message of a class (R144). -/
def classKind (cls : Nat) : Nat := if cls = 1 then 3 else if cls = 3 then 4 else 2

/-- A frame taken by a fabric port: a message enters the network and counts as sent at the port; promises and asks go to
their slots as flits (R423). A link that retrains carries it once that is over; one that is DOWN carries none (R405, log 109). -/
def execFabricFrameArrival (port : Nat) (frame : Frame) (s : State) : Result State :=
  .next (
    let l := s.portLink (port % 24)
    let src := 0xD00 + port % 24
    if l.down then s
    else if l.retrain then s.postIn (max 1 (l.trainAt - s.cycle)) (.fabricFrameArrival port frame)
    else match frame with
      | .message cluster slot cseq sender r =>
        let q : Rec := Vector.ofFn fun i => r.getD i.val 0
        s.enterDevice (194 + port % 24) src (s.frameCtx port cluster slot) cluster (classKind (recClass q[0])) slot cseq.toNat false
          sender.toNat q
      | .promise cluster slot cseq v => s.enterFlit src (s.frameCtx port cluster slot) cluster 6 slot cseq v
      | .ask cluster out => s.enterFlit src (s.frameCtx port cluster (128 + out)) cluster 7 out 0 0)

/-! ### Reduction windows (R424) -/

/-- OP of a window. -/
def Window.op (q : Window) : Nat := (q.desc.getD 1 0).fld 39 36
/-- The bytes of an element. -/
def Window.elem (q : Window) : Nat := match q.op with
  | 1 => 2
  | 3 => 8
  | _ => 4
/-- The contributors, ascending. -/
def Window.devices (q : Window) : List Nat := (List.range 256).filter q.names

/-- Whether a descriptor is valid (R424). -/
def Window.valid (q : Window) : Bool :=
  let d := fun (i : Nat) => q.desc.getD i 0
  let size := (d 1).fld 63 40
  let n := (d 1).fld 34 26
  q.desc.length = 8 && 1 ≤ size && size ≤ 262144 && q.op ≤ 4 && 2 ≤ n && n ≤ 256 && q.devices.length = n &&
  (d 0).fld 5 0 = 0 && (d 1).fld 25 0 = 0 && (d 6).fld 63 52 = 0 && d 7 = 0

/-- A descriptor set by the PF; an invalid one is ignored (R424). -/
def execReductionDescriptorWrite (ws : List Word) (s : State) : Result State :=
  .next (
    let q : Window := { desc := ws, gen := BitVec.ofNat 2 ((ws.getD 0 0).fld 55 54) }
    if q.valid then { s with windows := s.windows.set ((ws.getD 0 0).fld 53 48) q } else s)

/-- The sum of two elements (R424). -/
def Window.add (q : Window) (a b : Nat) : Nat :=
  match q.op with
  | 0 => ((fmtD 0).add 0 a b).1
  | 1 => ((fmtD 3).add 0 a b).1
  | 4 => (fmtD 0).minMax true a b
  | _ => (a + b) % 256 ^ q.elem

/-- The values an element holds, in ascending device id, added (R424). -/
def Window.total (q : Window) (o : Nat) : Nat :=
  let vs := q.devices.filterMap fun d => (q.got.find? fun g => g.1 = o && g.2.1 = d).map fun g => g.2.2
  match vs with
  | [] => 0
  | v :: t => t.foldl q.add v

/-- A device's physical address as this device names it: its own, or a peer's (R113). -/
def State.addressAt (s : State) (dev pa : Nat) : Nat :=
  if dev = s.domid.toNat then pa else 0x8000000000000 + dev * 2 ^ 42 + pa

/-- One element of a contribution taken: a second one of a device is discarded; with the last of the N, the sum is written to
HOME, and with BCAST to each contributor; with the last element DRC counts (R424). A page declared to a checkpoint is preserved
first (R390). -/
def State.takeElement (s : State) (w dev o v : Nat) : State :=
  match s.windows.find w with
  | none => s
  | some q =>
    if q.done.contains o || q.got.any fun g => g.1 = o && g.2.1 = dev then s
    else
      let q := { q with got := q.got ++ [(o, dev, v)] }
      if (q.got.filter fun g => g.1 = o).length < q.devices.length then { s with windows := s.windows.set w q }
      else
        let d0 := q.desc.getD 0 0
        let home := d0.fld 63 56
        let targets := home :: (if (q.desc.getD 1 0).getLsbD 35 then q.devices.filter (· != home) else [])
        let sum := q.total o
        let q := { q with got := q.got.filter fun g => g.1 != o, done := o :: q.done }
        let s := { s with windows := s.windows.set w q }
        let s := targets.foldl (fun (s : State) d =>
          let pa := s.addressAt d (d0.fld 47 0 + o)
          ((s.touch pa).preserveAll pa).bankWrite pa q.elem sum 0xD00 0xFF) s
        let drc := s.addressAt home ((q.desc.getD 6 0).fld 51 0)
        if q.done.length * q.elem = q.size then (((s.touch drc).preserveAll drc).addCounter drc 1).2 else s

/-- A contribution at the switch: an older generation is discarded and counted; each whole element of it is taken
(R424). -/
def execReductionContribution (window device offset size : Nat) (gen : BitVec 2) (data : BitVec 512) (s : State) : Result State :=
  .next (match s.windows.find window with
    | none => s
    | some q =>
      if q.size ≤ offset || !q.names device then s
      else if gen != q.gen && gen - q.gen != 1 then { s with windows := s.windows.set window { q with drops := q.drops + 1 } }
      else
        let s := if gen = q.gen then s else { s with windows := s.windows.set window { q with gen := gen, got := [], done := [] } }
        let e := q.elem
        (List.range (size / e)).foldl (fun s j =>
          if offset % e = 0 then s.takeElement window device (offset + e * j) (data.toNat / 256 ^ (e * j) % 256 ^ e) else s) s)

/-! ### Module and bring-up (R425) -/

/-- A junction at 105 °C: firmware writes THERM and lowers the clock (R425). -/
def execThermalTrip (s : State) : Result State := .next (({ s with throttled := true } : State).fwNote .therm [])

/-- The junction below 95 °C: the clock returns (R425). -/
def execThermalRecover (s : State) : Result State := .next { s with throttled := false }

/-- The management cores begin to run, from flash (R425, log 8). -/
def State.bootManagement (s : State) : State :=
  (List.range 4).foldl (fun s i => s.modCore (0xB00 + i) fun k =>
    { k with run := .running, pc := Config.bootPc i, ready := s.cycle }) s

/-- Bring-up after PERST# is released: the management cores boot, every slice at WIN 0 with every column powered, READY set (R425); the scrubbers of every
slice's window and of its part of HBM begin (R404). -/
def execPerstRelease (s : State) : Result State :=
  .next (
    if s.devReady then s
    else
      ({ s.bootManagement with
        slices := s.slices.map fun p => (p.1, { p.2 with win := 0 })
        slwinNew := [], slcolsNew := none, slbusy := false, slcols := 15, devReady := true } : State).posts
        ((List.range 96).flatMap fun i => [.patrolScrub i (windowBase i), .patrolScrub i 0]))

/-! ### Creating a context (R57, R176, R362, R377) -/

/-- The descriptor of a new context (R362): WDOG at its starting value, no DFPEN, the queues empty. -/
def launchCtx (l : Launch) : Ctx :=
  { st := .running, ptroot := l.ptroot, row := l.row, col := l.col, height := l.height, width := l.width, ctrb := l.ctrb
    catbase := l.catbase, tvec := l.tvec, suph := l.suph, supcl := l.supcl, wdog := 2 ^ 20, lopen := l.lopen, oqbase := l.oqbase
    oqcap := l.oqcap, dlbase := l.dlbase, dlcap := l.dlcap, save := l.save, bkcap := l.bkcap }

/-- A declared timeline placed, IDLE with INTAKE ⟨0.0⟩ (R176). The spec states no starting H of its open port: the model gives
⟨L_open.0⟩ (DESIGN CHOICE, log 127). -/
def State.launchTimeline (s : State) (c : Ctx) (t : LaunchTimeline) : State :=
  s.placeTimeline (c.clusterAt t.cluster) (t.slot % 16) (t.handler.setWidth 64) 0 t.openPort (atTick c.lopen.toNat)

/-- A declared channel of a context opened at both ends (R174 to R176), its in-slot with H ⟨L.0⟩; where its other end is on another device,
the port table names it (R423). -/
def State.launchChannel (s : State) (x : Nat) (c : Ctx) (h : LaunchChannel) : State :=
  let dcl := c.clusterAt h.cluster
  let h0 := atTick h.look.toNat
  let gen := ((s.cluster dcl).tls.get h.slot {}).gen
  let i : InSlot := { v := true, st := 1, bulk := h.bulk, rank := h.rank.toNat, tls := h.slot, gen := gen }
  match h.source with
  | none =>
    let i := { i with scl := 0x3FF, h := if h.dev.isSome then h0 else 0 }
    let s := s.modCluster dcl fun k => { k with ins := k.ins.set h.inSlot i }
    match h.dev with
    | none => s
    | some d => { s with abroad := s.abroad.set (abroadKey x dcl h.inSlot) d }
  | some (src, own, out) =>
    let scl := c.clusterAt src
    let o : OutSlot := {
      v := true, st := 2, bulk := h.bulk, rank := h.rank.toNat, own := own, dcl := dcl, din := h.inSlot, q := h.quantum.toNat
      l := h.look.toNat, lastp := h0 }
    match h.dev with
    | none =>
      let s := s.modCluster dcl fun k => { k with ins := k.ins.set h.inSlot { i with h := h0, scl := scl, sout := out } }
      s.modCluster scl fun k => { k with outs := k.outs.set out o }
    | some d =>
      ({ s with abroad := s.abroad.set (abroadKey x scl (128 + out)) d } : State).modCluster scl fun k =>
        { k with outs := k.outs.set out { o with dcl := d.2.1, din := d.2.2 } }

/-- Whether firmware may place a context: its id is one of the 144 and EMPTY, its rectangle lies in the array and no other context
runs on it (R17, R57, R89, R377, R379). -/
def State.mayCreate (s : State) (x : Nat) (l : Launch) : Bool :=
  x < 144 && (s.ctx x).st = .empty && 1 ≤ l.height && 1 ≤ l.width && l.row + l.height ≤ 12 && l.col + l.width ≤ 12 &&
  (launchCtx l).clusterList.all fun cl => match (s.cluster cl).ctx with
    | none => true
    | some y => (s.ctx y).st = .frozen

/-- Firmware creates a context: EMPTY to RUN, its images in memory, its descriptor, timelines and channels in place (R57,
R176, R377). -/
def execContextCreate (ctx : Nat) (l : Launch) (s : State) : Result State :=
  .next (
    if !s.mayCreate ctx l then s
    else
      let c := launchCtx l
      let cls := c.clusterList
      let owners := (cls.filterMap fun cl => (s.cluster cl).ctx).eraseDups
      let s := owners.foldl State.unitsOut s
      let s := cls.foldl (fun s cl => s.modCluster cl fun k => { inbox := k.inbox, ctx := some ctx }) s
      let s := { s with
        cores := (cls.flatMap coresOf).foldl Map.erase s.cores
        walkers := c.computeList.foldl Map.erase s.walkers
        routers := s.routers.map fun p => (p.1, { p.2 with surv := p.2.surv.erase ctx })
        abroad := s.abroad.filter fun p => abroadCtx p.1 != ctx
        ctxs := s.ctxs.set ctx c }
      let s := l.image.foldl (fun s b => (s.preserveAll b.1).deviceWrite b.1 1 b.2.toNat) s
      let s := l.timelines.foldl (fun s t => s.launchTimeline c t) s
      l.channels.foldl (fun s h => s.launchChannel ctx c h) s)

end Sys2Proof.Machine
end

