-- ==== Sys2Proof/Machine/Scalar.lean ====
section
/-! DEFINITION. Integer words: the ALU family, sel, the bit-field words, the immediate forms, lui and auipc (R92 to
R96). Every one writes its register whole and never traps after decode. -/

namespace Sys2Proof.Machine

open Sys2Proof

/-- B[5:0], the shift amount (R92). -/
def shamt (B : Word) : Nat := B.toNat % 64

/-- A condition as 0 or 1. -/
def bit (b : Bool) : Word := if b then 1 else 0

/-- Bits [127:64] of signed A times signed B. -/
def mulhSigned (A B : Word) : Word := BitVec.ofInt 64 (A.toInt * B.toInt / 2 ^ 64)

/-- Signed division truncated toward zero; all ones by zero; -2^63 by -1 gives -2^63 (R82). -/
def divSigned (A B : Word) : Word := if B = 0 then allOnes else BitVec.ofInt 64 (A.toInt.tdiv B.toInt)

/-- The remainder with the sign of the dividend; the dividend by zero (R82). -/
def remSigned (A B : Word) : Word := if B = 0 then A else BitVec.ofInt 64 (A.toInt.tmod B.toInt)

/-- The number of leading zero bits; 64 for 0. -/
def clzOf (A : Word) : Word := Word.of (64 - bitLen A.toNat)

/-- The number of zero bits below the lowest one bit among the low `n` bits of `A` from bit 64 - n on. -/
def ctzFrom (A : Word) : Nat → Nat
  | 0 => 64
  | n + 1 => if A.getLsbD (63 - n) then 63 - n else ctzFrom A n

/-- The number of trailing zero bits; 64 for 0. -/
def ctzOf (A : Word) : Word := Word.of (ctzFrom A 64)

/-- The number of one bits among the low `n`. -/
def onesBelow (A : Word) : Nat → Nat
  | 0 => 0
  | n + 1 => onesBelow A n + (if A.getLsbD n then 1 else 0)

/-- The number of one bits. -/
def popcOf (A : Word) : Word := Word.of (onesBelow A 64)

/-- A word of three registers whose result is a function of two. -/
def alu3 (i : Instr) (d a b : BitVec 5) (f : Word → Word → Word) (s : State) : Result State :=
  word i (fun s => s.result d (f (s.me.get a) (s.me.get b))) s

/-- A word of two registers. -/
def alu2 (i : Instr) (d a : BitVec 5) (f : Word → Word) (s : State) : Result State :=
  word i (fun s => s.result d (f (s.me.get a))) s

/-- add: A + B mod 2^64 (R92). -/
def execAdd (w : Bool) (d a b : BitVec 5) (s : State) : Result State :=
  alu3 (.add w d a b) d a b (fun A B => A + B) s

/-- sub: A - B mod 2^64 (R92). -/
def execSub (w : Bool) (d a b : BitVec 5) (s : State) : Result State :=
  alu3 (.sub w d a b) d a b (fun A B => A - B) s

/-- mul: A times B mod 2^64 (R92). -/
def execMul (w : Bool) (d a b : BitVec 5) (s : State) : Result State :=
  alu3 (.mul w d a b) d a b (fun A B => A * B) s

/-- mulh: bits [127:64] of the signed product (R92). -/
def execMulh (w : Bool) (d a b : BitVec 5) (s : State) : Result State :=
  alu3 (.mulh w d a b) d a b (fun A B => mulhSigned A B) s

/-- mulhu: bits [127:64] of the unsigned product (R92). -/
def execMulhu (w : Bool) (d a b : BitVec 5) (s : State) : Result State :=
  alu3 (.mulhu w d a b) d a b (fun A B => Word.of (A.toNat * B.toNat / 2 ^ 64)) s

/-- div: the signed quotient, cases of R82 (R92). -/
def execDiv (w : Bool) (d a b : BitVec 5) (s : State) : Result State :=
  alu3 (.div w d a b) d a b (fun A B => divSigned A B) s

/-- divu: the unsigned quotient; all ones by zero (R92). -/
def execDivu (w : Bool) (d a b : BitVec 5) (s : State) : Result State :=
  alu3 (.divu w d a b) d a b (fun A B => if B = 0 then allOnes else A / B) s

/-- rem: the signed remainder, cases of R82 (R92). -/
def execRem (w : Bool) (d a b : BitVec 5) (s : State) : Result State :=
  alu3 (.rem w d a b) d a b (fun A B => remSigned A B) s

/-- remu: the unsigned remainder; the dividend by zero (R92). -/
def execRemu (w : Bool) (d a b : BitVec 5) (s : State) : Result State :=
  alu3 (.remu w d a b) d a b (fun A B => if B = 0 then A else A % B) s

/-- and: A & B (R92). -/
def execAnd (w : Bool) (d a b : BitVec 5) (s : State) : Result State :=
  alu3 (.and w d a b) d a b (fun A B => A &&& B) s

/-- or: A | B (R92). -/
def execOr (w : Bool) (d a b : BitVec 5) (s : State) : Result State :=
  alu3 (.or w d a b) d a b (fun A B => A ||| B) s

/-- xor: A ^ B (R92). -/
def execXor (w : Bool) (d a b : BitVec 5) (s : State) : Result State :=
  alu3 (.xor w d a b) d a b (fun A B => A ^^^ B) s

/-- andn: A & ~B (R92). -/
def execAndn (w : Bool) (d a b : BitVec 5) (s : State) : Result State :=
  alu3 (.andn w d a b) d a b (fun A B => A &&& ~~~B) s

/-- orn: A | ~B (R92). -/
def execOrn (w : Bool) (d a b : BitVec 5) (s : State) : Result State :=
  alu3 (.orn w d a b) d a b (fun A B => A ||| ~~~B) s

/-- sll: A shifted left by B[5:0] (R92). -/
def execSll (w : Bool) (d a b : BitVec 5) (s : State) : Result State :=
  alu3 (.sll w d a b) d a b (fun A B => A <<< shamt B) s

/-- srl: A shifted right by B[5:0], zeros in (R92). -/
def execSrl (w : Bool) (d a b : BitVec 5) (s : State) : Result State :=
  alu3 (.srl w d a b) d a b (fun A B => A >>> shamt B) s

/-- sra: A shifted right by B[5:0], copies of A[63] in (R92). -/
def execSra (w : Bool) (d a b : BitVec 5) (s : State) : Result State :=
  alu3 (.sra w d a b) d a b (fun A B => A.sshiftRight (shamt B)) s

/-- rol: A rotated left by B[5:0] (R92). -/
def execRol (w : Bool) (d a b : BitVec 5) (s : State) : Result State :=
  alu3 (.rol w d a b) d a b (fun A B => A.rotateLeft (shamt B)) s

/-- min: the signed minimum (R92). -/
def execMin (w : Bool) (d a b : BitVec 5) (s : State) : Result State :=
  alu3 (.min w d a b) d a b (fun A B => if A.slt B then A else B) s

/-- max: the signed maximum (R92). -/
def execMax (w : Bool) (d a b : BitVec 5) (s : State) : Result State :=
  alu3 (.max w d a b) d a b (fun A B => if A.slt B then B else A) s

/-- minu: the unsigned minimum (R92). -/
def execMinu (w : Bool) (d a b : BitVec 5) (s : State) : Result State :=
  alu3 (.minu w d a b) d a b (fun A B => if A.ult B then A else B) s

/-- maxu: the unsigned maximum (R92). -/
def execMaxu (w : Bool) (d a b : BitVec 5) (s : State) : Result State :=
  alu3 (.maxu w d a b) d a b (fun A B => if A.ult B then B else A) s

/-- slt: 1 if signed A < B (R92). -/
def execSlt (w : Bool) (d a b : BitVec 5) (s : State) : Result State :=
  alu3 (.slt w d a b) d a b (fun A B => bit (A.slt B)) s

/-- sltu: 1 if unsigned A < B (R92). -/
def execSltu (w : Bool) (d a b : BitVec 5) (s : State) : Result State :=
  alu3 (.sltu w d a b) d a b (fun A B => bit (A.ult B)) s

/-- seq: 1 if A = B (R92). -/
def execSeq (w : Bool) (d a b : BitVec 5) (s : State) : Result State :=
  alu3 (.seq w d a b) d a b (fun A B => bit (A == B)) s

/-- clz: the number of leading zero bits (R92). -/
def execClz (w : Bool) (d a : BitVec 5) (s : State) : Result State := alu2 (.clz w d a) d a clzOf s

/-- ctz: the number of trailing zero bits (R92). -/
def execCtz (w : Bool) (d a : BitVec 5) (s : State) : Result State := alu2 (.ctz w d a) d a ctzOf s

/-- popc: the number of one bits (R92). -/
def execPopc (w : Bool) (d a : BitVec 5) (s : State) : Result State := alu2 (.popc w d a) d a popcOf s

/-- sel: s[a] if s[c] is nonzero, else s[b] (R93). -/
def execSel (w : Bool) (d a b c : BitVec 5) (s : State) : Result State :=
  word (.sel w d a b c) (fun s => s.result d (if s.me.get c != 0 then s.me.get a else s.me.get b)) s

/-- The field of `len` bits at `pos` (R94). -/
def fieldOf (v : Word) (pos len : Nat) : Nat := v.toNat / 2 ^ pos % 2 ^ len

/-- ext: the field zero-extended (R94); `l` is len - 1. -/
def execExt (w : Bool) (d a : BitVec 5) (l p : BitVec 6) (s : State) : Result State :=
  alu2 (.ext w d a l p) d a (fun A => Word.of (fieldOf A p.toNat (l.toNat + 1))) s

/-- exts: the field sign-extended (R94). -/
def execExts (w : Bool) (d a : BitVec 5) (l p : BitVec 6) (s : State) : Result State :=
  alu2 (.exts w d a l p) d a (fun A =>
    let f := fieldOf A p.toNat (l.toNat + 1)
    Word.of (if f / 2 ^ l.toNat = 1 then 2 ^ 64 - 2 ^ (l.toNat + 1) + f else f)) s

/-- ins: the low `len` bits of s[a] put into s[d] at `pos` (R94). -/
def execIns (w : Bool) (d a : BitVec 5) (l p : BitVec 6) (s : State) : Result State :=
  word (.ins w d a l p) (fun s =>
    s.result d (putFld (s.me.get d) p.toNat (l.toNat + 1) (s.me.get a).toNat)) s

/-- addi: A plus the immediate (R95). -/
def execAddi (w : Bool) (d a : BitVec 5) (i : BitVec 14) (s : State) : Result State :=
  alu2 (.addi w d a i) d a (fun A => A + imm14 i) s

/-- andi: A & the immediate (R95). -/
def execAndi (w : Bool) (d a : BitVec 5) (i : BitVec 14) (s : State) : Result State :=
  alu2 (.andi w d a i) d a (fun A => A &&& imm14 i) s

/-- ori: A | the immediate (R95). -/
def execOri (w : Bool) (d a : BitVec 5) (i : BitVec 14) (s : State) : Result State :=
  alu2 (.ori w d a i) d a (fun A => A ||| imm14 i) s

/-- xori: A ^ the immediate (R95). -/
def execXori (w : Bool) (d a : BitVec 5) (i : BitVec 14) (s : State) : Result State :=
  alu2 (.xori w d a i) d a (fun A => A ^^^ imm14 i) s

/-- slli: A shifted left (R95). -/
def execSlli (w : Bool) (d a : BitVec 5) (h : BitVec 6) (s : State) : Result State :=
  alu2 (.slli w d a h) d a (fun A => A <<< h.toNat) s

/-- srli: A shifted right, zeros in (R95). -/
def execSrli (w : Bool) (d a : BitVec 5) (h : BitVec 6) (s : State) : Result State :=
  alu2 (.srli w d a h) d a (fun A => A >>> h.toNat) s

/-- srai: A shifted right, copies of A[63] in (R95). -/
def execSrai (w : Bool) (d a : BitVec 5) (h : BitVec 6) (s : State) : Result State :=
  alu2 (.srai w d a h) d a (fun A => A.sshiftRight h.toNat) s

/-- slti: 1 if signed A is below the sign-extended immediate (R95). -/
def execSlti (w : Bool) (d a : BitVec 5) (i : BitVec 14) (s : State) : Result State :=
  alu2 (.slti w d a i) d a (fun A => bit (A.slt (imm14 i))) s

/-- sltiu: 1 if unsigned A is below the sign-extended immediate (R95). -/
def execSltiu (w : Bool) (d a : BitVec 5) (i : BitVec 14) (s : State) : Result State :=
  alu2 (.sltiu w d a i) d a (fun A => bit (A.ult (imm14 i))) s

/-- lui (R96). -/
def execLui (w : Bool) (d : BitVec 5) (i : BitVec 19) (s : State) : Result State :=
  word (.lui w d i) (fun s => s.result d (upperImm i)) s

/-- auipc: the word's own address plus the upper immediate (R96). -/
def execAuipc (w : Bool) (d : BitVec 5) (i : BitVec 19) (s : State) : Result State :=
  word (.auipc w d i) (fun s => s.result d (s.me.pc + upperImm i)) s

end Sys2Proof.Machine
end

