-- ==== Sys2Proof/Machine/Walker.lean ====
section
/-! DEFINITION. The tile walkers (R339 to R360): layout and group records, the geometry of a tile, its pages and scale
groups, and the nine walker commands. -/

namespace Sys2Proof.Machine

open Sys2Proof

/-! ### Records (R340 to R343, R350) -/

/-- A layout record (R342). -/
structure Layout where
  ndm1 : Nat
  rowd : Nat
  bg : Bool
  fmt : Nat
  base : Nat
  sizes : List Nat
  trows : Nat
  tcols : Nat
  strides : List Int
  pad : Word
  sra : Nat
deriving DecidableEq, Repr

/-- A signed field of `n` bits. -/
def signedField (n v : Nat) : Int := if 2 ^ (n - 1) ≤ v then (v : Int) - 2 ^ n else v

/-- Word `i` of a record. -/
def recWord (r : Row) (i : Nat) : Word := r.extractLsb' (64 * i) 64

/-- The elements of a block (R64). -/
def blockSize (bg : Bool) : Nat := if bg then 16 else 32

/-- A layout record read; none where it is malformed (R342, R343). -/
def layoutOf (r : Row) : Option Layout :=
  let w := recWord r
  let ndm1 := (w 0).fld 57 56
  let rowd := (w 0).fld 55 54
  let fmt := (w 0).fld 51 48
  let bg := (w 0).fld 53 53 = 1
  let sizes := [(w 1).fld 31 0, (w 1).fld 63 32, (w 2).fld 31 0, (w 2).fld 63 32]
  let strides := [(w 3).fld 47 0, (w 4).fld 47 0, (w 5).fld 47 0]
  let tcols := (w 3).fld 57 51 + 1
  if (w 0).fld 63 58 != 0 || (w 0).fld 52 52 != 0 || fmt = 15 || ndm1 < rowd || (rowd = 0 && ndm1 != 0) ||
      (bg && fmt < 11) || (sizes.drop (ndm1 + 1)).any (· != 0) || (strides.drop ndm1).any (· != 0) ||
      (ndm1 = 0 && (w 3).fld 63 58 != 0) || (w 3).fld 50 48 != 0 || (w 4).fld 63 48 != 0 || (w 5).fld 63 48 != 0 ||
      (w 7).fld 63 48 != 0 || (w 7).fld 6 0 != 0 || 512 < tcols * tyBits fmt ||
      (11 ≤ fmt && sizes.headD 0 % blockSize bg != 0) then none
  else some {
    ndm1 := ndm1, rowd := rowd, bg := bg, fmt := fmt, base := (w 0).fld 47 0, sizes := sizes
    trows := (w 3).fld 63 58 + 1, tcols := tcols, strides := strides.map (signedField 48), pad := w 6
    sra := (w 7).fld 47 0 }

/-- A group record (R350): generation, id, drain handle, phase, rows of a block, destinations as (compute router,
port). -/
structure Group where
  gen : BitVec 2
  gid : Nat
  drh : BitVec 16
  phase : Nat
  blk : Nat
  dests : List (Nat × Nat)
deriving DecidableEq, Repr

/-- The ports of a cluster mask in ascending order. -/
def maskPorts (m : Nat) : List Nat := (List.range 4).filter fun p => m / 2 ^ p % 2 = 1

/-- A group record read by the walker of a compute router; none where it is malformed or names nothing (R350). -/
def groupOf (r : Row) (own : Nat) : Option Group :=
  let w := recWord r
  let re := (List.range 8).map fun e => (w (2 + e / 4)).fld (16 * (e % 4) + 15) (16 * (e % 4))
  let valid := re.filter fun x => x / 2 ^ 15 = 1
  let dests := (maskPorts ((w 1).fld 3 0)).map (fun p => (own, p)) ++
    valid.flatMap fun x => (maskPorts (x % 16)).map fun p => (x / 128 % 256, p)
  if (w 0).fld 63 62 != 1 || (w 0).fld 61 56 != 0 || (w 0).fld 47 16 != 0 || (w 1).fld 63 16 != 0 || (w 1).fld 6 4 != 0 ||
      re.any (fun x => x / 16 % 8 != 0) || (List.range 4).any (fun i => w (4 + i) != 0) || valid.any (fun x => x % 16 = 0) ||
      dests.isEmpty then none
  else some {
    gen := BitVec.ofNat 2 ((w 0).fld 55 54), gid := (w 0).fld 53 48, drh := BitVec.ofNat 16 ((w 0).fld 15 0)
    phase := (w 1).fld 15 13, blk := (w 1).fld 12 7 + 1, dests := dests }

/-! ### Translation by a walker (R119, R340, R348) -/

/-- A translation through the walker's TLB and the router's walks: the address and word 1 of the leaf with its level, or
CODE 2 or 3. -/
def State.walkerXlate (s : State) (c : Nat) (e : QEntry) (va : Word) (kind : Access) : Except Nat (Nat × Word × Nat) × State :=
  let x := e.ctx
  let answer := fun (s : State) (t : Xlate) => match s.checked t with
    | .ok pa _ w1 lvl => ((.ok (pa, w1, lvl) : Except Nat (Nat × Word × Nat)),
        if accessWrites kind then s.preserveFor x e.tick pa va.toNat e.mode else s)
    | .bad code _ _ => (.error (if code = 4 then 2 else 3), s)
  match s.mapVa x (c / 4) va kind with
  | some t => answer s t
  | none =>
    match tlbFind (s.walker (c / 16)).tlb x va.toNat kind with
    | some t => answer s (leafAnswer t.w0 t.w1 t.lvl va.toNat kind e.mode)
    | none =>
      match s.walkVa x va.toNat kind e.mode with
      | (t, none, s) => answer s t
      | (t, some n, s) => answer (s.modWalker (c / 16) fun w => { w with tlb := tlbPut w.tlb 512 n }) t

/-- The address of a record (R340). -/
def State.recordVa (s : State) (x handle : Nat) : Word := (s.ctx x).catbase + Word.of (64 * handle)

/-- The copy of a record that a walker's catalogue cache holds (R339), read from the address that CATBASE gives it now (R340). A copy whose
bytes in memory have changed for W has been dropped (R341). -/
def State.cachedRecord (s : State) (c : Nat) (e : QEntry) (handle : Nat) : Option CatCopy :=
  (s.walker (c / 16)).records.find? fun r =>
    r.ctx = e.ctx && r.handle = handle && r.va = s.recordVa e.ctx handle && r.row = s.readRow r.pa

/-- A walker's catalogue cache with a record read: 64 entries, the oldest of which makes room (R339; DESIGN CHOICE, log 142). -/
def Walker.keep (w : Walker) (r : CatCopy) : Walker :=
  let others := w.records.filter fun o => !(o.ctx = r.ctx && o.handle = r.handle)
  { w with records := others.drop (others.length - 63) ++ [r] }

/-- The front command reads `n` bytes more: the request leaves when it starts (R163). -/
def State.alsoReads (s : State) (c pa n : Nat) : State := s.modFront c 1 fun e => { e with reads := e.reads ++ [(pa, n)] }

/-- A record by handle (R340): its 64 bytes, from the catalogue cache where that holds it (R339, R341), or the CODE that ends the
command. -/
def State.readRecord (s : State) (c : Nat) (e : QEntry) (handle : Nat) : Except Nat Row × State :=
  let (seen, s) := s.engineView maskW
  if handle = 0xFFFF then (.error 1, s)
  else match seen.cachedRecord c e handle with
    | some r => (.ok r.row, s)
    | none => match s.walkerXlate c e (s.recordVa e.ctx handle) .load with
      | (.error code, s) => (.error code, s)
      | (.ok (pa, _, _), s) =>
        if !bankRegion pa true || s.cutOff pa then (.error 3, s)
        else
          let s := (s.touch pa).correct pa 64 false
          if s.poisoned pa 64 then (.error 6, s)
          else (.ok (seen.readRow pa), (s.alsoReads c pa 64).modWalker (c / 16) fun w =>
            w.keep { va := s.recordVa e.ctx handle, ctx := e.ctx, handle := handle, pa := pa, row := seen.readRow pa })

/-! ### Geometry (R343, R346, R354) -/

/-- A tile as a command names it: the record and the coordinates. -/
structure TileAt where
  l : Layout
  c0 : Int
  c1 : Int
  c2 : Int
  c3 : Int
deriving DecidableEq, Repr

/-- The coordinates of a command (R345); C3 is 0 for the commands that use its field otherwise. -/
def tileAt (cw : BitVec 256) (l : Layout) (useC3 : Bool) : TileAt :=
  { l := l, c0 := signedField 32 (cwFld cw 1 31 0), c1 := signedField 32 (cwFld cw 1 63 32), c2 := cwFld cw 0 30 16
    c3 := if useC3 then cwFld cw 0 63 51 else 0 }

/-- One row of a tile in memory: the columns in bounds, and the address of the first of them (R343, R346). -/
structure RowGeo where
  jlo : Nat
  jhi : Nat
  va : Word
deriving DecidableEq, Repr

/-- Bits of an element. -/
def Layout.bits (l : Layout) : Nat := tyBits l.fmt
/-- Whether the elements are of a block type. -/
def Layout.block (l : Layout) : Bool := 11 ≤ l.fmt
/-- Bytes of a tile row. -/
def Layout.rowBytes (l : Layout) : Nat := (l.tcols * l.bits + 7) / 8
/-- Blocks of a tile row. -/
def Layout.blocks (l : Layout) : Nat := if l.block then l.tcols / blockSize l.bg else 0

/-- Row geometry at an advance of the row dimension: `adv` is added to it, or replaces its coordinate (R354). -/
def TileAt.row (t : TileAt) (adv : Int) (replace : Bool) : RowGeo :=
  let l := t.l
  let at_ := fun (d : Nat) (c : Int) => if l.rowd = d then (if replace then adv else c + adv) else c
  let c0 := at_ 0 t.c0
  let cs := [at_ 1 t.c1, at_ 2 t.c2, at_ 3 t.c3]
  let inside := (List.range 3).all fun d => l.ndm1 ≤ d ||
    (0 ≤ cs.getD d 0 && cs.getD d 0 < (l.sizes.getD (d + 1) 0 : Nat))
  let jlo := (max 0 (-c0)).toNat
  let jhi := (max 0 (min (l.tcols : Int) ((l.sizes.headD 0 : Nat) - c0))).toNat
  if !inside || jhi ≤ jlo then { jlo := 0, jhi := 0, va := 0 }
  else
    let a : Int := l.base + (c0 + jlo) * l.bits / 8 + (List.range 3).foldl (fun x d => x + cs.getD d 0 * l.strides.getD d 0) 0
    { jlo := jlo, jhi := jhi, va := BitVec.ofInt 64 a }

/-- A row of a tile with its pages found: pieces in memory, scale groups by block, and what R348 tests. -/
structure RowIo where
  g : RowGeo
  segs : List (Nat × Nat) := []
  groups : List GroupRef := []
  unaligned : Bool := false
  format : Bool := false
deriving DecidableEq, Repr

/-- `n` bytes at an address cut at a page's end. -/
def pieces64 (va : Word) (n : Nat) : List (Word × Nat) :=
  let room := 65536 - va.toNat % 65536
  if n ≤ room then [(va, n)] else [(va, room), (va + Word.of room, n - room)]

/-- Whether a data page's region serves a walker (R348); a write to a reduction window is a contribution (R424). -/
def walkerRegion (kind : Access) (pa : Nat) : Bool :=
  bankRegion pa true || region pa = .host || (accessWrites kind && match region pa with
    | .reduction _ _ => true
    | _ => false)

/-- The scale groups of a row's blocks in bounds, each on its own page (R137, R348): a group page with FMTV is a format
fault. What lies behind a link that is DOWN answers with ACCESS, and what a slice or a link keeps off makes the command wait (R254, R405,
R427). -/
def State.walkerGroups (s : State) (c : Nat) (e : QEntry) (kind : Access) :
    List (Nat × Word × Nat) → Except Nat (List GroupRef × Bool) × State
  | [] => (.ok ([], false), s)
  | (j, va, slot) :: t =>
    match s.walkerXlate c e va kind with
    | (.error code, s) => (.error code, s)
    | (.ok (pa, w1, _), s) =>
      if s.cutOff pa then (.error 3, s)
      else match (s.touch pa).walkerGroups c e kind t with
      | (.error code, s) => (.error code, s)
      | (.ok (l, b), s) =>
        (.ok ({ j := j, pa := pa, va := va, slot := slot } :: l, b || w1.fld 48 48 = 1), s)

/-- A piece of a row on one page: its place in the row, its bytes, its offset in the page and word 1 of the leaf. -/
structure RowPage where
  start : Nat
  n : Nat
  off : Nat
  w1 : Word
deriving DecidableEq, Repr

/-- Whether a leaf gives its page a block type (R116). -/
def blockPage (w1 : Word) : Bool := w1.fld 48 48 = 1 && 11 ≤ w1.fld 52 49 && w1.fld 52 49 < 15

/-- The scale words of the blocks that begin on a piece of a row: block of the tile row, group address, slot in the group
(R137). `b0` is the tile row's first block in bounds. -/
def RowPage.places (p : RowPage) (b0 : Nat) : List (Nat × Word × Nat) :=
  let bytes := if p.w1.fld 53 53 = 1 then 8 else 16
  if !blockPage p.w1 then []
  else (List.range ((p.start + p.n + bytes - 1) / bytes)).filterMap fun i =>
    if bytes * i < p.start then none
    else
      let j := (p.off + (bytes * i - p.start)) / bytes
      some (b0 + i, Word.of (p.w1.fld 47 3 * 8 + 8 * (j / 3)), j % 3)

/-- The pages of one row found, its data pages and then the pages of its scale groups (R347, R348): nothing for a row with
no element in bounds. -/
def State.walkerRow (s : State) (c : Nat) (e : QEntry) (l : Layout) (kind : Access) (g : RowGeo) : Except Nat RowIo × State :=
  if g.jhi ≤ g.jlo then (.ok { g := g }, s)
  else
    let n := ((g.jhi - g.jlo) * l.bits + 7) / 8
    let step := fun (r : Except Nat (RowIo × List RowPage) × State) (p : Word × Nat) => match r with
      | (.error code, s) => (.error code, s)
      | (.ok (io, ps), s) => match s.walkerXlate c e p.1 kind with
        | (.error code, s) => (.error code, s)
        | (.ok (pa, w1, lvl), s) =>
          if !walkerRegion kind pa || s.cutOff pa then (.error 3, s)
          else
            let s := s.touch pa
            let key := formatOf w1
            let want := 1 + 2 * l.fmt + (if l.bg then 32 else 0)
            let io := { io with
              segs := io.segs ++ [(pa, p.2)]
              format := io.format || (if w1.fld 48 48 = 0 then l.block else key != want) }
            let page : RowPage := {
              start := if ps.isEmpty then 0 else n - p.2, n := p.2, off := p.1.toNat % 2 ^ lvlShift lvl, w1 := w1 }
            ((.ok (io, ps ++ [page]) : Except Nat (RowIo × List RowPage)), s)
    let al := !l.block && g.va.toNat % max (l.bits / 8) 1 != 0
    match (pieces64 g.va n).foldl step (.ok ({ g := g, unaligned := al }, []), s) with
    | (.error code, s) => (.error code, s)
    | (.ok (io, ps), s) =>
      match s.walkerGroups c e kind (ps.flatMap fun p => p.places (g.jlo / blockSize l.bg)) with
      | (.error code, s) => (.error code, s)
      | (.ok (gs, b), s) => (.ok { io with groups := if l.block then gs else [], format := io.format || b }, s)

/-- The pages of all rows, in row order; the first that fails decides (R348). -/
def State.walkerRows (s : State) (c : Nat) (e : QEntry) (l : Layout) (kind : Access) : List RowGeo → Except Nat (List RowIo) × State
  | [] => (.ok [], s)
  | g :: t =>
    match s.walkerRow c e l kind g with
    | (.error code, s) => (.error code, s)
    | (.ok io, s) => match s.walkerRows c e l kind t with
      | (.error code, s) => (.error code, s)
      | (.ok rest, s) => (.ok (io :: rest), s)

/-! ### Rows of elements -/

/-- Elements of `b` bits packed, the first lowest. -/
def packBits (b : Nat) : List Nat → Nat
  | [] => 0
  | x :: t => x % 2 ^ b + 2 ^ b * packBits b t

/-- The bytes of a row in memory. -/
def State.segBytes (s : State) (io : RowIo) : Nat :=
  (io.segs.foldl (fun (r : Nat × Nat) p => (r.1 + 256 ^ r.2 * s.readMem p.1 p.2, r.2 + p.2)) (0, 0)).1

/-- Whether a row in memory, or a scale group of it, is in error. -/
def State.segBad (s : State) (io : RowIo) : Bool :=
  io.segs.any (fun p => s.poisoned p.1 p.2) || io.groups.any fun g => s.poisoned g.pa 8

/-- What a row reads from memory: its pieces, and each scale group that it needs, once (R146). -/
def RowIo.reads (io : RowIo) : List (Nat × Nat) := io.segs ++ (io.groups.map GroupRef.pa).eraseDups.map fun pa => (pa, 8)

/-- Single-bit errors in what the rows read are corrected (R260). -/
def State.correctRows (s : State) (rows : List RowIo) : State :=
  rows.foldl (fun s io =>
    let s := io.segs.foldl (fun s p => s.correct p.1 p.2 false) s
    io.groups.foldl (fun s g => s.correct g.pa 8 false) s) s

/-- PAD of one element (R342). -/
def Layout.padElem (l : Layout) : Nat := l.pad.toNat % 2 ^ l.bits
/-- The scale word of a padded block (R342, R346). -/
def Layout.padScale (l : Layout) : BitVec 20 := BitVec.ofNat 20 (l.pad.fld 59 40)

/-- A tile row as it goes to scratchpad: elements in bounds from memory, every other PAD (R346); zeros when in error
(R348). -/
def State.rowIn (s : State) (l : Layout) (io : RowIo) : Nat × List (BitVec 20) :=
  if s.segBad io then (0, List.replicate l.blocks 0)
  else
    let v := s.segBytes io
    let x := packBits l.bits ((List.range l.tcols).map fun j =>
      if io.g.jlo ≤ j && j < io.g.jhi then v / 2 ^ (l.bits * (j - io.g.jlo)) else l.padElem)
    let sc := (List.range l.blocks).map fun b => match io.groups.find? fun g => g.j = b with
      | some g => BitVec.ofNat 20 (s.readMem g.pa 8 / 2 ^ (20 * g.slot))
      | none => l.padScale
    (x, sc)

/-- The masked writes of a row's scale words to scale groups in memory: group, slot mask, group word (R138). -/
def RowIo.slots (io : RowIo) (sc : Nat → BitVec 20) : List (Nat × Nat × Nat) :=
  (io.groups.map GroupRef.pa).eraseDups.map fun pa =>
    let mine := io.groups.filter fun g => g.pa = pa
    (pa, mine.foldl (fun n g => n ||| 2 ^ g.slot) 0, mine.foldl (fun v g => v + (sc g.j).toNat * 2 ^ (20 * g.slot)) 0)

/-- Writes of a row's elements in bounds to memory, from a tile row's bytes. -/
def Layout.outWrites (l : Layout) (io : RowIo) (v : Nat) : List (Nat × Nat × Nat) :=
  (io.segs.foldl (fun (r : List (Nat × Nat × Nat) × Nat) p =>
    (r.1 ++ [(p.1, p.2, r.2 % 256 ^ p.2)], r.2 / 256 ^ p.2)) ([], v / 2 ^ (l.bits * io.g.jlo))).1

/-- The 32 bytes of a scale row: three words to a group (R67, R322). -/
def scaleRowBytes (sc : List (BitVec 20)) : Nat :=
  ((List.range sc.length).zip sc).foldl (fun v p => v + p.2.toNat * 2 ^ (64 * (p.1 / 3) + 20 * (p.1 % 3))) 0

/-- Writes of a tile row into a scratchpad: its bytes, and for a block type its scale row of 32 bytes (R322, R345, R351). -/
def spadWrites (cl : Nat) (d : SpadDesc) (l : Layout) (i : Nat) (r : Nat × List (BitVec 20)) : List (Nat × Nat × Nat) :=
  (scratchPa cl (d.line i 0), l.rowBytes, r.1 % 256 ^ l.rowBytes) ::
    (if l.block then [(scratchPa cl (d.scaleRow i), 32, scaleRowBytes r.2)] else [])

/-- The bytes of a tile row that hold its elements in bounds: the first, and how many (R347). -/
def RowGeo.bytes (g : RowGeo) (bits : Nat) : Nat × Nat := (g.jlo * bits / 8, (g.jhi * bits + 7) / 8 - g.jlo * bits / 8)

/-- The blocks of a row with elements in bounds. -/
def RowGeo.blocks (g : RowGeo) (l : Layout) : List Nat :=
  (List.range l.blocks).filter fun b => g.jlo < (b + 1) * blockSize l.bg && b * blockSize l.bg < g.jhi

/-- A tile row read from scratchpad: its bytes, its scale words, whether what holds elements in bounds is in error (R347). -/
def State.rowOut (s : State) (cl : Nat) (d : SpadDesc) (l : Layout) (g : RowGeo) (i : Nat) : Nat × List (BitVec 20) × Bool :=
  let pa := scratchPa cl (d.line i 0)
  let sp := fun (b : Nat) => scratchPa cl (d.scaleRow i + 8 * (b / 3))
  let b := g.bytes l.bits
  (s.readMem pa l.rowBytes,
   (List.range l.blocks).map fun b => BitVec.ofNat 20 (s.readMem (sp b) 8 / 2 ^ (20 * (b % 3))),
   s.poisoned (pa + b.1) b.2 || (g.blocks l).any fun b => s.poisoned (sp b) 8)

/-- Whether rows `is` of a scratchpad side lie beyond its end. -/
def SpadDesc.beyond (d : SpadDesc) (l : Layout) (is : List Nat) : Bool :=
  is.any fun i => spadSize < d.line i 0 + 64 || (l.block && spadSize < d.scaleRow i + 32)

/-! ### Checks shared by the commands (R345, R346, R348) -/

/-- Reserved-zero bits of word 2 of a walker command (R345): PORT, STY and GH only where used. -/
def legalWord2 (cw : BitVec 256) (port sty gh : Bool) : Bool :=
  cwFld cw 2 20 19 = 0 && cwFld cw 2 5 0 = 0 && (port || cwFld cw 2 42 41 = 0) && (sty || cwFld cw 2 40 37 = 0) &&
  (gh || cwFld cw 2 36 21 = 0)

/-- The frame of a walker command (R345): no CHK, no MASK. -/
def legalWalker (cw : BitVec 256) : Bool := !cwChk cw && !cwMask cw

/-- The scratchpad side of a walker command: the fields of word 2 that R322 gives, BG16 apart. -/
def walkerDesc (cw : BitVec 256) : Option SpadDesc :=
  let w := cwWord cw 2
  if w.fld 63 62 = 3 || w.fld 51 44 = 0 then none
  else some { rot := w.fld 63 62, tpitch := w.fld 61 52, rpitch := w.fld 51 44, bg16 := w.fld 43 43 = 1, base := w.fld 18 6 * 64 }

/-- The tests of a tile against its record (R345, R346): BG16, and whole blocks. -/
def Layout.fits (l : Layout) (cw : BitVec 256) (spad : Bool) : Bool :=
  let t := tileAt cw l true
  (!spad || (if l.block then (cwFld cw 2 43 43 = 1) = l.bg else cwFld cw 2 43 43 = 0)) &&
  (!l.block || (t.c0 % (blockSize l.bg : Nat) = 0 && l.tcols % blockSize l.bg = 0))

/-- A walker command ended in error (R348). -/
def State.walkerError (s : State) (c code : Nat) : State := s.endError c 1 code 2

/-- The first of ALIGN and FMT that the rows of a tile meet (R348). -/
def rowsFault (_ : Layout) (rows : List RowIo) : Option Nat :=
  if rows.any (fun r => r.unaligned) then some 4
  else if rows.any (fun r => r.format) then some 10
  else none

/-- The ILLEGAL tests of the first step of R348: a missing or malformed record among those read, the scratchpad side, the
tile against its layout, and a command's `own` test. -/
def walkerIllegal (cw : BitVec 256) (own : Nat) (spad gh : Bool) (test : Option Layout → Bool) (r q : Except Nat Row) : Bool :=
  let l := match r with
    | .ok x => layoutOf x
    | .error _ => none
  (spad && (walkerDesc cw).isNone) || cwFld cw 0 46 31 = 0xFFFF || (gh && cwFld cw 2 36 21 = 0xFFFF) || !test l ||
  (match r, l with
   | .ok _, none => true
   | .ok _, some l => !l.fits cw spad
   | .error _, _ => false) ||
  (gh && match q with
   | .ok x => (groupOf x own).isNone
   | .error _ => false)

/-- The records read and the tests up to the tile (R348): a command with a group record reads it too; `test` is the
command's own part of the first step, of the layout where it could be read; `go` has the records. -/
def State.withRecords (s : State) (c : Nat) (cw : BitVec 256) (e : QEntry) (spad gh : Bool) (test : Option Layout → Bool)
    (go : Layout → Row → Row → State → State) : State :=
  if !s.slotFree c then s
  else
    let (r, s) := s.readRecord c e (cwFld cw 0 46 31)
    let (q, s) := if gh then s.readRecord c e (cwFld cw 2 36 21) else (.ok 0, s)
    if walkerIllegal cw (c / 16) spad gh test r q then s.walkerError c 1
    else match r, q with
      | .error code, _ => s.walkerError c code
      | .ok _, .error code => s.walkerError c code
      | .ok x, .ok y => match layoutOf x with
        | none => s.walkerError c 1
        | some l => go l x y s

/-- The same for a command without a group record or tests of its own. -/
def State.withLayout (s : State) (c : Nat) (cw : BitVec 256) (e : QEntry) (spad : Bool) (go : Layout → State → State) : State :=
  s.withRecords c cw e spad false (fun _ => true) fun l _ _ s => go l s

/-- The lowest row that is in error. -/
def lowestTrue (l : List Bool) : Option Nat := (l.zip (List.range l.length)).find? (fun p => p.1) |>.map fun p => p.2

/-- A walker command started with its writes known: its element says OK and the rows written, or POISON and the lowest
row in error (R348, R349). -/
def State.walkerStart (s : State) (c : Nat) (bad : List Bool) (rows flags : Nat) (rd : List (Nat × Nat))
    (ws slots : List (Nat × Nat × Nat)) : State :=
  s.startEntry c 1 (150 + 2 * bad.length) fun e => { e with
    reads := e.reads ++ rd, writes := ws, slotWrites := slots
    sigPa := if bad.any id then none else e.sigPa
    elem := match lowestTrue bad with
      | some i => elemOf 1 e.ser 6 (i + flags * 2 ^ 32)
      | none => elemOf 1 e.ser 0 (rows + flags * 2 ^ 32) }

/-- The signed indices of `wgather` and `wscatter` (R354). -/
def State.indices (s : State) (cl : Nat) (cw : BitVec 256) (n : Nat) : List Int :=
  (List.range n).map fun i => signedField 32 (s.readMem (scratchPa cl (cwFld cw 0 63 51 * 64 + 4 * i)) 4)

/-- The cluster of a command's PORT. -/
def portCluster (c : Nat) (cw : BitVec 256) : Nat := c / 16 * 4 + cwFld cw 2 42 41

/-! ### Transfers (R351) -/

/-- The transfers of a row to one destination, the `n`-th of the list: its 64 data bytes, and its scale row, each a transfer
of its own (R351). -/
def transfers (c : Nat) (e : QEntry) (d : SpadDesc) (l : Layout) (g : Group) (row n : Nat) (dest : Nat × Nat) (i : Nat)
    (r : Nat × List (BitVec 20)) : List Mcast :=
  let ws := spadWrites (dest.1 * 4 + dest.2) d l i r
  ((List.range ws.length).zip ws).map fun p =>
    { dst := dest.1, core := c, uid := 0, ctx := e.ctx, row := row, port := n, pa := p.2.1, n := p.2.2.1, v := p.2.2.2
      gid := g.gid, gen := g.gen, half := p.1 = 1 }

/-- The cluster to whose scratchpad a transfer goes. -/
def Mcast.cluster (m : Mcast) : Nat := (m.pa - 0x20000000000) / 0x80000

/-- The payload of FI 0 of a transfer (R351): OFF, DPORT, HALF, G, GID, GEN. -/
def Mcast.head (m : Mcast) : BitVec 128 :=
  BitVec.ofNat 128 (m.pa % 0x80000 + m.cluster % 4 * 2 ^ 19 + (if m.half then 2 ^ 21 else 0) +
    (if m.grouped then 2 ^ 22 else 0) + m.gid * 2 ^ 23 +
    m.gen.toNat * 2 ^ 29)

/-- A transfer sent by its walker as MCAST flits (R144, R351); the spec gives them no MTAG, here the transfer's number (DESIGN
CHOICE, log 9). -/
def State.sendTransfer (s : State) (m : Mcast) : State :=
  let (id, s) := s.newId
  let s : State := { s with mcasts := s.mcasts.set id { m with left := m.flits } }
  s.walkerInject (m.core / 16) ((List.range m.flits).map fun i =>
    { flitTo (0x900 + m.core / 16) m.cluster 12 with
      fi := i, mtag := BitVec.ofNat 8 id, ctx := m.ctx, req := some id
      pay := if i = 0 then m.head else BitVec.ofNat 128 (m.v / 2 ^ (128 * (i - 1))) })

/-- A command started whose rows go out as transfers: it completes once every one is acknowledged. -/
def State.startTransfers (s : State) (c : Nat) (ts : List Mcast) (f : QEntry → QEntry) : State :=
  let uid := s.nextId
  let s := s.startEntry c 1 0 fun x => { f x with openWork := ts.length }
  ts.foldl (fun s t => s.sendTransfer { t with uid := uid }) s

/-! ### Memory and scratchpad -/

/-- No group: what the transfers of `wload` and `wgather` carry in the place of one (R351). -/
def noGroup : Group := { gen := 0, gid := 0, drh := 0xFFFF, phase := 0, blk := 1, dests := [] }

/-- Memory into scratchpad rows: `wload` and `wgather` from their row geometries. The rows travel as unchecked transfers (R351). -/
def State.moveIn (s : State) (c : Nat) (cw : BitVec 256) (e : QEntry) (l : Layout) (geos : List RowGeo) : State :=
  let cl := portCluster c cw
  match walkerDesc cw, s.walkerRows c e l .load geos with
  | none, (_, s) => s.walkerError c 1
  | some _, (.error code, s) => s.walkerError c code
  | some d, (.ok rows, s) =>
    if d.beyond l (List.range rows.length) then s.walkerError c 3
    else match rowsFault l rows with
      | some code => s.walkerError c code
      | none =>
        let (seen, s) := (s.correctRows rows).engineView maskW
        let ts := ((List.range rows.length).zip rows).flatMap fun p =>
          transfers c e d l noGroup p.1 0 (cl / 4, cl % 4) p.1 (seen.rowIn l p.2)
        let bad := lowestTrue (rows.map s.segBad)
        s.startTransfers c (ts.map fun t => { t with grouped := false }) fun x => { x with
          reads := x.reads ++ rows.flatMap RowIo.reads
          sigPa := if bad.isSome then none else x.sigPa
          elem := match bad with
            | some i => elemOf 1 x.ser 6 i
            | none => elemOf 1 x.ser 0 rows.length }

/-- The row of a scratchpad that a walker reads corrected: what holds elements in bounds (R260, R347). -/
def State.correctOut (s : State) (cl : Nat) (d : SpadDesc) (l : Layout) (g : RowGeo) (i : Nat) : State :=
  let b := g.bytes l.bits
  (g.blocks l).foldl (fun s b => s.correct (scratchPa cl (d.scaleRow i + 8 * (b / 3))) 8 false)
    (s.correct (scratchPa cl (d.line i 0) + b.1) b.2 false)

/-- What a walker reads of a row in a scratchpad: the bytes of its elements in bounds, and the groups of its scale words (R347). -/
def outReads (cl : Nat) (d : SpadDesc) (l : Layout) (g : RowGeo) (i : Nat) : List (Nat × Nat) :=
  let b := g.bytes l.bits
  (scratchPa cl (d.line i 0) + b.1, b.2) ::
    ((g.blocks l).map fun b => scratchPa cl (d.scaleRow i + 8 * (b / 3))).eraseDups.map fun pa => (pa, 8)

/-- Scratchpad rows into memory: `wstore` and `wscatter`, in ascending rows. -/
def State.moveOut (s : State) (c : Nat) (cw : BitVec 256) (e : QEntry) (l : Layout) (geos : List RowGeo) : State :=
  let cl := portCluster c cw
  match walkerDesc cw, s.walkerRows c e l .store geos with
  | none, (_, s) => s.walkerError c 1
  | some _, (.error code, s) => s.walkerError c code
  | some d, (.ok rows, s) =>
    let idx := (List.range rows.length).zip rows
    let used := fun (p : Nat × RowIo) => decide (p.2.g.jlo < p.2.g.jhi)
    if d.beyond l ((idx.filter used).map Prod.fst) then s.walkerError c 3
    else match rowsFault l rows with
      | some code => s.walkerError c code
      | none =>
        let (seen, s) := (idx.foldl (fun s p => if used p then s.correctOut cl d l p.2.g p.1 else s) s).engineView maskW
        let out := idx.map fun p => (p, seen.rowOut cl d l p.2.g p.1)
        let ws := out.flatMap fun o => l.outWrites o.1.2 (if o.2.2.2 then 0 else o.2.1)
        let slots := out.flatMap fun o => o.1.2.slots fun b => if o.2.2.2 then 0 else (o.2.2.1[b]?).getD 0
        s.walkerStart c (out.map fun o => used o.1 && o.2.2.2) (idx.filter used).length 0
          ((idx.filter used).flatMap fun p => outReads cl d l p.2.g p.1) ws slots

/-! ### The commands (R346) -/

/-- wload: elements in bounds into their scratchpad places, PAD elsewhere. -/
def execWload (core : Nat) (cw : BitVec 256) (s : State) : Result State :=
  .next (s.runHead core 1 cw (fun cw => legalWalker cw && legalWord2 cw true false false) fun e s =>
    s.withLayout core cw e true fun l s =>
      s.moveIn core cw e l ((List.range l.trows).map fun (i : Nat) => (tileAt cw l true).row i false))

/-- wstore: elements in bounds from scratchpad to memory. -/
def execWstore (core : Nat) (cw : BitVec 256) (s : State) : Result State :=
  .next (s.runHead core 1 cw (fun cw => legalWalker cw && legalWord2 cw true false false) fun e s =>
    s.withLayout core cw e true fun l s =>
      s.moveOut core cw e l ((List.range l.trows).map fun (i : Nat) => (tileAt cw l true).row i false))

/-- The rows of an index list, or none when the list lies beyond the scratchpad or is in error: CODE 3 or 6 (R354). -/
def State.indexRows (s : State) (c : Nat) (cw : BitVec 256) (l : Layout) : Except Nat (List RowGeo) × State :=
  let cl := portCluster c cw
  let lo := cwFld cw 0 63 51 * 64
  if spadSize < lo + 4 * l.trows then (.error 3, s)
  else
    let s := s.correct (scratchPa cl lo) (4 * l.trows) false
    if s.poisoned (scratchPa cl lo) (4 * l.trows) then (.error 6, s)
    else
      let (seen, s) := s.engineView maskW
      (.ok ((seen.indices cl cw l.trows).map fun i => (tileAt cw l false).row i true), s.alsoReads c (scratchPa cl lo) (4 * l.trows))

/-- wgather: rows named by an index list (R354). -/
def execWgather (core : Nat) (cw : BitVec 256) (s : State) : Result State :=
  .next (s.runHead core 1 cw (fun cw => legalWalker cw && legalWord2 cw true false false) fun e s =>
    s.withLayout core cw e true fun l s => match s.indexRows core cw l with
      | (.error code, s) => s.walkerError core code
      | (.ok geos, s) => s.moveIn core cw e l geos)

/-- wscatter: rows to places named by an index list, in ascending i (R354). -/
def execWscatter (core : Nat) (cw : BitVec 256) (s : State) : Result State :=
  .next (s.runHead core 1 cw (fun cw => legalWalker cw && legalWord2 cw true false false) fun e s =>
    s.withLayout core cw e true fun l s => match s.indexRows core cw l with
      | (.error code, s) => s.walkerError core code
      | (.ok geos, s) => s.moveOut core cw e l geos)

/-- wfill: each element in bounds written with PAD. -/
def execWfill (core : Nat) (cw : BitVec 256) (s : State) : Result State :=
  .next (s.runHead core 1 cw (fun cw => legalWalker cw && cwWord cw 2 = 0) fun e s =>
    s.withLayout core cw e false fun l s =>
      match s.walkerRows core e l .store ((List.range l.trows).map fun (i : Nat) => (tileAt cw l true).row i false) with
      | (.error code, s) => s.walkerError core code
      | (.ok rows, s) => match rowsFault l rows with
        | some code => s.walkerError core code
        | none =>
          let v := packBits l.bits (List.replicate l.tcols l.padElem)
          s.walkerStart core (rows.map fun _ => false) (rows.filter fun r => r.g.jlo < r.g.jhi).length 0 []
            (rows.flatMap fun io => l.outWrites io v) (rows.flatMap fun io => io.slots fun _ => l.padScale))

/-- signal: starts once every earlier command of its qw has completed, and completes at once. -/
def execSignal (core : Nat) (cw : BitVec 256) (s : State) : Result State :=
  .next (s.runHead core 1 cw (fun cw =>
      legalWalker cw && cwWord cw 1 = 0 && cwWord cw 2 = 0 && cwFld cw 0 63 51 = 0 && cwFld cw 0 46 16 = 0) fun _ s =>
    if !s.slotFree core || (s.core core).qw.entries.any fun e => e.stage = .running then s
    else s.startEntry core 1 0 fun e => { e with elem := elemOf 1 e.ser 0 0 })

/-! ### Multicast and dealing (R350 to R353) -/

/-- The rows and destinations of `wmcast` and `wdeal` sent (R348, R350): `plan` gives each source row's destinations, by
their place in the list, and scratchpad rows. -/
def State.sendGroup (s : State) (c : Nat) (cw : BitVec 256) (e : QEntry) (l : Layout) (gr : Row) (geos : List RowGeo)
    (plan : Group → Nat → List (Nat × Nat)) : State :=
  match walkerDesc cw, groupOf gr (c / 16) with
  | none, _ => s.walkerError c 1
  | some _, none => s.walkerError c 1
  | some d, some g => match s.walkerRows c e l .load geos with
    | (.error code, s) => s.walkerError c code
    | (.ok rows, s) =>
      let idx := (List.range rows.length).zip rows
      let slots := (List.range rows.length).flatMap fun i => (plan g i).map Prod.snd
      if g.dests.any (fun x => !(s.ctx e.ctx).hasCompute x.1) || d.beyond l slots then s.walkerError c 3
      else match s.cmdCounter c e g.drh with
        | (.error code, s) => s.walkerError c code
        | (.ok drain, s) => match rowsFault l rows with
          | some code => s.walkerError c code
          | none =>
            let (seen, s) := (s.correctRows rows).engineView maskW
            let ts := idx.flatMap fun p =>
              let r := seen.rowIn l p.2
              (plan g p.1).flatMap fun q => transfers c e d l g p.1 q.1 (g.dests.getD q.1 (0, 0)) q.2 r
            let bad := lowestTrue (rows.map s.segBad)
            s.startTransfers c ts fun x => { x with
              reads := x.reads ++ rows.flatMap RowIo.reads
              rows := slots.length, dropped := []
              drain := if bad.isSome then none else drain
              sigPa := if bad.isSome then none else x.sigPa
              elem := match bad with
                | some i => elemOf 1 x.ser 6 i
                | none => elemOf 1 x.ser 0 0 }

/-- wmcast: the same rows into every scratchpad of the group. -/
def execWmcast (core : Nat) (cw : BitVec 256) (s : State) : Result State :=
  .next (s.runHead core 1 cw (fun cw => legalWalker cw && legalWord2 cw false false true) fun e s =>
    s.withRecords core cw e true true (fun _ => true) fun l _ gr s =>
      s.sendGroup core cw e l gr ((List.range l.trows).map fun (i : Nat) => (tileAt cw l true).row i false)
        fun g i => (List.range g.dests.length).map fun d => (d, i))

/-- wdeal: rows dealt block-cyclically over the group's destinations (R353). -/
def execWdeal (core : Nat) (cw : BitVec 256) (s : State) : Result State :=
  .next (s.runHead core 1 cw (fun cw => legalWalker cw && legalWord2 cw false false true) fun e s =>
    s.withRecords core cw e true true (fun _ => cwFld cw 0 63 51 < 4096) fun l _ gr s =>
      s.sendGroup core cw e l gr ((List.range (cwFld cw 0 63 51 + 1)).map fun (i : Nat) => (tileAt cw l false).row i false)
        fun g r =>
          let b := r / g.blk
          let nd := max g.dests.length 1
          [((b + g.phase) % nd, b / nd * g.blk + r % g.blk)])

/-- One transfer acknowledged: with the last, the drain addition or the completion (R352). -/
def State.acked (s : State) (m : Mcast) (f : QEntry → QEntry) : State := s.workDone m.core 1 m.uid f

/-- The element of a group command so far: the rows discarded, in an error element too, and on success the rows written
(R349). -/
def QEntry.counted (e : QEntry) : QEntry :=
  let n := e.dropped.length
  if e.elem.fld 63 63 = 1 then { e with elem := putFld e.elem 38 10 (min n 1023) }
  else { e with elem := elemOf 1 e.ser 0 (min n 1023 * 2 ^ 38 + (e.rows - n) % 65536) }

/-- A row that a receiver discarded, counted once (R349). -/
def QEntry.drop (e : QEntry) (row port : Nat) : QEntry :=
  if e.dropped.contains (row, port) then e else { e with dropped := (row, port) :: e.dropped }

/-- A transfer acknowledged in the element: one of a group counts (R349). -/
def QEntry.settle (e : QEntry) (m : Mcast) : QEntry := if m.grouped then e.counted else e

/-- A transfer at its receiving walker (R351): an unchecked one is written; one of a group is written when its generation is accepted and
discarded otherwise; each is acknowledged. Of one that a fence has refused the NAK has come, and the command ends with ACCESS (R360,
R413). -/
def execMcastTransfer (id : Nat) (s : State) : Result State :=
  .next (match s.mcasts.find id with
    | none => s
    | some m =>
      let s := { s with mcasts := s.mcasts.erase id }
      if m.refused then
        s.acked m fun e => (e.refused 1).settle m
      else
        let acc := (s.walker m.dst).accept.get m.gid 0
        if !m.grouped || m.gen = acc || m.gen - acc = 1 then
          let s := s.modWalker m.dst fun w =>
            { w with accept := if !m.grouped || m.gen = acc then w.accept else w.accept.set m.gid m.gen }
          (s.bankWrite m.pa m.n m.v (0x900 + m.core / 16) m.ctx).acked m fun e => e.settle m
        else
          let k := (s.walker m.dst).mcdrop + 1
          let s := s.modWalker m.dst fun w => { w with mcdrop := k }
          let s := if k % 1024 = 1 then s.note (routerOfCompute m.dst) m.ctx 0xB (Word.of m.dst) (Word.of k) 0 else s
          s.acked m fun e => (e.drop m.row m.port).counted)

/-- The drain addition of a group command, once every transfer is acknowledged (R352) and injection is not stopped (R157); then the command
completes. -/
def execDrainAddition (core : Nat) (ser : BitVec 16) (s : State) : Result State :=
  .next (
    let is := fun (e : QEntry) => e.ser = ser && e.stage = .running && e.openWork = 0 && e.drain.isSome && !e.marker
    match (s.core core).qw.entries.find? is with
    | none => s
    | some e =>
      if e.drain.any s.heldOff then s.postIn 64 (.drainAddition core ser)
      else if s.engineStopped core 1 then s.postIn 1 (.drainAddition core ser)
      else
        let s := s.modEntry core 1 is fun x => { x with drain := none }
        let s := match e.drain with
          | none => s
          | some pa => match s.addCounter pa 1 with
            | (true, s) => s.mirror e.ctx e.tick pa 8
            | (false, s) => s.note (s.homeUnit pa).1 e.ctx 9 (Word.of pa) (Word.of (engineSrc core 1)) 0
        s.post (.engineCommandComplete core 1 ser))

/-! ### wstq (R355, R356) -/

/-- The places in a scratchpad, with their bytes, of the elements in bounds of a source row of `wstq`, whose elements have `w` bytes
(R347). -/
def SpadDesc.held (d : SpadDesc) (cl w n : Nat) (g : RowGeo) (i : Nat) : List (Nat × Nat) :=
  (List.range ((n * w + 63) / 64)).filterMap fun l =>
    let lo := max (g.jlo * w) (64 * l)
    let hi := min (g.jhi * w) (64 * l + 64)
    if lo < hi then some (scratchPa cl (d.line i l) + (lo - 64 * l), hi - lo) else none

/-- A source row of `wstq`: the values of its elements, and whether a word with one in bounds is in error (R347). -/
def State.stqRow (s : State) (cl : Nat) (d : SpadDesc) (sty n : Nat) (g : RowGeo) (i : Nat) : List FVal × Bool :=
  let w := tyBytes sty
  ((elems (s.spadRow cl d i (n * w)) w n).map (fmtD sty).val, (d.held cl w n g i).any fun p => s.poisoned p.1 p.2)

/-- Single-bit errors in the source rows of a `wstq` corrected (R260). -/
def State.correctStq (s : State) (cl : Nat) (d : SpadDesc) (sty n : Nat) (rows : List RowIo) : State :=
  ((List.range rows.length).zip rows).foldl (fun s p =>
    (d.held cl (tyBytes sty) n p.2.g p.1).foldl (fun s q => s.correct q.1 q.2 false) s) s

/-- Whether a source type serves `wstq` (R345). -/
def stqType (sty : Nat) : Bool := sty = 0 || sty = 3 || sty = 4

/-- The own part of `wstq` in the first step of R348: STY, a block FMT, SRA, and a row pitch that covers a source row. -/
def stqLegal (cw : BitVec 256) (l : Option Layout) : Bool :=
  stqType (cwFld cw 2 40 37) && match l with
    | none => true
    | some l => l.block && l.sra != 0 && (l.tcols * tyBytes (cwFld cw 2 40 37) + 63) / 64 ≤ cwFld cw 2 51 44

/-- The checks of `wstq` after its records (R348, R356): the layout, the rows in memory, and the scaling record's address. -/
def State.stqPlan (s : State) (c : Nat) (cw : BitVec 256) (e : QEntry) (l : Layout) :
    Except Nat (SpadDesc × List RowIo × Nat) × State :=
  let sty := cwFld cw 2 40 37
  let bytes := l.tcols * tyBytes sty
  match walkerDesc cw with
  | none => (.error 1, s)
  | some d =>
    match s.walkerRows c e l .store ((List.range l.trows).map fun (i : Nat) => (tileAt cw l true).row i false) with
      | (.error code, s) => (.error code, s)
      | (.ok rows, s) => match s.walkerXlate c e (Word.of l.sra) .both with
        | (.error code, s) => (.error code, s)
        | (.ok (sra, _, _), s) =>
          let window := match region sra with
            | .window _ _ => true
            | _ => false
          let far := (d.linesOf l.trows bytes).any fun p => spadSize < p.2.2 + 64 && match rows[p.1]? with
            | some io => decide (io.g.jlo < io.g.jhi)
            | none => false
          let s := s.touch sra
          if !window || far then (.error 3, s)
          else match rowsFault l rows with
            | some code => (.error code, s)
            | none => if s.poisoned sra 128 then (.error 6, s) else (.ok (d, rows, sra), s)

/-- The values of a row that are in bounds. -/
def RowGeo.take (g : RowGeo) (vs : List FVal) : List FVal := (vs.drop g.jlo).take (g.jhi - g.jlo)

/-- The greatest magnitude of the rows in bounds, as f32 (R356): a NaN makes a NaN; a row in error counts nothing. -/
def State.stqMax (s : State) (c : Nat) (cw : BitVec 256) (l : Layout) (d : SpadDesc) (rows : List RowIo) : Nat :=
  let sty := cwFld cw 2 40 37
  let cl := portCluster c cw
  let vs := ((List.range rows.length).zip rows).flatMap fun p =>
    let r := s.stqRow cl d sty l.tcols p.2.g p.1
    if r.2 then [] else p.2.g.take r.1
  if vs.any FVal.isNan then (fmtD 0).nan false else ((fmtD 0).round 0 (amaxOf (fmtD sty) vs)).1

/-- A row quantised under one scale word (R356, R71): codes, scale words, flags. -/
def stqCodes (l : Layout) (sw : BitVec 20) (vs : List FVal) : Nat × List (BitVec 20) × Flags :=
  let bs := blockSize l.bg
  let blocks := (List.range l.blocks).map fun b => (vs.drop (b * bs)).take bs
  let out := blocks.map fun bl =>
    let w := if bl.any FVal.isNan then scaleWord (l.fmt - 11) 0xFF 0 else sw
    (w, gather (bl.map (quantise 0 w)))
  (packBits 4 (out.flatMap fun o => o.2.1), out.map Prod.fst, out.foldl (fun f o => f ||| o.2.2) 0)

/-- `wstq` with its scale word known: the rows quantised, written at its completion (R356). -/
def State.stqFinish (s : State) (c : Nat) (cw : BitVec 256) (e : QEntry) (l : Layout) (d : SpadDesc) (rows : List RowIo)
    (sw : BitVec 20) : State :=
  let cl := portCluster c cw
  let sty := cwFld cw 2 40 37
  let (seen, s) := (s.correctStq cl d sty l.tcols rows).engineView maskW
  let used := fun (p : Nat × RowIo) => decide (p.2.g.jlo < p.2.g.jhi)
  let idx := (List.range rows.length).zip rows
  let zero : FVal := .fin { neg := false, m := 0, e := 0 }
  let out := idx.map fun p =>
    let r := seen.stqRow cl d sty l.tcols p.2.g p.1
    let vs := (List.range l.tcols).map fun j => if p.2.g.jlo ≤ j && j < p.2.g.jhi then r.1.getD j zero else zero
    if r.2 then (p.2, used p, (0, List.replicate l.blocks 0, 0)) else (p.2, false, stqCodes l sw vs)
  let ws := out.flatMap fun o => l.outWrites o.1 o.2.2.1
  let slots := out.flatMap fun o => o.1.slots fun b => (o.2.2.2.1[b]?).getD 0
  let fl := out.foldl (fun f o => if o.1.g.jlo < o.1.g.jhi then f ||| o.2.2.2.2 else f) (0 : Flags)
  let bad := lowestTrue (out.map fun o => o.2.1)
  let is := fun (x : QEntry) => x.ser = e.ser && x.stage = .running && !x.marker
  let rd := idx.flatMap fun p => d.held cl (tyBytes sty) l.tcols p.2.g p.1
  let rs := { ((s.core c).qw.entries.find? is).getD e with reads := rd }.readReqs c 1
  ((s.modEntry c 1 is fun x => { x with
    openWork := x.openWork - 1 + rs.length, writes := ws, slotWrites := slots, xd := some sw, due := s.cycle + 20
    sigPa := if bad.isSome then none else x.sigPa
    elem := match bad with
      | some i => elemOf 1 x.ser 6 (i + fl.toNat * 2 ^ 32)
      | none => elemOf 1 x.ser 0 ((idx.filter used).length + fl.toNat * 2 ^ 32) }).sendEngines c 1 rs).postIn 20 (.engineCommandComplete c 1 e.ser)

/-- wstq: rows quantised under delayed scaling. A restarted one whose exchange is made reuses its scale word (R359). -/
def execWstq (core : Nat) (cw : BitVec 256) (s : State) : Result State :=
  .next (s.runHead core 1 cw (fun cw => legalWalker cw && legalWord2 cw true true false) fun e s =>
    s.withRecords core cw e true false (stqLegal cw) fun l r _ s => match s.stqPlan core cw e l with
      | (.error code, s) => s.walkerError core code
      | (.ok (d, rows, _), s) =>
        let s := s.startEntry core 1 0 fun x => { x with openWork := 1, layout := r }
        match e.xd with
        | some sw => s.stqFinish core cw e l d rows sw
        | none => s.postIn 60 (.scalingExchange core e.ser))

/-- The largest of the sixteen maxima of a scaling record: NaN if any is (R356). -/
def State.ringMax (s : State) (sra : Nat) : FVal :=
  (List.range 16).foldl (fun g i =>
    let v := (fmtD 0).val (s.readMem (sra + 4 * i) 4)
    if g.isNan || v.isNan then .nan false else if g.lt v then v else g) (.fin { neg := false, m := 0, e := 0 })

/-- A running `wstq` ended in error before its exchange: a page of it no longer translates (R360). -/
def State.stqError (s : State) (c : Nat) (e : QEntry) (code : Nat) : State :=
  (s.modEntry c 1 (fun x => x.ser = e.ser && x.stage = .running && !x.marker) fun x => { x with
    openWork := 0, sigPa := none, reads := [], due := s.cycle, elem := elemOf 1 x.ser code 0 }).post (.engineCommandComplete c 1 e.ser)

/-- The exchange of a `wstq` with its scaling record, one indivisible step at the bank, and the quantising that follows
(R356), under the layout record read at its start (R341). It waits while injection is stopped (R157). -/
def execScalingExchange (core : Nat) (ser : BitVec 16) (s : State) : Result State :=
  .next (
    match (s.core core).qw.entries.find? fun e => e.ser = ser && e.stage = .running && e.openWork != 0 && e.xd.isNone && !e.marker with
    | none => s
    | some e =>
      if s.engineStopped core 1 then s.postIn 1 (.scalingExchange core ser)
      else
      let cw := e.cw
      match layoutOf e.layout with
      | none => s.stqError core e 1
      | some l => match s.stqPlan core cw e l with
        | (.error code, s) => s.stqError core e code
        | (.ok (d, rows, sra), s) =>
          let s := (s.correct sra 128 false).correctStq (portCluster core cw) d (cwFld cw 2 40 37) l.tcols rows
          let (seen, s) := s.engineView maskW
          let a := seen.stqMax core cw l d rows
          let g := s.ringMax sra
          let n := s.readMem (sra + 64) 8 % 16
          let s := (s.bankWrite (sra + 4 * n) 4 a (engineSrc core 1) e.ctx).bankWrite (sra + 64) 8 ((n + 1) % 16)
            (engineSrc core 1) e.ctx
          let s := (s.mirror e.ctx e.tick (sra + 4 * n) 4).mirror e.ctx e.tick (sra + 64) 8
          s.stqFinish core cw e l d rows (scaleDelayed (l.fmt - 11) g))

end Sys2Proof.Machine
end

