-- ==== Sys2Proof/Machine/Dispatch.lean ====
section
/-! DEFINITION. What each instruction does: one arm per constructor, each a call of its meaning. -/

namespace Sys2Proof.Machine

open Sys2Proof

/-- The instruction run in a state. -/
def exec (i : Instr) (s : State) : Host.Outcome State Fault Refusal :=
  match i with
  | .add w d a b => Sys2Proof.Machine.execAdd w d a b s
  | .sub w d a b => Sys2Proof.Machine.execSub w d a b s
  | .mul w d a b => Sys2Proof.Machine.execMul w d a b s
  | .mulh w d a b => Sys2Proof.Machine.execMulh w d a b s
  | .mulhu w d a b => Sys2Proof.Machine.execMulhu w d a b s
  | .div w d a b => Sys2Proof.Machine.execDiv w d a b s
  | .divu w d a b => Sys2Proof.Machine.execDivu w d a b s
  | .rem w d a b => Sys2Proof.Machine.execRem w d a b s
  | .remu w d a b => Sys2Proof.Machine.execRemu w d a b s
  | .and w d a b => Sys2Proof.Machine.execAnd w d a b s
  | .or w d a b => Sys2Proof.Machine.execOr w d a b s
  | .xor w d a b => Sys2Proof.Machine.execXor w d a b s
  | .andn w d a b => Sys2Proof.Machine.execAndn w d a b s
  | .orn w d a b => Sys2Proof.Machine.execOrn w d a b s
  | .sll w d a b => Sys2Proof.Machine.execSll w d a b s
  | .srl w d a b => Sys2Proof.Machine.execSrl w d a b s
  | .sra w d a b => Sys2Proof.Machine.execSra w d a b s
  | .rol w d a b => Sys2Proof.Machine.execRol w d a b s
  | .min w d a b => Sys2Proof.Machine.execMin w d a b s
  | .max w d a b => Sys2Proof.Machine.execMax w d a b s
  | .minu w d a b => Sys2Proof.Machine.execMinu w d a b s
  | .maxu w d a b => Sys2Proof.Machine.execMaxu w d a b s
  | .slt w d a b => Sys2Proof.Machine.execSlt w d a b s
  | .sltu w d a b => Sys2Proof.Machine.execSltu w d a b s
  | .seq w d a b => Sys2Proof.Machine.execSeq w d a b s
  | .clz w d a => Sys2Proof.Machine.execClz w d a s
  | .ctz w d a => Sys2Proof.Machine.execCtz w d a s
  | .popc w d a => Sys2Proof.Machine.execPopc w d a s
  | .sel w d a b c => Sys2Proof.Machine.execSel w d a b c s
  | .ext w d a l p => Sys2Proof.Machine.execExt w d a l p s
  | .exts w d a l p => Sys2Proof.Machine.execExts w d a l p s
  | .ins w d a l p => Sys2Proof.Machine.execIns w d a l p s
  | .addi w d a imm => Sys2Proof.Machine.execAddi w d a imm s
  | .andi w d a imm => Sys2Proof.Machine.execAndi w d a imm s
  | .ori w d a imm => Sys2Proof.Machine.execOri w d a imm s
  | .xori w d a imm => Sys2Proof.Machine.execXori w d a imm s
  | .slli w d a sh => Sys2Proof.Machine.execSlli w d a sh s
  | .srli w d a sh => Sys2Proof.Machine.execSrli w d a sh s
  | .srai w d a sh => Sys2Proof.Machine.execSrai w d a sh s
  | .slti w d a imm => Sys2Proof.Machine.execSlti w d a imm s
  | .sltiu w d a imm => Sys2Proof.Machine.execSltiu w d a imm s
  | .lui w d imm => Sys2Proof.Machine.execLui w d imm s
  | .auipc w d imm => Sys2Proof.Machine.execAuipc w d imm s
  | .fadd w d a b y => Sys2Proof.Machine.execFadd w d a b y s
  | .fsub w d a b y => Sys2Proof.Machine.execFsub w d a b y s
  | .fmul w d a b y => Sys2Proof.Machine.execFmul w d a b y s
  | .fmin w d a b y => Sys2Proof.Machine.execFmin w d a b y s
  | .fmax w d a b y => Sys2Proof.Machine.execFmax w d a b y s
  | .fdiv w d a b y => Sys2Proof.Machine.execFdiv w d a b y s
  | .fsqrt w d a y => Sys2Proof.Machine.execFsqrt w d a y s
  | .fcmpLt w d a b y => Sys2Proof.Machine.execFcmpLt w d a b y s
  | .fcmpLe w d a b y => Sys2Proof.Machine.execFcmpLe w d a b y s
  | .fcmpEq w d a b y => Sys2Proof.Machine.execFcmpEq w d a b y s
  | .fclass w d a y => Sys2Proof.Machine.execFclass w d a y s
  | .fma w d a b c y => Sys2Proof.Machine.execFma w d a b c y s
  | .fcvt w d a u f t => Sys2Proof.Machine.execFcvt w d a u f t s
  | .beq w a b o => Sys2Proof.Machine.execBeq w a b o s
  | .bne w a b o => Sys2Proof.Machine.execBne w a b o s
  | .blt w a b o => Sys2Proof.Machine.execBlt w a b o s
  | .bge w a b o => Sys2Proof.Machine.execBge w a b o s
  | .bltu w a b o => Sys2Proof.Machine.execBltu w a b o s
  | .bgeu w a b o => Sys2Proof.Machine.execBgeu w a b o s
  | .j w o => Sys2Proof.Machine.execJ w o s
  | .jal w o => Sys2Proof.Machine.execJal w o s
  | .jalr w d a imm => Sys2Proof.Machine.execJalr w d a imm s
  | .tend w a n => Sys2Proof.Machine.execTend w a n s
  | .tendComplete core => Sys2Proof.Machine.execTendComplete core s
  | .yield w n => Sys2Proof.Machine.execYield w n s
  | .yieldComplete core => Sys2Proof.Machine.execYieldComplete core s
  | .csrr w d c => Sys2Proof.Machine.execCsrr w d c s
  | .csrw w d a c => Sys2Proof.Machine.execCsrw w d a c s
  | .csrs w d a c => Sys2Proof.Machine.execCsrs w d a c s
  | .csrc w d a c => Sys2Proof.Machine.execCsrc w d a c s
  | .ldB w d a imm => Sys2Proof.Machine.execLdB w d a imm s
  | .ldBz w d a imm => Sys2Proof.Machine.execLdBz w d a imm s
  | .ldH w d a imm => Sys2Proof.Machine.execLdH w d a imm s
  | .ldHz w d a imm => Sys2Proof.Machine.execLdHz w d a imm s
  | .ldW w d a imm => Sys2Proof.Machine.execLdW w d a imm s
  | .ldWz w d a imm => Sys2Proof.Machine.execLdWz w d a imm s
  | .ldD w d a imm => Sys2Proof.Machine.execLdD w d a imm s
  | .stB w b a imm => Sys2Proof.Machine.execStB w b a imm s
  | .stH w b a imm => Sys2Proof.Machine.execStH w b a imm s
  | .stW w b a imm => Sys2Proof.Machine.execStW w b a imm s
  | .stD w b a imm => Sys2Proof.Machine.execStD w b a imm s
  | .ldAcq w d a k o => Sys2Proof.Machine.execLdAcq w d a k o s
  | .stRel w b a k o => Sys2Proof.Machine.execStRel w b a k o s
  | .stRelStoreLeaves core seq => Sys2Proof.Machine.execStRelStoreLeaves core seq s
  | .fenceFull w k => Sys2Proof.Machine.execFenceFull w k s
  | .fenceAcq w k => Sys2Proof.Machine.execFenceAcq w k s
  | .fenceRel w k => Sys2Proof.Machine.execFenceRel w k s
  | .amoAdd w d a b sh => Sys2Proof.Machine.execAmoAdd w d a b sh s
  | .amoAnd w d a b sh => Sys2Proof.Machine.execAmoAnd w d a b sh s
  | .amoOr w d a b sh => Sys2Proof.Machine.execAmoOr w d a b sh s
  | .amoXor w d a b sh => Sys2Proof.Machine.execAmoXor w d a b sh s
  | .amoMin w d a b sh => Sys2Proof.Machine.execAmoMin w d a b sh s
  | .amoMax w d a b sh => Sys2Proof.Machine.execAmoMax w d a b sh s
  | .amoMinu w d a b sh => Sys2Proof.Machine.execAmoMinu w d a b sh s
  | .amoMaxu w d a b sh => Sys2Proof.Machine.execAmoMaxu w d a b sh s
  | .amoSwap w d a b sh => Sys2Proof.Machine.execAmoSwap w d a b sh s
  | .amoFaddF32 w d a b => Sys2Proof.Machine.execAmoFaddF32 w d a b s
  | .amoFaddBf16 w d a b => Sys2Proof.Machine.execAmoFaddBf16 w d a b s
  | .amoFmaxF32 w d a b => Sys2Proof.Machine.execAmoFmaxF32 w d a b s
  | .casI64 w d a b c => Sys2Proof.Machine.execCasI64 w d a b c s
  | .casI32 w d a b c => Sys2Proof.Machine.execCasI32 w d a b c s
  | .dadd w d a b y => Sys2Proof.Machine.execDadd w d a b y s
  | .cadd w d a b k => Sys2Proof.Machine.execCadd w d a b k s
  | .caddAdditionSent core seq => Sys2Proof.Machine.execCaddAdditionSent core seq s
  | .dseal w d a => Sys2Proof.Machine.execDseal w d a s
  | .tlnew w d a b => Sys2Proof.Machine.execTlnew w d a b s
  | .tlnewAtCluster core seq => Sys2Proof.Machine.execTlnewAtCluster core seq s
  | .tlnewResult core seq => Sys2Proof.Machine.execTlnewResult core seq s
  | .tlfree w a => Sys2Proof.Machine.execTlfree w a s
  | .tlfreeArrival cluster ask => Sys2Proof.Machine.execTlfreeArrival cluster ask s
  | .send w d a b k => Sys2Proof.Machine.execSend w d a b k s
  | .sendInject core => Sys2Proof.Machine.execSendInject core s
  | .post w d a k => Sys2Proof.Machine.execPost w d a k s
  | .reply w d k => Sys2Proof.Machine.execReply w d k s
  | .replyTo w d a k => Sys2Proof.Machine.execReplyTo w d a k s
  | .promise w a => Sys2Proof.Machine.execPromise w a s
  | .chopen w d a b => Sys2Proof.Machine.execChopen w d a b s
  | .chopenAtTarget core seq => Sys2Proof.Machine.execChopenAtTarget core seq s
  | .chopenResult core seq => Sys2Proof.Machine.execChopenResult core seq s
  | .chclose w a => Sys2Proof.Machine.execChclose w a s
  | .nstat w d a sh => Sys2Proof.Machine.execNstat w d a sh s
  | .tsub w d a k => Sys2Proof.Machine.execTsub w d a k s
  | .tsubRecordWrite core seq => Sys2Proof.Machine.execTsubRecordWrite core seq s
  | .krel w a => Sys2Proof.Machine.execKrel w a s
  | .krelSent core seq => Sys2Proof.Machine.execKrelSent core seq s
  | .kheld w d a => Sys2Proof.Machine.execKheld w d a s
  | .bara w k => Sys2Proof.Machine.execBara w k s
  | .barw w => Sys2Proof.Machine.execBarw w s
  | .bar w k => Sys2Proof.Machine.execBar w k s
  | .barArrivalSent core seq => Sys2Proof.Machine.execBarArrivalSent core seq s
  | .mrls w => Sys2Proof.Machine.execMrls w s
  | .push w q a => Sys2Proof.Machine.execPush w q a s
  | .pushm w q a n m => Sys2Proof.Machine.execPushm w q a n m s
  | .pushEntersQueue core seq => Sys2Proof.Machine.execPushEntersQueue core seq s
  | .pop w q a => Sys2Proof.Machine.execPop w q a s
  | .qstat w q a => Sys2Proof.Machine.execQstat w q a s
  | .tldr w t r a h o => Sys2Proof.Machine.execTldr w t r a h o s
  | .tstr w t r a h o => Sys2Proof.Machine.execTstr w t r a h o s
  | .tld w t a o => Sys2Proof.Machine.execTld w t a o s
  | .tst w t a o => Sys2Proof.Machine.execTst w t a o s
  | .vadd w d a b r y => Sys2Proof.Machine.execVadd w d a b r y s
  | .vaddX w d a b x y => Sys2Proof.Machine.execVaddX w d a b x y s
  | .vsub w d a b r y => Sys2Proof.Machine.execVsub w d a b r y s
  | .vsubX w d a b x y => Sys2Proof.Machine.execVsubX w d a b x y s
  | .vmul w d a b r y => Sys2Proof.Machine.execVmul w d a b r y s
  | .vmulX w d a b x y => Sys2Proof.Machine.execVmulX w d a b x y s
  | .vmin w d a b r y => Sys2Proof.Machine.execVmin w d a b r y s
  | .vminX w d a b x y => Sys2Proof.Machine.execVminX w d a b x y s
  | .vmax w d a b r y => Sys2Proof.Machine.execVmax w d a b r y s
  | .vmaxX w d a b x y => Sys2Proof.Machine.execVmaxX w d a b x y s
  | .vabs w d a r y => Sys2Proof.Machine.execVabs w d a r y s
  | .vabsX w d a x y => Sys2Proof.Machine.execVabsX w d a x y s
  | .vneg w d a r y => Sys2Proof.Machine.execVneg w d a r y s
  | .vnegX w d a x y => Sys2Proof.Machine.execVnegX w d a x y s
  | .vand w d a b r y => Sys2Proof.Machine.execVand w d a b r y s
  | .vandX w d a b x y => Sys2Proof.Machine.execVandX w d a b x y s
  | .vor w d a b r y => Sys2Proof.Machine.execVor w d a b r y s
  | .vorX w d a b x y => Sys2Proof.Machine.execVorX w d a b x y s
  | .vxor w d a b r y => Sys2Proof.Machine.execVxor w d a b r y s
  | .vxorX w d a b x y => Sys2Proof.Machine.execVxorX w d a b x y s
  | .vshl w d a b r y => Sys2Proof.Machine.execVshl w d a b r y s
  | .vshlX w d a b x y => Sys2Proof.Machine.execVshlX w d a b x y s
  | .vshr w d a b r y => Sys2Proof.Machine.execVshr w d a b r y s
  | .vshrX w d a b x y => Sys2Proof.Machine.execVshrX w d a b x y s
  | .vsra w d a b r y => Sys2Proof.Machine.execVsra w d a b r y s
  | .vsraX w d a b x y => Sys2Proof.Machine.execVsraX w d a b x y s
  | .vcmpLt w d a b r y => Sys2Proof.Machine.execVcmpLt w d a b r y s
  | .vcmpLtX w d a b x y => Sys2Proof.Machine.execVcmpLtX w d a b x y s
  | .vcmpLe w d a b r y => Sys2Proof.Machine.execVcmpLe w d a b r y s
  | .vcmpLeX w d a b x y => Sys2Proof.Machine.execVcmpLeX w d a b x y s
  | .vcmpEq w d a b r y => Sys2Proof.Machine.execVcmpEq w d a b r y s
  | .vcmpEqX w d a b x y => Sys2Proof.Machine.execVcmpEqX w d a b x y s
  | .vsel w d a b r y => Sys2Proof.Machine.execVsel w d a b r y s
  | .vselX w d a b x y => Sys2Proof.Machine.execVselX w d a b x y s
  | .vmov w d a r y => Sys2Proof.Machine.execVmov w d a r y s
  | .vmovX w d a x y => Sys2Proof.Machine.execVmovX w d a x y s
  | .vfma w d a b r y => Sys2Proof.Machine.execVfma w d a b r y s
  | .vfmaX w d a b x y => Sys2Proof.Machine.execVfmaX w d a b x y s
  | .vrcp w d a r y => Sys2Proof.Machine.execVrcp w d a r y s
  | .vrcpX w d a x y => Sys2Proof.Machine.execVrcpX w d a x y s
  | .vrsq w d a r y => Sys2Proof.Machine.execVrsq w d a r y s
  | .vrsqX w d a x y => Sys2Proof.Machine.execVrsqX w d a x y s
  | .vrfn w d a b r y => Sys2Proof.Machine.execVrfn w d a b r y s
  | .vrfnX w d a b x y => Sys2Proof.Machine.execVrfnX w d a b x y s
  | .vrfs w d a b r y => Sys2Proof.Machine.execVrfs w d a b r y s
  | .vrfsX w d a b x y => Sys2Proof.Machine.execVrfsX w d a b x y s
  | .vexp2 w d a r y => Sys2Proof.Machine.execVexp2 w d a r y s
  | .vexp2X w d a x y => Sys2Proof.Machine.execVexp2X w d a x y s
  | .vlog2 w d a r y => Sys2Proof.Machine.execVlog2 w d a r y s
  | .vlog2X w d a x y => Sys2Proof.Machine.execVlog2X w d a x y s
  | .vcvt w d a p r y c => Sys2Proof.Machine.execVcvt w d a p r y c s
  | .vcvtX w d a p x y c => Sys2Proof.Machine.execVcvtX w d a p x y c s
  | .vqnt w d a p r y => Sys2Proof.Machine.execVqnt w d a p r y s
  | .vqntX w d a p x y => Sys2Proof.Machine.execVqntX w d a p x y s
  | .vdq w d a p r y => Sys2Proof.Machine.execVdq w d a p r y s
  | .vdqX w d a p x y => Sys2Proof.Machine.execVdqX w d a p x y s
  | .vredSum w d a r y => Sys2Proof.Machine.execVredSum w d a r y s
  | .vredSumX w d a x y => Sys2Proof.Machine.execVredSumX w d a x y s
  | .vredMin w d a r y => Sys2Proof.Machine.execVredMin w d a r y s
  | .vredMinX w d a x y => Sys2Proof.Machine.execVredMinX w d a x y s
  | .vredMax w d a r y => Sys2Proof.Machine.execVredMax w d a r y s
  | .vredMaxX w d a x y => Sys2Proof.Machine.execVredMaxX w d a x y s
  | .vredAmax w d a r y => Sys2Proof.Machine.execVredAmax w d a r y s
  | .vredAmaxX w d a x y => Sys2Proof.Machine.execVredAmaxX w d a x y s
  | .vscan w d a r y => Sys2Proof.Machine.execVscan w d a r y s
  | .vscanX w d a x y => Sys2Proof.Machine.execVscanX w d a x y s
  | .vperm w d a b r y => Sys2Proof.Machine.execVperm w d a b r y s
  | .vins w d a b r y => Sys2Proof.Machine.execVins w d a b r y s
  | .vext w d a b r y => Sys2Proof.Machine.execVext w d a b r y s
  | .vbcast w d a j r y => Sys2Proof.Machine.execVbcast w d a j r y s
  | .vneur w d a b r y => Sys2Proof.Machine.execVneur w d a b r y s
  | .vectorUnitStart cluster => Sys2Proof.Machine.execVectorUnitStart cluster s
  | .rowWrite core => Sys2Proof.Machine.execRowWrite core s
  | .mva w c t p y => Sys2Proof.Machine.execMva w c t p y s
  | .amv w t c p y => Sys2Proof.Machine.execAmv w t c p y s
  | .trap w n => Sys2Proof.Machine.execTrap w n s
  | .sysc w n => Sys2Proof.Machine.execSysc w n s
  | .eret w => Sys2Proof.Machine.execEret w s
  | .tlbi w a => Sys2Proof.Machine.execTlbi w a s
  | .tlbiAll w => Sys2Proof.Machine.execTlbiAll w s
  | .tlbiInvalidate core unit index all va => Sys2Proof.Machine.execTlbiInvalidate core unit index all va s
  | .nlog w a b => Sys2Proof.Machine.execNlog w a b s
  | .ckpt w d a b => Sys2Proof.Machine.execCkpt w d a b s
  | .ctxcQuery w d a => Sys2Proof.Machine.execCtxcQuery w d a s
  | .ctxcRdf w d a => Sys2Proof.Machine.execCtxcRdf w d a s
  | .ctxcWrf w d a b => Sys2Proof.Machine.execCtxcWrf w d a b s
  | .ctxcFrz w d a => Sys2Proof.Machine.execCtxcFrz w d a s
  | .ctxcThaw w d a => Sys2Proof.Machine.execCtxcThaw w d a s
  | .ctxcTear w d a => Sys2Proof.Machine.execCtxcTear w d a s
  | .qreqWrite ctx v => Sys2Proof.Machine.execQreqWrite ctx v s
  | .oqcapWrite ctx v => Sys2Proof.Machine.execOqcapWrite ctx v s
  | .illegalWord x => Sys2Proof.Machine.execIllegalWord x s
  | .trapEntry core => Sys2Proof.Machine.execTrapEntry core s
  | .watchdog core => Sys2Proof.Machine.execWatchdog core s
  | .translationWalk core va kind => Sys2Proof.Machine.execTranslationWalk core va kind s
  | .bankLoad id => Sys2Proof.Machine.execBankLoad id s
  | .bankStore id => Sys2Proof.Machine.execBankStore id s
  | .rowLoadRequest id => Sys2Proof.Machine.execRowLoadRequest id s
  | .rowStoreRequest id => Sys2Proof.Machine.execRowStoreRequest id s
  | .scaleSlotWrite id => Sys2Proof.Machine.execScaleSlotWrite id s
  | .amoAtBank id => Sys2Proof.Machine.execAmoAtBank id s
  | .casAtBank id => Sys2Proof.Machine.execCasAtBank id s
  | .counterAddAtBank id => Sys2Proof.Machine.execCounterAddAtBank id s
  | .daddAtBank id => Sys2Proof.Machine.execDaddAtBank id s
  | .dsealAtBank id => Sys2Proof.Machine.execDsealAtBank id s
  | .loadResponse id => Sys2Proof.Machine.execLoadResponse id s
  | .storeAck id => Sys2Proof.Machine.execStoreAck id s
  | .rowLoadResponse id => Sys2Proof.Machine.execRowLoadResponse id s
  | .flitInject cluster => Sys2Proof.Machine.execFlitInject cluster s
  | .flitArrival router => Sys2Proof.Machine.execFlitArrival router s
  | .receiptArrival src mtag => Sys2Proof.Machine.execReceiptArrival src mtag s
  | .nakArrival src mtag mem => Sys2Proof.Machine.execNakArrival src mtag mem s
  | .injectionStop cluster => Sys2Proof.Machine.execInjectionStop cluster s
  | .throttleWindow router => Sys2Proof.Machine.execThrottleWindow router s
  | .bulkDeferExpiry cluster tag => Sys2Proof.Machine.execBulkDeferExpiry cluster tag s
  | .overflowWrite cluster => Sys2Proof.Machine.execOverflowWrite cluster s
  | .recall cluster cls => Sys2Proof.Machine.execRecall cluster cls s
  | .ovminRecomputeDone cluster slot => Sys2Proof.Machine.execOvminRecomputeDone cluster slot s
  | .linkReplay link up seqno => Sys2Proof.Machine.execLinkReplay link up seqno s
  | .retrainEnd link ok => Sys2Proof.Machine.execRetrainEnd link ok s
  | .pcieCompletionTimeout id => Sys2Proof.Machine.execPcieCompletionTimeout id s
  | .promiseArrival cluster slot cseq v => Sys2Proof.Machine.execPromiseArrival cluster slot cseq v s
  | .transit cluster slot => Sys2Proof.Machine.execTransit cluster slot s
  | .promiseSend cluster out => Sys2Proof.Machine.execPromiseSend cluster out s
  | .askSend cluster slot => Sys2Proof.Machine.execAskSend cluster slot s
  | .askArrival cluster out => Sys2Proof.Machine.execAskArrival cluster out s
  | .tokenStart ctx => Sys2Proof.Machine.execTokenStart ctx s
  | .surveyVisit ctx => Sys2Proof.Machine.execSurveyVisit ctx s
  | .survstall ctx => Sys2Proof.Machine.execSurvstall ctx s
  | .eventArrival cluster slot cseq src stamp p0 => Sys2Proof.Machine.execEventArrival cluster slot cseq src stamp p0 s
  | .taskEntry cluster => Sys2Proof.Machine.execTaskEntry cluster s
  | .deskKreq slice ctx cluster tag key => Sys2Proof.Machine.execDeskKreq slice ctx cluster tag key s
  | .kgrantArrival cluster tag key => Sys2Proof.Machine.execKgrantArrival cluster tag key s
  | .krefuseArrival cluster tag key => Sys2Proof.Machine.execKrefuseArrival cluster tag key s
  | .keyRetry cluster tag => Sys2Proof.Machine.execKeyRetry cluster tag s
  | .deskKrel slice ctx cluster tag key => Sys2Proof.Machine.execDeskKrel slice ctx cluster tag key s
  | .deskKcancel slice ctx cluster tag key => Sys2Proof.Machine.execDeskKcancel slice ctx cluster tag key s
  | .krunAtDesk slice ctx cluster tag key => Sys2Proof.Machine.execKrunAtDesk slice ctx cluster tag key s
  | .kqueryAtDesk core seq => Sys2Proof.Machine.execKqueryAtDesk core seq s
  | .kstatArrival core seq => Sys2Proof.Machine.execKstatArrival core seq s
  | .wregAtSlice cluster tag cond => Sys2Proof.Machine.execWregAtSlice cluster tag cond s
  | .wmetArrival cluster tag cond => Sys2Proof.Machine.execWmetArrival cluster tag cond s
  | .wrefuseArrival cluster tag cond => Sys2Proof.Machine.execWrefuseArrival cluster tag cond s
  | .watchPoll cluster tag cond => Sys2Proof.Machine.execWatchPoll cluster tag cond s
  | .wcancelAtSlice slice cluster tag cond => Sys2Proof.Machine.execWcancelAtSlice slice cluster tag cond s
  | .dwait cluster tag => Sys2Proof.Machine.execDwait cluster tag s
  | .dispatch cluster => Sys2Proof.Machine.execDispatch cluster s
  | .priorityPromotion cluster tag => Sys2Proof.Machine.execPriorityPromotion cluster tag s
  | .quadHoldRequest cluster tag => Sys2Proof.Machine.execQuadHoldRequest cluster tag s
  | .quadGangStart quad => Sys2Proof.Machine.execQuadGangStart quad s
  | .barrierArrival core => Sys2Proof.Machine.execBarrierArrival core s
  | .barrierExit core => Sys2Proof.Machine.execBarrierExit core s
  | .barrierWake core => Sys2Proof.Machine.execBarrierWake core s
  | .slwinWrite v => Sys2Proof.Machine.execSlwinWrite v s
  | .slwinSwitchDone slice win => Sys2Proof.Machine.execSlwinSwitchDone slice win s
  | .slcolsWrite v => Sys2Proof.Machine.execSlcolsWrite v s
  | .slcolsSwitch cols => Sys2Proof.Machine.execSlcolsSwitch cols s
  | .patrolScrub slice addr => Sys2Proof.Machine.execPatrolScrub slice addr s
  | .bfill core cw => Sys2Proof.Machine.execBfill core cw s
  | .badd core cw => Sys2Proof.Machine.execBadd core cw s
  | .baxpy core cw => Sys2Proof.Machine.execBaxpy core cw s
  | .bred core cw => Sys2Proof.Machine.execBred core cw s
  | .mma core cw => Sys2Proof.Machine.execMma core cw s
  | .mmz core cw => Sys2Proof.Machine.execMmz core cw s
  | .acrd core cw => Sys2Proof.Machine.execAcrd core cw s
  | .acwr core cw => Sys2Proof.Machine.execAcwr core cw s
  | .mtr core cw => Sys2Proof.Machine.execMtr core cw s
  | .leaseGrant cluster => Sys2Proof.Machine.execLeaseGrant cluster s
  | .releaseMarkerHead core => Sys2Proof.Machine.execReleaseMarkerHead core s
  | .waithRecheck core q => Sys2Proof.Machine.execWaithRecheck core q s
  | .engineCommandComplete core q ser => Sys2Proof.Machine.execEngineCommandComplete core q ser s
  | .sighAnswer core q ser => Sys2Proof.Machine.execSighAnswer core q ser s
  | .wload core cw => Sys2Proof.Machine.execWload core cw s
  | .wstore core cw => Sys2Proof.Machine.execWstore core cw s
  | .wstq core cw => Sys2Proof.Machine.execWstq core cw s
  | .wmcast core cw => Sys2Proof.Machine.execWmcast core cw s
  | .wdeal core cw => Sys2Proof.Machine.execWdeal core cw s
  | .wgather core cw => Sys2Proof.Machine.execWgather core cw s
  | .wscatter core cw => Sys2Proof.Machine.execWscatter core cw s
  | .wfill core cw => Sys2Proof.Machine.execWfill core cw s
  | .signal core cw => Sys2Proof.Machine.execSignal core cw s
  | .scalingExchange core ser => Sys2Proof.Machine.execScalingExchange core ser s
  | .mcastTransfer id => Sys2Proof.Machine.execMcastTransfer id s
  | .drainAddition core ser => Sys2Proof.Machine.execDrainAddition core ser s
  | .freezeGraceEnd ctx => Sys2Proof.Machine.execFreezeGraceEnd ctx s
  | .freezeDone ctx => Sys2Proof.Machine.execFreezeDone ctx s
  | .thawDone ctx => Sys2Proof.Machine.execThawDone ctx s
  | .pagePreserve ctx page => Sys2Proof.Machine.execPagePreserve ctx page s
  | .archiveStart ctx => Sys2Proof.Machine.execArchiveStart ctx s
  | .archivePage ctx page => Sys2Proof.Machine.execArchivePage ctx page s
  | .checkpointComplete ctx => Sys2Proof.Machine.execCheckpointComplete ctx s
  | .nlctlWrite v => Sys2Proof.Machine.execNlctlWrite v s
  | .lnkstWrite v => Sys2Proof.Machine.execLnkstWrite v s
  | .cnrectWrite v => Sys2Proof.Machine.execCnrectWrite v s
  | .cnctlFence rect on => Sys2Proof.Machine.execCnctlFence rect on s
  | .cnctlReset rect => Sys2Proof.Machine.execCnctlReset rect s
  | .containmentResetDone rect => Sys2Proof.Machine.execContainmentResetDone rect s
  | .registerWrite r v => Sys2Proof.Machine.execRegisterWrite r v s
  | .hostPostWrite fn entry link r => Sys2Proof.Machine.execHostPostWrite fn entry link r s
  | .hostPromise fn entry link v => Sys2Proof.Machine.execHostPromise fn entry link v s
  | .hostReplyWrite core => Sys2Proof.Machine.execHostReplyWrite core s
  | .rrheadWrite fn v => Sys2Proof.Machine.execRrheadWrite fn v s
  | .vfbindWrite fn v => Sys2Proof.Machine.execVfbindWrite fn v s
  | .domidWrite v => Sys2Proof.Machine.execDomidWrite v s
  | .firmwareRequestTake ctx => Sys2Proof.Machine.execFirmwareRequestTake ctx s
  | .reductionDescriptorWrite ws => Sys2Proof.Machine.execReductionDescriptorWrite ws s
  | .reductionContribution window device offset size gen data => Sys2Proof.Machine.execReductionContribution window device offset size gen data s
  | .fabricFrameArrival port frame => Sys2Proof.Machine.execFabricFrameArrival port frame s
  | .thermalTrip => Sys2Proof.Machine.execThermalTrip s
  | .thermalRecover => Sys2Proof.Machine.execThermalRecover s
  | .perstRelease => Sys2Proof.Machine.execPerstRelease s
  | .contextCreate ctx l => Sys2Proof.Machine.execContextCreate ctx l s
  | .pcieCompletionArrival id status => Sys2Proof.Machine.execPcieCompletionArrival id status s

end Sys2Proof.Machine
end

