-- ==== Sys2Proof/Machine/RunEvent.lean ====
section
/-! DEFINITION. A step of the agenda as the meaning of its row of the opcode table. -/

namespace Sys2Proof.Machine

open Sys2Proof

/-- A pending step taken: a command is decoded and run as its instruction, every other step is its row's meaning. A command
word that no CWOP names has ended when its queue looked at it (R43), so that here it changes nothing. -/
def eventMeaning (e : Event) (s : State) : Result State :=
  match e with
  | .command core cw => (match decodeCommand core cw with
    | some i => exec i s
    | none => .next s)
  | .tendComplete core => execTendComplete core s
  | .yieldComplete core => execYieldComplete core s
  | .stRelStoreLeaves core seq => execStRelStoreLeaves core seq s
  | .caddAdditionSent core seq => execCaddAdditionSent core seq s
  | .tlnewAtCluster core seq => execTlnewAtCluster core seq s
  | .tlnewResult core seq => execTlnewResult core seq s
  | .tlfreeArrival cluster ask => execTlfreeArrival cluster ask s
  | .sendInject core => execSendInject core s
  | .chopenAtTarget core seq => execChopenAtTarget core seq s
  | .chopenResult core seq => execChopenResult core seq s
  | .tsubRecordWrite core seq => execTsubRecordWrite core seq s
  | .krelSent core seq => execKrelSent core seq s
  | .barArrivalSent core seq => execBarArrivalSent core seq s
  | .pushEntersQueue core seq => execPushEntersQueue core seq s
  | .vectorUnitStart cluster => execVectorUnitStart cluster s
  | .rowWrite core => execRowWrite core s
  | .tlbiInvalidate core unit index all va => execTlbiInvalidate core unit index all va s
  | .qreqWrite ctx v => execQreqWrite ctx v s
  | .oqcapWrite ctx v => execOqcapWrite ctx v s
  | .trapEntry core => execTrapEntry core s
  | .watchdog core => execWatchdog core s
  | .translationWalk core va kind => execTranslationWalk core va kind s
  | .bankLoad id => execBankLoad id s
  | .bankStore id => execBankStore id s
  | .rowLoadRequest id => execRowLoadRequest id s
  | .rowStoreRequest id => execRowStoreRequest id s
  | .scaleSlotWrite id => execScaleSlotWrite id s
  | .amoAtBank id => execAmoAtBank id s
  | .casAtBank id => execCasAtBank id s
  | .counterAddAtBank id => execCounterAddAtBank id s
  | .daddAtBank id => execDaddAtBank id s
  | .dsealAtBank id => execDsealAtBank id s
  | .loadResponse id => execLoadResponse id s
  | .storeAck id => execStoreAck id s
  | .rowLoadResponse id => execRowLoadResponse id s
  | .flitInject cluster => execFlitInject cluster s
  | .flitArrival router => execFlitArrival router s
  | .receiptArrival src mtag => execReceiptArrival src mtag s
  | .nakArrival src mtag mem => execNakArrival src mtag mem s
  | .injectionStop cluster => execInjectionStop cluster s
  | .throttleWindow router => execThrottleWindow router s
  | .bulkDeferExpiry cluster tag => execBulkDeferExpiry cluster tag s
  | .overflowWrite cluster => execOverflowWrite cluster s
  | .recall cluster cls => execRecall cluster cls s
  | .ovminRecomputeDone cluster slot => execOvminRecomputeDone cluster slot s
  | .linkReplay link up seqno => execLinkReplay link up seqno s
  | .retrainEnd link ok => execRetrainEnd link ok s
  | .pcieCompletionTimeout id => execPcieCompletionTimeout id s
  | .promiseArrival cluster slot cseq v => execPromiseArrival cluster slot cseq v s
  | .transit cluster slot => execTransit cluster slot s
  | .promiseSend cluster out => execPromiseSend cluster out s
  | .askSend cluster slot => execAskSend cluster slot s
  | .askArrival cluster out => execAskArrival cluster out s
  | .tokenStart ctx => execTokenStart ctx s
  | .surveyVisit ctx => execSurveyVisit ctx s
  | .survstall ctx => execSurvstall ctx s
  | .eventArrival cluster slot cseq src stamp p0 => execEventArrival cluster slot cseq src stamp p0 s
  | .taskEntry cluster => execTaskEntry cluster s
  | .deskKreq slice ctx cluster tag key => execDeskKreq slice ctx cluster tag key s
  | .kgrantArrival cluster tag key => execKgrantArrival cluster tag key s
  | .krefuseArrival cluster tag key => execKrefuseArrival cluster tag key s
  | .keyRetry cluster tag => execKeyRetry cluster tag s
  | .deskKrel slice ctx cluster tag key => execDeskKrel slice ctx cluster tag key s
  | .deskKcancel slice ctx cluster tag key => execDeskKcancel slice ctx cluster tag key s
  | .krunAtDesk slice ctx cluster tag key => execKrunAtDesk slice ctx cluster tag key s
  | .kqueryAtDesk core seq => execKqueryAtDesk core seq s
  | .kstatArrival core seq => execKstatArrival core seq s
  | .wregAtSlice cluster tag cond => execWregAtSlice cluster tag cond s
  | .wmetArrival cluster tag cond => execWmetArrival cluster tag cond s
  | .wrefuseArrival cluster tag cond => execWrefuseArrival cluster tag cond s
  | .watchPoll cluster tag cond => execWatchPoll cluster tag cond s
  | .wcancelAtSlice slice cluster tag cond => execWcancelAtSlice slice cluster tag cond s
  | .dwait cluster tag => execDwait cluster tag s
  | .dispatch cluster => execDispatch cluster s
  | .priorityPromotion cluster tag => execPriorityPromotion cluster tag s
  | .quadHoldRequest cluster tag => execQuadHoldRequest cluster tag s
  | .quadGangStart quad => execQuadGangStart quad s
  | .barrierArrival core => execBarrierArrival core s
  | .barrierExit core => execBarrierExit core s
  | .barrierWake core => execBarrierWake core s
  | .slwinWrite v => execSlwinWrite v s
  | .slwinSwitchDone slice win => execSlwinSwitchDone slice win s
  | .slcolsWrite v => execSlcolsWrite v s
  | .slcolsSwitch cols => execSlcolsSwitch cols s
  | .patrolScrub slice addr => execPatrolScrub slice addr s
  | .leaseGrant cluster => execLeaseGrant cluster s
  | .releaseMarkerHead core => execReleaseMarkerHead core s
  | .waithRecheck core q => execWaithRecheck core q s
  | .engineCommandComplete core q ser => execEngineCommandComplete core q ser s
  | .sighAnswer core q ser => execSighAnswer core q ser s
  | .scalingExchange core ser => execScalingExchange core ser s
  | .mcastTransfer id => execMcastTransfer id s
  | .drainAddition core ser => execDrainAddition core ser s
  | .freezeGraceEnd ctx => execFreezeGraceEnd ctx s
  | .freezeDone ctx => execFreezeDone ctx s
  | .thawDone ctx => execThawDone ctx s
  | .pagePreserve ctx page => execPagePreserve ctx page s
  | .archiveStart ctx => execArchiveStart ctx s
  | .archivePage ctx page => execArchivePage ctx page s
  | .checkpointComplete ctx => execCheckpointComplete ctx s
  | .nlctlWrite v => execNlctlWrite v s
  | .lnkstWrite v => execLnkstWrite v s
  | .cnrectWrite v => execCnrectWrite v s
  | .cnctlFence rect on => execCnctlFence rect on s
  | .cnctlReset rect => execCnctlReset rect s
  | .containmentResetDone rect => execContainmentResetDone rect s
  | .registerWrite r v => execRegisterWrite r v s
  | .hostPostWrite fn entry link r => execHostPostWrite fn entry link r s
  | .hostPromise fn entry link v => execHostPromise fn entry link v s
  | .hostReplyWrite core => execHostReplyWrite core s
  | .rrheadWrite fn v => execRrheadWrite fn v s
  | .vfbindWrite fn v => execVfbindWrite fn v s
  | .domidWrite v => execDomidWrite v s
  | .firmwareRequestTake ctx => execFirmwareRequestTake ctx s
  | .reductionDescriptorWrite ws => execReductionDescriptorWrite ws s
  | .reductionContribution window device offset size gen data => execReductionContribution window device offset size gen data s
  | .fabricFrameArrival port frame => execFabricFrameArrival port frame s
  | .thermalTrip => execThermalTrip s
  | .thermalRecover => execThermalRecover s
  | .perstRelease => execPerstRelease s
  | .contextCreate ctx l => execContextCreate ctx l s
  | .pcieCompletionArrival id status => execPcieCompletionArrival id status s

/-- A step that has met an access which has to wait has not happened; else its outcome (R254, R405). -/
def unlessBlocked (r : Result State) (wait : State) : Result State := match r with
  | .next t => if t.blocked then .next wait else .next t
  | .fault f => .fault f
  | .refused f => .refused f

/-- A step of the agenda, taken 64 cycles later where an access of it has to wait. -/
def runEvent (e : Event) (s : State) : Result State := unlessBlocked (eventMeaning e s) (s.postIn 64 e)

end Sys2Proof.Machine
end

