-- ==== Sys2Proof/Machine/Fetch.lean ====
section
/-! DEFINITION. Which agent acts next, fetching a word, and what stands around a word's meaning (R84 to R86, R106, R120,
R213); placing an instruction where the next step takes it. -/

namespace Sys2Proof.Machine

open Sys2Proof

/-! ### Whose turn it is (log 1) -/

/-- The first step of an agenda that is due, and the agenda without it. -/
def takeDue (cyc : Nat) : List (Nat × Event) → Option (Event × List (Nat × Event))
  | [] => none
  | p :: t =>
    if p.1 ≤ cyc then some (p.2, t)
    else match takeDue cyc t with
      | none => none
      | some (e, r) => some (e, p :: r)

/-- The first core that may issue a word in this cycle. -/
def firstReady (cyc : Nat) : Map Core → Option Nat
  | [] => none
  | p :: t => if p.2.run = .running && p.2.ready ≤ cyc then some p.1 else firstReady cyc t

/-- The next cycle in which anything is due. -/
def State.nextCycle (s : State) : Nat :=
  let ts := s.agenda.map Prod.fst ++ (s.cores.filter fun p => p.2.run = .running).map fun p => p.2.ready
  match ts with
  | [] => s.cycle + 1
  | t :: r => max (r.foldl min t) (s.cycle + 1)

/-! ### A word (R84) -/

/-- A word in the slot of an INLINE record (R213): a single-bit error of the slot is corrected and logged; one that cannot be corrected is
a machine-check (R403, R408), and the fetch traps POISON as one from memory does (DESIGN CHOICE, log 119). -/
def State.slotWord (s : State) (cl i off : Nat) : Except Trap (BitVec 32) × State :=
  match s.item cl i with
  | none => (.ok 0, s)
  | some m =>
    let s := s.readItem cl m
    if m.err then (.error { code := 6, pc := 0, tval := s.me.pc }, s)
    else (.ok (BitVec.ofNat 32 ((m.r[2 + off / 8]?.getD 0).toNat / 2 ^ (off % 8 * 8))),
      if m.soft then s.setItem cl i { m with soft := false } else s)

/-- The word at the pc of the core whose turn it is: a management core's from flash (R425, log 8), another's from the slot of its INLINE record, or through the translation of a
fetch; a fault is a precise trap of that word (R106, R120, R213); a single-bit error is corrected (R260). -/
def State.fetchWord (s : State) : Except Trap (BitVec 32) × State :=
  let k := s.me
  if 0xB00 ≤ s.cur then (.ok (Config.flash k.pc), s)
  else match k.inSlot k.pc with
  | some (i, off) => s.slotWord s.myCluster i off
  | none => match s.translate s.cur k.pc .fetch with
    | (.bad c w l, s) => (.error (xlateTrap c w l k.pc), s)
    | (.ok pa _ _ _, s) =>
      let s := (s.touch pa).correct pa 4 false
      if s.poisoned pa 4 then (.error { code := 6, pc := 0, tval := k.pc }, s)
      else (.ok (BitVec.ofNat 32 (s.readMem pa 4)), s)

/-- Whether a core that took its turn at cycle `cyc` has stalled at its word (R30). -/
def Core.stalled (k : Core) (pc : Word) (cyc : Nat) : Bool := k.pc = pc && k.ready = cyc + 1

/-- The core may issue its next word after the word's issue interval, unless the word stalled (R85). -/
def State.issued (s : State) (core : Nat) (pc : Word) (n : Nat) : State :=
  s.modCore core fun k => if k.stalled pc s.cycle then k else { k with ready := max k.ready (s.cycle + n) }

/-- Whether a turn only waits: the word has stalled and nothing of it has happened, or it is a `bar` whose arrival has been made and
compared in an earlier turn (R30, R245). -/
def State.onlyWaits (s : State) (t : State) : Bool :=
  s.me.arrived = some s.me.pc || ((t.core s.cur).stalled s.me.pc s.cycle && (t.core s.cur).arrived = s.me.arrived)

/-- What the checker makes of a word's outcome `t`, `s` being the state before it (R86): a mismatch while one is to come, which a turn that
only waits does not meet, else the word's issue interval (R85). A word that takes a trap of its own after decoding is compared as every
other (DEDUCED, log 141). -/
def State.compared (s : State) (i : Instr) (x : BitVec 32) (t : State) : State :=
  if s.passesDecode i && s.me.upset != 0 && !s.onlyWaits t then
    s.mismatch x (max (interval i) ((t.core s.cur).ready - s.cycle))
  else t.issued s.cur s.me.pc (interval i)

/-- A word run: one that decodes to nothing traps; one that passes decoding takes CHECK where it reads a register in error (R403), and goes
through the checker (R86). -/
def State.runWord (s : State) (x : BitVec 32) : Result State :=
  match decode x with
  | .error _ => (match execIllegalWord x s with
    | .next t => .next (t.issued s.cur s.me.pc 1)
    | .fault f => .fault f
    | .refused f => .refused f)
  | .ok i =>
    match (if s.passesDecode i then s.checkRegs i x else none) with
    | some t => .next (t.issued s.cur s.me.pc (interval i))
    | none => match exec i (if s.passesDecode i then s.correctRegs i else s) with
      | .next t => .next (s.compared i x t)
      | .fault f => .fault f
      | .refused f => .refused f

/-- A core takes its turn: fetch, word, checker (R84, R86). -/
def State.turn (s : State) (core : Nat) : Result State :=
  let s := { s with cur := core }
  unlessBlocked (match s.fetchWord with
    | (.error t, s) => .next (s.trapWith t)
    | (.ok x, s) => s.runWord x) (s.modMe fun k => { k with ready := s.cycle + 64 })

/-! ### Placing an instruction (log 13) -/

/-- A task of context 0 on core 0, placed by the loader: tables that map virtual page 0 to physical page 0x50000 with R, X and
U, and the core at address 0 (R114 to R116). -/
def State.boot (s : State) : State :=
  let m := memWrite s.mem 0x10000 0x20001 8
  let m := memWrite m 0x20000 0x30001 8
  let m := memWrite m 0x30000 0x40001 8
  let m := memWrite m 0x40000 0x500B7 8
  ({ s with
    mem := m
    ctxs := s.ctxs.set 0 { st := .running, ptroot := 0x10000, height := 1, width := 1 }
    clusters := s.clusters.set 0 { ctx := some 0 }
    cores := s.cores.set 0 { run := .running, tl := 0xFFFF } } : State)

/-- Where core 0 fetches its next word, if it may issue one from memory. -/
def State.fetchPlace (s : State) : Option Nat :=
  let k := s.core 0
  if k.run = .running && k.upset = 0 && (k.inSlot k.pc).isNone then
    match (s.translate 0 k.pc .fetch).1 with
    | .ok pa _ _ _ => some pa
    | .bad _ _ _ => none
  else none

/-- A core word placed where the next step fetches it: at core 0's pc, which a task is loaded for when it runs none; steps that
are due wait a cycle. -/
def State.placeWord (s : State) (w : Nat) : State :=
  let (pa, s) := match s.fetchPlace with
    | some pa => (pa, s)
    | none => (0x50000, s.boot)
  let s := s.writeMem pa 4 w
  { s.modCore 0 fun k => { k with ready := min k.ready s.cycle } with
    agenda := s.agenda.map fun p => (max p.1 (s.cycle + 1), p.2) }

/-- A command placed at the head of its class's queue of core 0, its step first on the agenda (R40, R43). -/
def State.placeCommand (s : State) (cw : BitVec 256) : State :=
  let s := s.modCore 0 fun k => k.setQueue (cwClass cw) { entries := [{ cw := cw, entered := true }] }
  { s with agenda := (s.cycle, .command 0 cw) :: s.agenda }

end Sys2Proof.Machine
end

