-- ==== Sys2Proof/Machine/Step.lean ====
section
/-! DEFINITION. One step of the machine: a step of the agenda that is due, else a word of a core, else the passing of time. -/

namespace Sys2Proof.Machine

open Sys2Proof

/-- One step (log 1). -/
def step (s : State) : Host.Outcome State Fault Refusal :=
  match takeDue s.cycle s.agenda with
  | some (e, rest) => runEvent e { s with agenda := rest }
  | none => match firstReady s.cycle s.cores with
    | some c => s.turn c
    | none => .next { s with cycle := s.nextCycle }

/-- The instruction numbered as the opcode table numbers its bits, placed where the next step takes it. -/
def State.withFetchWord (s : State) (nbits w : Nat) : State :=
  if nbits ≤ 32 then s.placeWord (w % 2 ^ nbits) else s.placeCommand (BitVec.ofNat 256 (w % 2 ^ nbits))

end Sys2Proof.Machine
end

