-- ==== Sys2Proof/Safety.lean ====
section
/-! DEFINITION. The terms in which claims speak: when a word issues, what a step leaves alone, the invariant of memory,
and what a safe run is. -/

namespace Sys2Proof.Machine

open Sys2Proof

/-- The machine after `n` steps. -/
def runs : Nat → State → Result State
  | 0, s => .next s
  | n + 1, s => match step s with
    | .next t => runs n t
    | .fault f => .fault f
    | .refused f => .refused f

/-- A safe run: no step ends it. -/
def Safe (s : State) : Prop := ∀ n, ∃ t, runs n s = .next t

/-- Memory in its canonical form. -/
def MemOk (s : State) : Prop := Memory.wf s.mem = true

/-- The mode of a core of the array is a legal one: never firmware mode, PMODE names task or supervisor mode, and a core inside a trap
handler is in supervisor mode (R361, R367, R368). -/
def ModeOk (k : Core) : Prop := k.mode ≠ .firmware ∧ k.pmode.toNat < 2 ∧ (k.intrap = true → k.mode = .supervisor)

/-- The modes of all cores of the array are legal: of those in place and of those that a frozen context has taken out of its rectangle. -/
def ModesOk (s : State) : Prop :=
  (∀ p ∈ s.cores, p.1 < 2304 → ModeOk p.2) ∧ ∀ q ∈ s.ctxs, ∀ p ∈ q.2.cores, p.1 < 2304 → ModeOk p.2

/-- A core word passes the front end on the core whose turn it is: it is well-formed, its mode serves, and a word that waits
finds nothing outstanding and no deferred fault (R30, R33, R35). -/
def Issues (i : Instr) (s : State) : Prop :=
  i.wf = true ∧ (needs i).level ≤ s.me.mode.level ∧ (waits i = true → s.me.waiting = false ∧ s.me.deferred = [])

/-- `Issues` with the wait of R30 whatever W is. -/
def IssuesDrained (i : Instr) (s : State) : Prop := Issues i s ∧ s.me.waiting = false ∧ s.me.deferred = []

/-- Nothing outside core `c` differs: every other core, every other unit, all of memory, every pending step. -/
def OnlyCore (c : Nat) (s t : State) : Prop := { t with cores := s.cores } = s ∧ ∀ j, j ≠ c → t.core j = s.core j

/-- Core `c` alone differs and is `k` afterwards. -/
def CoreIs (c : Nat) (s t : State) (k : Core) : Prop := OnlyCore c s t ∧ t.core c = k

/-- A core whose register `d` is written: an error the register had is gone (R403); a write of s0 does nothing (R29). -/
def cleaned (k : Core) (d : BitVec 5) : Core := if d = 0 then k else k.clean d.toNat

/-- A word's result: `s[d]` takes `v` whole (s0 reads zero whatever is written), the pc goes past the word, and nothing else
differs. -/
def Writes (s t : State) (d : BitVec 5) (v : Word) : Prop :=
  OnlyCore s.cur s t ∧
  { t.me with regs := s.me.regs, pc := s.me.pc } = cleaned s.me d ∧
  t.me.pc = s.me.pc + 4 ∧
  t.me.get d = (if d = 0 then 0 else v) ∧
  ∀ r, r ≠ d → t.me.get r = s.me.get r

/-- A result with flags raised beside it. -/
def WritesFlags (s t : State) (d : BitVec 5) (v : Word) (fl : Flags) : Prop :=
  OnlyCore s.cur s t ∧
  { t.me with regs := s.me.regs, pc := s.me.pc, fflags := s.me.fflags } = cleaned s.me d ∧
  t.me.pc = s.me.pc + 4 ∧
  t.me.fflags = s.me.fflags ||| fl ∧
  t.me.get d = (if d = 0 then 0 else v) ∧
  ∀ r, r ≠ d → t.me.get r = s.me.get r

/-- The word `i` completes with the result `v` in `s[d]`. -/
def Gives (i : Instr) (s : State) (d : BitVec 5) (v : Word) : Prop :=
  Issues i s → ∃ t, exec i s = .next t ∧ Writes s t d v

/-- A word's result that comes later (R30): `s[d]` is outstanding, `v` is on its way, the pc goes past the word; no register,
no byte of memory and no other core differs. -/
def Late (s t : State) (d : BitVec 5) (v : Word) : Prop :=
  t.mem = s.mem ∧ (∀ j, j ≠ s.cur → t.core j = s.core j) ∧
  t.me = { s.me with
    outs := s.me.outs.set s.me.seq { iaddr := s.me.pc, dest := .reg d 8 false }, seq := s.me.seq + 1, pc := s.me.pc + 4 } ∧
  ∃ id r, t.reqs.find id = some r ∧ r.core = s.cur ∧ r.seq = s.me.seq ∧ r.kind = .load ∧ r.stage = 2 ∧ r.status = 0 ∧
    r.data = v ∧ r.dest = .reg d 8 false ∧ ∃ at_, (at_, Event.loadResponse id) ∈ t.agenda

/-- The word `i` completes with the result `v` on its way to `s[d]`. -/
def GivesLate (i : Instr) (s : State) (d : BitVec 5) (v : Word) : Prop :=
  Issues i s → ∃ t, exec i s = .next t ∧ Late s t d v

/-- The word `i` completes with the result `v` and the flags `fl`, when no enabled flag is raised (R102). -/
def GivesFlags (i : Instr) (s : State) (d : BitVec 5) (v : Word) (fl : Flags) : Prop :=
  Issues i s → fl &&& s.me.fpen = 0 → ∃ t, exec i s = .next t ∧ WritesFlags s t d v fl

/-- The request `r` of the word that `u` runs has entered under the next number: on its way (`sent`), under the next number to its
target and with the flits of a core of the array at its cluster's port (R149, R163), or held until its release condition; the pc goes past the word; no
register, no byte of memory and no other core differs, and of the core only what counts its accesses. -/
def Requests (u t : State) (r : MReq) (sent : Bool) : Prop :=
  let k := u.me
  let r := { r with core := u.cur, seq := k.seq, ctx := k.ctx, issuer := k.issuer, tick := tick k.now }
  let out := { r with stage := 1, mseq := k.mseqs.get (u.targetOf r) 0, left := r.payloads.length }
  (sent = true → t.reqs.find u.nextId = some out ∧
    (u.cur < 2304 → (t.cluster (u.cur / 4)).inject = (u.cluster (u.cur / 4)).inject ++ u.reqFlits u.nextId out)) ∧
  (sent = false → t.reqs.find u.nextId = some { r with stage := 0 } ∧ t.me.held.has k.seq = true) ∧
  t.me.pc = k.pc + 4 ∧ t.me.seq = k.seq + 1 ∧
  { t.me with
    outs := k.outs, stores := k.stores, held := k.held, mseqs := k.mseqs, caddn := k.caddn, seq := k.seq, pc := k.pc } = k ∧
  t.mem = u.mem ∧ ∀ j, j ≠ u.cur → t.core j = u.core j

/-- The request `id` is `r`, its flits are there, and it may be applied at its target: no earlier request of its core to the target
is open, no window is being switched, the target lies behind no link that retrains or is DOWN, no single-bit error stands in memory
(R163, R254, R260, R405). -/
def Arrives (s : State) (id : Nat) (r : MReq) : Prop :=
  s.reqs.find id = some r ∧ r.stage = 1 ∧ r.left = 0 ∧ s.inOrder r = true ∧ s.slwinNew = [] ∧ s.retraining r.pa = false ∧
  s.cutOff r.pa = false ∧ s.soft = []

/-- The request `id` is answered in `t` as `r`, its response's flits waiting at its target's port, or offered to the router of the
link that answers (R141, R146). -/
def Answered (t : State) (id : Nat) (r : MReq) : Prop :=
  let r := { r with left := r.rspPayloads.length }
  let n := t.targetOf r
  let mine := fun (f : Flit) => f.fk = 1 ∧ f.req = some id
  t.reqs.find id = some r ∧
  if n < 96 then ∃ f ∈ (t.slice n).inject, mine f
  else if n < 2000 then ∃ f ∈ (t.cluster (n - 1000)).inject, mine f
  else ∃ f ∈ (t.router (routerOfSrc (targetSrc n))).flits, mine f

/-- The sum that a deterministic addition of a type makes of what stands in its word of `n` bytes and a value (R269): integers wrap, the
others round to nearest. -/
def dsum (ty : BitVec 4) (n : Nat) (a : Nat × Flags) (v : Nat) : Nat × Flags :=
  let r : Nat × Flags := if ty = 15 then ((a.1 + v) % 2 ^ 64, 0) else (fmtD ty.toNat).add 0 a.1 v
  (r.1 % 256 ^ n, a.2 ||| r.2)

/-- Memory differs at most in the `n` bytes at `a`, which hold `v`, low byte first (R3). -/
def Stored (m m' : List Host.Cell) (a n v : Nat) : Prop :=
  memRead m' a n = v % 256 ^ n ∧ ∀ b, (b < a ∨ a + n ≤ b) → memGet m' b = memGet m b

/-- The command `cw` stands at the head of queue `q` of core `c` as the entry `e`, its counter condition met, and its
engine may take it (R43, R44, R319): outside the matrix array no stop of injection keeps it off, and the engine serves this core next
(R157, R274, R339). -/
def AtHead (s : State) (c q : Nat) (cw : BitVec 256) (e : QEntry) : Prop :=
  (q ≠ 0 → s.engineStopped c q = false) ∧ s.inTurn c q = true ∧
  ((s.core c).queue q).front = some e ∧ e.marker = false ∧ e.entered = true ∧ e.known = true ∧ e.cw = cw ∧
  s.enginesGo e.ctx = true ∧ e.stage = (if q = 0 then .granted else .armed)

end Sys2Proof.Machine
end

