-- ==== Sys2Proof/Certificates/Slice0/Obligations.lean ====
section
/-! DEFINITION. The statements for the provers, family by family in the table's order. A statement about an instruction says
for which states and operands it completes, what it then leaves, and what it leaves alone. -/

open Sys2Proof Sys2Proof.Machine

/-- For every instruction that is a core word, with every operand at every value its fields admit, the decoder answers
from its word that instruction. (R24, R25, R26, R27, R28, R33, R34, R36, R37) -/
def Obligations.WordsRoundTrip : Prop :=
  ∀ i : Instr, i.isWord = true → decode (encode i) = .ok i

/-- Every word that the decoder accepts is the word of the instruction it answers, so no bit of it is dropped and no two
instructions share it. (R24, R25, R33, R36, R37) -/
def Obligations.WordsAreUnambiguous : Prop :=
  ∀ (x : BitVec 32) (i : Instr), decode x = .ok i → i.isWord = true ∧ encode i = x

/-- A 256-bit word with CWOP 0x01 to 0x05, 0x20 to 0x28 or 0x40 to 0x43 is one command, well formed and with that word;
every other word is none. (R40, R42) -/
def Obligations.CommandWords : Prop :=
  ∀ (core : Nat) (cw : BitVec 256),
    let o := (cw.extractLsb' 0 8).toNat
    if 1 ≤ o ∧ o ≤ 5 ∨ 0x20 ≤ o ∧ o ≤ 0x28 ∨ 0x40 ≤ o ∧ o ≤ 0x43 then
      ∃ i, decodeCommand core cw = some i ∧ encodeCommand i = some cw ∧ i.wf = true ∧ i.isWord = false
    else decodeCommand core cw = none

/-- A word whose OP the map reserves is rejected as such: 0x00, 0x14 to 0x17, 0x1E, 0x1F, 0x29 to 0x2F, 0x3E, 0x3F,
0x45, 0x4F, 0x53 and 0x77 to 0x7F; no other OP is. (R33, R36) -/
def Obligations.ReservedOps : Prop :=
  ∀ x : BitVec 32,
    let o := (x.extractLsb' 24 7).toNat
    decode x = .error .reservedOp ↔
      (o = 0 ∨ 0x14 ≤ o ∧ o ≤ 0x17 ∨ o = 0x1E ∨ o = 0x1F ∨ 0x29 ≤ o ∧ o ≤ 0x2F ∨ o = 0x3E ∨ o = 0x3F ∨ o = 0x45 ∨
        o = 0x4F ∨ o = 0x53 ∨ 0x77 ≤ o)

/-- Words that the manual writes out decode to the instructions it writes beside them. (R92, R93, R94, R96, R97, R100,
R101, R105, R107, R373, R374, R375) -/
def Obligations.SampleWords : Prop :=
  decode 0x02298E80#32 = .ok (.sel false 5 6 7 8) ∧ decode 0x032981D0#32 = .ok (.ext false 5 6 7 16) ∧
  decode 0x0F4848D1#32 = .ok (.lui false 9 0x48D1) ∧ decode 0x064A5678#32 = .ok (.addi false 9 9 0x1678) ∧
  decode 0x11298E10#32 = .ok (.fadd false 5 6 7 1) ∧ decode 0x12298E80#32 = .ok (.fma false 5 6 7 8 0) ∧
  decode 0x132981F0#32 = .ok (.fcvt false 5 6 1 15 0) ∧ decode 0x22004000#32 = .ok (.jalr false 0 1 0) ∧
  decode 0x23000000#32 = .ok (.tend false 0 0) ∧ decode 0x2301C001#32 = .ok (.tend false 7 1) ∧
  decode 0x24000004#32 = .ok (.yield false 4) ∧ decode 0x70000007#32 = .ok (.trap false 7) ∧
  decode 0x71000003#32 = .ok (.sysc false 3) ∧ decode 0x72000000#32 = .ok (.eret false) ∧
  decode 0x73014000#32 = .ok (.tlbi false 5) ∧ decode 0x73000001#32 = .ok (.tlbiAll false) ∧
  decode 0x74014C00#32 = .ok (.nlog false 5 6)

/-- With nothing due, the first core that may issue, one of the array, fetches the four bytes at the translation of its
pc, low byte first, a single-bit error of them corrected. When they decode to an instruction, the step is that
instruction run on that core, after the single-bit errors of what it reads are corrected, and the core may issue again
after the instruction's issue interval. Where a mismatch of the checker is to come and the turn does more than wait, the
step is the mismatch instead (R86; that a word which traps itself is compared too is the model's reading, log 141);
where a register that it reads has an uncorrectable error it traps; a word that does not pass decoding (R35, R90) is not
compared. A word that meets an access which has to wait leaves nothing but 64 cycles of waiting (the model's number, log
35). Where no register has an error nothing is corrected. A management core runs the words of its flash in the same way,
whose text is a free value (log 8). That the lowest core goes first is the model's choice (log 1). (R24, R84, R85, R86,
R113, R254, R403, R405) -/
def Obligations.StepRunsWord : Prop :=
  ∀ (s s1 : State) (c pa : Nat) (w0 w1 : Word) (l : Nat) (i : Instr),
    takeDue s.cycle s.agenda = none → firstReady s.cycle s.cores = some c →
    let s0 : State := { s with cur := c }
    ∀ u x, (c < 0xB00 ∧ s0.me.inSlot s0.me.pc = none ∧ s0.translate c s0.me.pc .fetch = (.ok pa w0 w1 l, s1) ∧
        u = (s1.touch pa).correct pa 4 false ∧ u.poisoned pa 4 = false ∧ x = BitVec.ofNat 32 (u.readMem pa 4) ∨
      0xB00 ≤ c ∧ u = s0 ∧ x = Config.flash s0.me.pc) → u.blocked = false →
    decode x = .ok i →
    (u.passesDecode i = true → u.checkRegs i x = none → ∀ t, exec i (u.correctRegs i) = .next t →
      (t.blocked = true → u.me.upset = 0 → step s = .next (s0.modMe fun k => { k with ready := s.cycle + 64 })) ∧
      (t.blocked = false → (u.me.upset = 0 ∨ u.onlyWaits t = true) →
        step s = .next (t.issued u.cur u.me.pc (interval i))) ∧
      (u.me.upset ≠ 0 → u.onlyWaits t = false →
        let m := u.mismatch x (max (interval i) ((t.core u.cur).ready - u.cycle))
        m.blocked = false → step s = .next m)) ∧
    (u.passesDecode i = false → ∀ t, exec i u = .next t → t.blocked = false →
      step s = .next (t.issued u.cur u.me.pc (interval i))) ∧
    (u.passesDecode i = true → ∀ v, u.checkRegs i x = some v → v.blocked = false →
      step s = .next (v.issued u.cur u.me.pc (interval i))) ∧
    (u.me.badRegs = [] → u.me.softRegs = [] → u.checkRegs i x = none ∧ u.correctRegs i = u)

/-- With nothing due, a fetch of the first core that may issue traps at the pc of that core when its translation fails,
and a word that decodes to nothing traps ILLEGAL with the word as tval, where neither meets an access that has to wait.
(R33, R106) -/
def Obligations.StepTrapsFetch : Prop :=
  ∀ (s s1 : State) (c : Nat) (x : BitVec 32) (e : DecodeError) (f : Trap),
    takeDue s.cycle s.agenda = none → firstReady s.cycle s.cores = some c →
    let s0 : State := { s with cur := c }
    (s0.fetchWord = (.error f, s1) → (s1.trapWith f).blocked = false → step s = .next (s1.trapWith f)) ∧
    (s0.fetchWord = (.ok x, s1) → decode x = .error e → (s1.trap 1 (x.setWidth 64)).blocked = false →
      step s = .next ((s1.trap 1 (x.setWidth 64)).issued s1.cur s1.me.pc 1))

/-- When a step of the agenda is due, the machine runs the meaning of the first one and nothing else; where that meets
an access which has to wait it has not happened, and is due again 64 cycles later (the model's number, log 35). With no
step due and no core ready the only change is that the cycle advances, by at least one. That steps which are due precede
words, and the schedule, are the model's choice (log 1); its cites name what is on its way and what waits. (R84, R85,
R146, R163, R254, R405) -/
def Obligations.StepRunsDue : Prop :=
  (∀ (s : State) (e : Event) (rest : List (Nat × Event)), takeDue s.cycle s.agenda = some (e, rest) →
    let u : State := { s with agenda := rest }
    step s = runEvent e u ∧
    ∀ t, eventMeaning e u = .next t →
      (t.blocked = false → step s = .next t) ∧ (t.blocked = true → step s = .next (u.postIn 64 e))) ∧
  ∀ s : State, takeDue s.cycle s.agenda = none → firstReady s.cycle s.cores = none →
    ∃ n, s.cycle < n ∧ step s = .next { s with cycle := n }

/-- From every state whose memory is in canonical form, whatever the machine does next, memory is in canonical form
again: addresses rise and no byte that reads as an unlisted one is listed. (R3, R113) -/
def Obligations.StepKeepsMemory : Prop :=
  ∀ s t : State, MemOk s → step s = .next t → MemOk t

/-- From every state in which no core of the array is in firmware mode, PMODE names task or supervisor mode, and INTRAP
is set in supervisor mode alone, for the cores in place and for those of a frozen context, whatever the machine does
next leaves that so: through trap entry and return, writes of status, task starts, freezes and thaws of edited images
(what such an image may name is the model's, log 60). So no core of the array ever gains firmware mode. (R361, R367,
R368, R374, R381, R382) -/
def Obligations.StepKeepsModes : Prop :=
  ∀ s t : State, ModesOk s → step s = .next t → ModesOk t

/-- The machine right after reset has memory in canonical form, and no core of the array in firmware mode. (R3, R113,
R361) -/
def Obligations.ResetMemory : Prop :=
  MemOk State.reset ∧ ModesOk State.reset

/-- Right after reset the management cores are in firmware mode, every context is EMPTY, every slice window is 0, all
four slice columns are in use, no rectangle is fenced, no log is frozen, and no ordinary core runs. That every register
of every ordinary core then reads 0 is the model's choice: the spec states no value (log 4). (R255, R361, R377, R411) -/
def Obligations.ResetState : Prop :=
  (∀ j, j < 4 → (State.reset.core (0xB00 + j)).mode = .firmware) ∧
  (∀ x, (State.reset.ctx x).st = .empty) ∧
  (∀ v, (State.reset.slice v).win = 0) ∧ State.reset.slcols = 15 ∧ State.reset.slbusy = false ∧
  (∀ n, State.reset.cnctl.get n 0 = 0) ∧ (∀ n, State.reset.cnrect.get n 0 = 0) ∧ State.reset.frz = false ∧
  (∀ c, c < 2304 → (State.reset.core c).run = .free ∧ ∀ r, (State.reset.core c).get r = 0)

/-- Every core word with a field that R33 refuses takes the trap ILLEGAL with the word as tval, in every mode and
whatever is outstanding; a word with no row of its own takes the same trap. (R33, R35) -/
def Obligations.IllFormedTrap : Prop :=
  (∀ (i : Instr) (s : State), i.isWord = true → i.wf = false →
    exec i s = .next (s.trap 1 ((encode i).setWidth 64))) ∧
  (∀ (x : BitVec 32) (s : State), exec (.illegalWord x) s = .next (s.trap 1 (x.setWidth 64)))

/-- Every well-formed core word that needs a higher mode than its core is in takes the trap PRIV with the word as tval.
eret, tlbi, nlog, ckpt and ctxc.query, rdf and wrf need supervisor mode; ctxc.frz, ctxc.thaw and ctxc.tear need firmware
mode; every other word serves in task mode. (R35, R361) -/
def Obligations.PrivilegeTrap : Prop :=
  (∀ (i : Instr) (s : State), i.isWord = true → i.wf = true → s.me.mode.level < (needs i).level →
    exec i s = .next (s.trap 2 ((encode i).setWidth 64))) ∧
  (∀ (w : Bool) (d a b : BitVec 5),
    needs (.eret w) = .supervisor ∧ needs (.tlbi w a) = .supervisor ∧ needs (.tlbiAll w) = .supervisor ∧
    needs (.nlog w a b) = .supervisor ∧ needs (.ckpt w d a b) = .supervisor ∧ needs (.ctxcQuery w d a) = .supervisor ∧
    needs (.ctxcRdf w d a) = .supervisor ∧ needs (.ctxcWrf w d a b) = .supervisor ∧ needs (.ctxcFrz w d a) = .firmware ∧
    needs (.ctxcThaw w d a) = .firmware ∧ needs (.ctxcTear w d a) = .firmware) ∧
  (∀ (i : Instr), i.isWord = true → (needs i = .task ∨
    (∃ w, i = .eret w) ∨ (∃ w a, i = .tlbi w a) ∨ (∃ w, i = .tlbiAll w) ∨ (∃ w a b, i = .nlog w a b) ∨
    (∃ w d a b, i = .ckpt w d a b) ∨ (∃ w d a, i = .ctxcQuery w d a) ∨ (∃ w d a, i = .ctxcRdf w d a) ∨
    (∃ w d a b, i = .ctxcWrf w d a b) ∨ (∃ w d a, i = .ctxcFrz w d a) ∨ (∃ w d a, i = .ctxcThaw w d a) ∨
    (∃ w d a, i = .ctxcTear w d a)))

/-- Bit 31 of a core word is its wait marker. A well-formed core word with it set, in a mode that may run it, does
nothing while a result is outstanding but wait a cycle; when a result returned with a fault it traps with nothing done.
(R24, R30, R32) -/
def Obligations.WaitMarker : Prop :=
  (∀ i : Instr, i.isWord = true → waits i = (encode i).getLsbD 31) ∧
  ∀ (i : Instr) (s : State), i.isWord = true → i.wf = true → (needs i).level ≤ s.me.mode.level → waits i = true →
    (s.me.waiting = true → exec i s = .next s.stall ∧ CoreIs s.cur s s.stall { s.me with ready := s.cycle + 1 }) ∧
    (s.me.waiting = false → s.me.deferred ≠ [] → exec i s = .next (s.trap 0 0))

/-- A register field that names s0 reads zero in every core; a write of s0 changes nothing of the core; a write of any
other register is read back, and every register but the one written keeps its value; nothing else of the core changes
but an error that the register had (R403). (R29) -/
def Obligations.HardwiredZero : Prop :=
  ∀ (k : Core) (d r : BitVec 5) (v : Word),
    k.get 0 = 0 ∧ k.put 0 v = k ∧ (d ≠ 0 → (k.put d v).get d = v) ∧ (r ≠ d → (k.put d v).get r = k.get r) ∧
    { k.put d v with regs := k.regs } = cleaned k d

/-- Each word of the ALU family but the counts writes to s[d] whole the result that R92 gives it, and changes nothing
else but the pc: no flag, no other register, no memory. (R92) -/
def Obligations.AluResults : Prop :=
  ∀ (w : Bool) (d a b : BitVec 5) (s : State),
    let A := s.me.get a
    let B := s.me.get b
    let sh := B.toNat % 64
    Gives (.add w d a b) s d (A + B) ∧ Gives (.sub w d a b) s d (A - B) ∧ Gives (.mul w d a b) s d (A * B) ∧
    Gives (.mulh w d a b) s d (BitVec.ofInt 64 (A.toInt * B.toInt / 2 ^ 64)) ∧
    Gives (.mulhu w d a b) s d (BitVec.ofNat 64 (A.toNat * B.toNat / 2 ^ 64)) ∧
    Gives (.div w d a b) s d (if B = 0 then BitVec.allOnes 64 else BitVec.ofInt 64 (A.toInt.tdiv B.toInt)) ∧
    Gives (.divu w d a b) s d (if B = 0 then BitVec.allOnes 64 else A / B) ∧
    Gives (.rem w d a b) s d (if B = 0 then A else BitVec.ofInt 64 (A.toInt.tmod B.toInt)) ∧
    Gives (.remu w d a b) s d (if B = 0 then A else A % B) ∧
    Gives (.and w d a b) s d (A &&& B) ∧ Gives (.or w d a b) s d (A ||| B) ∧ Gives (.xor w d a b) s d (A ^^^ B) ∧
    Gives (.andn w d a b) s d (A &&& ~~~B) ∧ Gives (.orn w d a b) s d (A ||| ~~~B) ∧
    Gives (.sll w d a b) s d (A <<< sh) ∧ Gives (.srl w d a b) s d (A >>> sh) ∧
    Gives (.sra w d a b) s d (A.sshiftRight sh) ∧ Gives (.rol w d a b) s d (A.rotateLeft sh) ∧
    Gives (.min w d a b) s d (if A.toInt < B.toInt then A else B) ∧
    Gives (.max w d a b) s d (if A.toInt < B.toInt then B else A) ∧
    Gives (.minu w d a b) s d (if A.toNat < B.toNat then A else B) ∧
    Gives (.maxu w d a b) s d (if A.toNat < B.toNat then B else A) ∧
    Gives (.slt w d a b) s d (if A.toInt < B.toInt then 1 else 0) ∧
    Gives (.sltu w d a b) s d (if A.toNat < B.toNat then 1 else 0) ∧
    Gives (.seq w d a b) s d (if A = B then 1 else 0)

/-- clz writes the number of zero bits above the highest one, ctz the number below the lowest one, popc the number of
ones, and 64 for the first two when the operand is 0; nothing else changes but the pc. Divided by zero the quotients are
all ones and the remainders the dividend; -2^63 divided by -1 gives -2^63 with remainder 0; nothing traps and no flag is
set. (R82, R92) -/
def Obligations.CountsAndDivision : Prop :=
  ∀ (w : Bool) (d a b : BitVec 5) (s : State),
    let A := s.me.get a
    let B := s.me.get b
    (∃ n, n ≤ 64 ∧ (∀ j, j < n → A.getLsbD (63 - j) = false) ∧ (n < 64 → A.getLsbD (63 - n) = true) ∧
      Gives (.clz w d a) s d (BitVec.ofNat 64 n)) ∧
    (∃ n, n ≤ 64 ∧ (∀ j, j < n → A.getLsbD j = false) ∧ (n < 64 → A.getLsbD n = true) ∧
      Gives (.ctz w d a) s d (BitVec.ofNat 64 n)) ∧
    Gives (.popc w d a) s d (BitVec.ofNat 64 ((List.range 64).countP fun j => A.getLsbD j)) ∧
    (B = 0 → Gives (.div w d a b) s d (BitVec.allOnes 64) ∧ Gives (.divu w d a b) s d (BitVec.allOnes 64) ∧
      Gives (.rem w d a b) s d A ∧ Gives (.remu w d a b) s d A) ∧
    (A = 0x8000000000000000 → B = BitVec.allOnes 64 →
      Gives (.div w d a b) s d 0x8000000000000000 ∧ Gives (.rem w d a b) s d 0)

/-- sel writes s[a] when the whole of s[c] is not zero and s[b] otherwise; with c = s0 the result is s[b]; nothing else
changes but the pc. (R93) -/
def Obligations.SelectResult : Prop :=
  ∀ (w : Bool) (d a b c : BitVec 5) (s : State),
    Gives (.sel w d a b c) s d (if s.me.get c ≠ 0 then s.me.get a else s.me.get b) ∧
    Gives (.sel w d a b 0) s d (s.me.get b)

/-- With pos + len at most 64, ext writes the field of s[a] zero-extended and exts sign-extended; ins writes s[d] with
its field replaced by the low bits of s[a] and every other bit of it kept. With pos + len above 64 each traps ILLEGAL.
(R94) -/
def Obligations.BitFields : Prop :=
  ∀ (w : Bool) (d a : BitVec 5) (l p : BitVec 6) (s : State),
    let len := l.toNat + 1
    let pos := p.toNat
    let f := (s.me.get a).extractLsb' pos len
    (pos + len ≤ 64 →
      Gives (.ext w d a l p) s d (f.setWidth 64) ∧ Gives (.exts w d a l p) s d (f.signExtend 64) ∧
      ∃ v : Word, Gives (.ins w d a l p) s d v ∧ ∀ j, j < 64 → v.getLsbD j =
        if pos ≤ j ∧ j < pos + len then (s.me.get a).getLsbD (j - pos) else (s.me.get d).getLsbD j) ∧
    (64 < pos + len →
      exec (.ext w d a l p) s = .next (s.trap 1 ((encode (.ext w d a l p)).setWidth 64)) ∧
      exec (.exts w d a l p) s = .next (s.trap 1 ((encode (.exts w d a l p)).setWidth 64)) ∧
      exec (.ins w d a l p) s = .next (s.trap 1 ((encode (.ins w d a l p)).setWidth 64)))

/-- Each immediate form writes to s[d] the result of R95 on s[a] and its immediate, signed in 14 bits but for the
shifts; lui writes its immediate shifted by 14 and sign-extended from 33 bits, and auipc adds the address of its own
word; nothing else changes but the pc. (R95, R96) -/
def Obligations.Immediates : Prop :=
  ∀ (w : Bool) (d a : BitVec 5) (v : BitVec 14) (u : BitVec 19) (h : BitVec 6) (s : State),
    let A := s.me.get a
    let V : Word := BitVec.ofInt 64 v.toInt
    let U : Word := ((u.setWidth 33) <<< 14).signExtend 64
    Gives (.lui w d u) s d U ∧ Gives (.auipc w d u) s d (s.me.pc + U) ∧
    Gives (.addi w d a v) s d (A + V) ∧ Gives (.andi w d a v) s d (A &&& V) ∧ Gives (.ori w d a v) s d (A ||| V) ∧
    Gives (.xori w d a v) s d (A ^^^ V) ∧ Gives (.slli w d a h) s d (A <<< h.toNat) ∧
    Gives (.srli w d a h) s d (A >>> h.toNat) ∧ Gives (.srai w d a h) s d (A.sshiftRight h.toNat) ∧
    Gives (.slti w d a v) s d (if A.toInt < v.toInt then 1 else 0) ∧
    Gives (.sltiu w d a v) s d (if A.toNat < V.toNat then 1 else 0)

/-- With no enabled flag raised, each word of the FPU family and fma writes to s[d] what R97 to R100 give it: the sum,
difference, product, quotient, root or fused sum of the values of its operands rounded once under frm, the lesser or
greater operand unrounded and without a flag, a comparison as 0 or 1, one class bit; the flags are set by OR; nothing
else changes but the pc. (R97, R98, R99, R100) -/
def Obligations.FpuResults : Prop :=
  ∀ (w : Bool) (d a b c : BitVec 5) (y : BitVec 4) (s : State),
    let f := fmtD y.toNat
    let rm := s.me.frm
    let pa := (s.me.get a).toNat
    let pb := (s.me.get b).toNat
    let A := f.val pa
    let B := f.val pb
    let C := f.val (s.me.get c).toNat
    let round := fun (r : FVal × Flags) => f.result rm r.1 r.2
    let arith := fun (i : Instr) (r : FVal × Flags) => GivesFlags i s d (BitVec.ofNat 64 (round r).1) (round r).2
    arith (.fadd w d a b y) (fAddV rm A B) ∧ arith (.fsub w d a b y) (fAddV rm A B.negate) ∧
    arith (.fmul w d a b y) (fMulV A B) ∧ arith (.fdiv w d a b y) (fDivV A B) ∧ arith (.fsqrt w d a y) (fSqrtV A) ∧
    arith (.fma w d a b c y) (fFmaV rm A B C) ∧
    GivesFlags (.fmin w d a b y) s d (BitVec.ofNat 64 (f.minMax false pa pb)) 0 ∧
    GivesFlags (.fmax w d a b y) s d (BitVec.ofNat 64 (f.minMax true pa pb)) 0 ∧
    GivesFlags (.fcmpLt w d a b y) s d (if !A.isNan && !B.isNan && A.lt B then 1 else 0)
      (if A.isNan || B.isNan then fNV else 0) ∧
    GivesFlags (.fcmpLe w d a b y) s d (if !A.isNan && !B.isNan && (A.lt B || A.eqv B) then 1 else 0)
      (if A.isNan || B.isNan then fNV else 0) ∧
    GivesFlags (.fcmpEq w d a b y) s d (if !A.isNan && !B.isNan && A.eqv B then 1 else 0) 0 ∧
    GivesFlags (.fclass w d a y) s d (BitVec.ofNat 64 (2 ^ f.classBit pa)) 0

/-- With no enabled flag raised, fcvt writes to s[d] the value of s[a] under the from-type converted to the to-type
under frm, as the to-type lies in a register, and sets the flags; nothing else changes but the pc. A type code outside
0x0 to 0xA and 0xF, and U without an integer type, trap ILLEGAL. (R62, R79, R80, R101) -/
def Obligations.FcvtResults : Prop :=
  ∀ (w : Bool) (d a : BitVec 5) (u : BitVec 1) (f t : BitVec 4) (s : State),
    let uns : Bool := u = 1
    let r := tyConvert t.toNat uns s.me.frm (tyVal f.toNat uns (s.me.get a).toNat)
    let int := fun (y : BitVec 4) => 7 ≤ y.toNat ∧ y.toNat ≤ 10 ∨ y.toNat = 15
    let ok := fun (y : BitVec 4) => y.toNat ≤ 10 ∨ y.toNat = 15
    GivesFlags (.fcvt w d a u f t) s d (tyExtend t.toNat uns r.1) r.2 ∧
    (¬(ok f ∧ ok t ∧ (u = 0 ∨ int f ∨ int t)) →
      exec (.fcvt w d a u f t) s = .next (s.trap 1 ((encode (.fcvt w d a u f t)).setWidth 64)))

/-- When a word of the FPU family, a comparison lt or le or a conversion among them, would raise a flag that is enabled,
it traps FPE with the flags it would have raised as tval; neither s[d] nor fflags is written by it. (R102) -/
def Obligations.FpeTrap : Prop :=
  ∀ (w : Bool) (d a b c : BitVec 5) (u : BitVec 1) (g y : BitVec 4) (s : State),
    let f := fmtD y.toNat
    let rm := s.me.frm
    let A := f.val (s.me.get a).toNat
    let B := f.val (s.me.get b).toNat
    let C := f.val (s.me.get c).toNat
    let res := tyConvert y.toNat (u = 1) rm (tyVal g.toNat (u = 1) (s.me.get a).toNat)
    let traps := fun (i : Instr) (r : FVal × Flags) =>
      let fl := (f.result rm r.1 r.2).2
      Issues i s → fl &&& s.me.fpen ≠ 0 → exec i s = .next (s.trap 0x13 (BitVec.ofNat 64 fl.toNat))
    traps (.fadd w d a b y) (fAddV rm A B) ∧ traps (.fsub w d a b y) (fAddV rm A B.negate) ∧
    traps (.fmul w d a b y) (fMulV A B) ∧ traps (.fdiv w d a b y) (fDivV A B) ∧ traps (.fsqrt w d a y) (fSqrtV A) ∧
    traps (.fma w d a b c y) (fFmaV rm A B C) ∧
    (∀ i, (i = .fcmpLt w d a b y ∨ i = .fcmpLe w d a b y) → Issues i s → (A.isNan = true ∨ B.isNan = true) →
      fNV &&& s.me.fpen ≠ 0 → exec i s = .next (s.trap 0x13 0x10)) ∧
    (Issues (.fcvt w d a u g y) s → res.2 &&& s.me.fpen ≠ 0 →
      exec (.fcvt w d a u g y) s = .next (s.trap 0x13 (BitVec.ofNat 64 res.2.toNat)))

/-- Each branch compares the whole of s[a] and s[b]; taken, it sets the pc to its own address plus four times the signed
offset, else to the next word; it writes no register and raises no flag, and nothing outside the core changes. j sets
the pc to its own address plus four times the signed offset and changes nothing else; jal does the same and writes the
address of the next word to s1. (R27, R103, R104) -/
def Obligations.Branches : Prop :=
  ∀ (w : Bool) (a b : BitVec 5) (o : BitVec 14) (f : BitVec 24) (s : State),
    let A := s.me.get a
    let B := s.me.get b
    let goes := fun (i : Instr) (taken : Prop) => Issues i s → ∃ t, exec i s = .next t ∧
      OnlyCore s.cur s t ∧ { t.me with pc := s.me.pc, ready := s.me.ready } = s.me ∧
      (taken → t.me.pc = s.me.pc + BitVec.ofInt 64 (4 * o.toInt)) ∧ (¬taken → t.me.pc = s.me.pc + 4)
    goes (.beq w a b o) (A = B) ∧ goes (.bne w a b o) (A ≠ B) ∧
    goes (.blt w a b o) (A.toInt < B.toInt) ∧ goes (.bge w a b o) (B.toInt ≤ A.toInt) ∧
    goes (.bltu w a b o) (A.toNat < B.toNat) ∧ goes (.bgeu w a b o) (B.toNat ≤ A.toNat) ∧
    let target := s.me.pc + BitVec.ofInt 64 (4 * f.toInt)
    (Issues (.j w f) s → ∃ t, exec (.j w f) s = .next t ∧ OnlyCore s.cur s t ∧ t.me.pc = target ∧
      { t.me with pc := s.me.pc, ready := s.me.ready } = s.me) ∧
    (Issues (.jal w f) s → ∃ t, exec (.jal w f) s = .next t ∧ OnlyCore s.cur s t ∧ t.me.pc = target ∧
      t.me.get 1 = s.me.pc + 4 ∧ (∀ r, r ≠ 1 → t.me.get r = s.me.get r) ∧
      { t.me with pc := s.me.pc, ready := s.me.ready, regs := s.me.regs } = cleaned s.me 1)

/-- jalr reads s[a] before it writes s[d]; a target that is a multiple of 4 becomes the pc and s[d] takes the address of
the next word, and nothing else changes; any other target traps MISALIGN with the target as tval and s[d] unchanged.
(R105) -/
def Obligations.JumpRegister : Prop :=
  ∀ (w : Bool) (d a : BitVec 5) (v : BitVec 14) (s : State), Issues (.jalr w d a v) s →
    let target := s.me.get a + BitVec.ofInt 64 v.toInt
    (target.toNat % 4 = 0 → ∃ t, exec (.jalr w d a v) s = .next t ∧ OnlyCore s.cur s t ∧ t.me.pc = target ∧
      t.me.get d = (if d = 0 then 0 else s.me.pc + 4) ∧ (∀ r, r ≠ d → t.me.get r = s.me.get r) ∧
      { t.me with pc := s.me.pc, ready := s.me.ready, regs := s.me.regs } = cleaned s.me d) ∧
    (target.toNat % 4 ≠ 0 → exec (.jalr w d a v) s = .next (s.trap 3 target))

/-- Each number of the user and the supervisor range reads the register that R89 and R364 name there, inj the congestion
level of the core's router and mer the meridian that router has, and no other number of those ranges is a register.
(R89, R158, R188, R364) -/
def Obligations.CsrNumbers : Prop :=
  ∀ s : State,
    let k := s.me
    s.csrRead 0x000 = some k.now ∧ s.csrRead 0x001 = some (k.tl.setWidth 64) ∧ s.csrRead 0x002 = some (BitVec.ofNat 64 s.cur) ∧
    s.csrRead 0x003 = some (BitVec.ofNat 64 k.ctx) ∧ s.csrRead 0x004 = some (k.src.setWidth 64) ∧
    s.csrRead 0x005 = some (k.chan.setWidth 64) ∧ s.csrRead 0x006 = some (k.gang.setWidth 64) ∧
    s.csrRead 0x007 = some (k.issuer.setWidth 64) ∧ s.csrRead 0x008 = some (k.fflags.setWidth 64) ∧
    s.csrRead 0x009 = some (k.frm.setWidth 64) ∧ s.csrRead 0x00A = some k.ctrbase ∧
    s.csrRead 0x00B = some (BitVec.ofNat 64 (8 - k.sendQ.length)) ∧
    s.csrRead 0x00C = some (BitVec.ofNat 64 (s.router (routerOfSrc s.cur)).level) ∧
    s.csrRead 0x010 = some (((s.router (routerOfSrc s.cur)).surv.get k.ctx {}).mer) ∧ s.csrRead 0x00D = some (s.budgetOf k) ∧
    s.csrRead 0x00E = some (k.keys.setWidth 64) ∧ s.csrRead 0x020 = some k.nparam0 ∧ s.csrRead 0x021 = some k.nparam1 ∧
    s.csrRead 0x022 = some k.nparam2 ∧ s.csrRead 0x023 = some k.nparam3 ∧ s.csrRead 0x024 = some k.spk ∧
    s.csrRead 0x100 = some k.cause ∧ s.csrRead 0x101 = some k.epc ∧ s.csrRead 0x102 = some k.tval ∧
    s.csrRead 0x103 = some k.tinfo ∧ s.csrRead 0x104 = some (s.ctx k.ctx).tvec ∧ s.csrRead 0x105 = some k.status ∧
    s.csrRead 0x106 = some k.scratch ∧ s.csrRead 0x107 = some k.tinfoh ∧
    s.csrRead 0x00F = none ∧ (∀ n, 0x011 ≤ n → n ≤ 0x01F → s.csrRead n = none) ∧
    (∀ n, 0x025 ≤ n → n ≤ 0x0FF → s.csrRead n = none) ∧ (∀ n, 0x108 ≤ n → n ≤ 0x1FF → s.csrRead n = none)

/-- csrr of a register that the mode may use writes its value to s[d] and changes nothing else but the pc; csrs and csrc
with a = s0 do the same; a number of a range above the mode traps PRIV, and a reserved number of a range the mode may
use traps ILLEGAL. (R90, R91) -/
def Obligations.CsrReads : Prop :=
  ∀ (w : Bool) (d a : BitVec 5) (c : BitVec 12) (s : State),
    let n := c.toNat
    let above := 0x200 ≤ n ∧ s.me.mode ≠ .firmware ∨ 0x100 ≤ n ∧ s.me.mode = .task
    let drained := csrWaits n = true → s.me.waiting = false ∧ s.me.deferred = []
    (∀ v, s.csrRead n = some v → ¬above → drained →
      Gives (.csrr w d c) s d v ∧ Gives (.csrs w d 0 c) s d v ∧ Gives (.csrc w d 0 c) s d v) ∧
    (above → ∀ i, (i = .csrr w d c ∨ i = .csrw w d a c ∨ i = .csrs w d a c ∨ i = .csrc w d a c) → Issues i s →
      exec i s = .next (s.trap 2 ((encode i).setWidth 64))) ∧
    (¬above → s.csrRead n = none →
      ∀ i, (i = .csrr w d c ∨ i = .csrw w d a c ∨ i = .csrs w d a c ∨ i = .csrc w d a c) → Issues i s →
      exec i s = .next (s.trap 1 ((encode i).setWidth 64)))

/-- On a register of the core that takes writes, csrw writes s[a], csrs the old value with the bits of s[a] set and csrc
with them cleared; s[d] takes the old value; only that register, s[d], the pc and the marks of an error in what is
written change. A value that sets a bit the layout shows as zero traps ILLEGAL. A write of status takes FPEN and PMODE
and leaves the mode and INTRAP; PMODE 2 or 3 traps ILLEGAL. A write of tvec changes that of the context. A write of a
read-only register traps ILLEGAL. (R77, R89, R90, R91, R364, R367) -/
def Obligations.CsrWrites : Prop :=
  (∀ (w : Bool) (d a : BitVec 5) (c : BitVec 12) (s : State) (old : Word) (upd : Core → Word → Core),
    let n := c.toNat
    ((n = 0x008 ∧ upd = fun k v => { k with fflags := v.setWidth 6 }) ∨ (n = 0x009 ∧ upd = fun k v => { k with frm := v.setWidth 3 }) ∨
      (n = 0x020 ∧ upd = fun k v => { k with nparam0 := v }) ∨ (n = 0x021 ∧ upd = fun k v => { k with nparam1 := v }) ∨
      (n = 0x022 ∧ upd = fun k v => { k with nparam2 := v }) ∨ (n = 0x023 ∧ upd = fun k v => { k with nparam3 := v }) ∨
      (n = 0x024 ∧ upd = fun k v => { k with spk := v }) ∨
      (n = 0x00A ∧ s.me.mode ≠ .task ∧ upd = fun k v => { k with ctrbase := v }) ∨
      s.me.mode ≠ .task ∧ ((n = 0x100 ∧ upd = fun k v => { k with cause := v }) ∨ (n = 0x101 ∧ upd = fun k v => { k with epc := v }) ∨
        (n = 0x102 ∧ upd = fun k v => { k with tval := v }) ∨ (n = 0x103 ∧ upd = fun k v => { k with tinfo := v }) ∨
        (n = 0x106 ∧ upd = fun k v => { k with scratch := v }) ∨ (n = 0x107 ∧ upd = fun k v => { k with tinfoh := v }))) →
    s.csrRead n = some old → s.me.waiting = false → s.me.deferred = [] →
    let does := fun (i : Instr) (v : Word) => Issues i s →
      (v &&& csrZero n = 0 → ∃ t, exec i s = .next t ∧ CoreIs s.cur s t { ((upd s.me v).clean (n + 32)).put d old with pc := s.me.pc + 4 }) ∧
      (v &&& csrZero n ≠ 0 → exec i s = .next (s.trap 1 ((encode i).setWidth 64)))
    does (.csrw w d a c) (s.me.get a) ∧ (a ≠ 0 → does (.csrs w d a c) (old ||| s.me.get a)) ∧
    (a ≠ 0 → does (.csrc w d a c) (old &&& ~~~(s.me.get a)))) ∧
  ∀ (w : Bool) (d a : BitVec 5) (c : BitVec 12) (s : State) (i : Instr) (old v : Word),
    let n := c.toNat
    let k := s.me
    s.csrRead n = some old → Issues i s →
    (i = .csrw w d a c ∧ v = k.get a ∨ a ≠ 0 ∧ i = .csrs w d a c ∧ v = old ||| k.get a ∨
      a ≠ 0 ∧ i = .csrc w d a c ∧ v = old &&& ~~~(k.get a)) →
    let refused := exec i s = .next (s.trap 1 ((encode i).setWidth 64))
    (n = 0x105 → k.mode ≠ .task →
      (v &&& csrZero n = 0 → v.toNat % 4 < 2 → ∃ t, exec i s = .next t ∧ CoreIs s.cur s t
        { (({ k with fpen := BitVec.ofNat 6 (v.toNat / 256), pmode := BitVec.ofNat 2 v.toNat } : Core).clean (n + 32)).put d old with
          pc := k.pc + 4 }) ∧
      (v &&& csrZero n ≠ 0 ∨ 2 ≤ v.toNat % 4 → refused)) ∧
    (n = 0x104 → k.mode ≠ .task →
      (v &&& csrZero n = 0 → ∃ t, exec i s = .next t ∧ (t.ctx k.ctx) = { s.ctx k.ctx with tvec := v } ∧
        (∀ x, x ≠ k.ctx → t.ctx x = s.ctx x) ∧ CoreIs s.cur { s with ctxs := t.ctxs } t
          { (k.clean (n + 32)).put d old with pc := k.pc + 4 }) ∧
      (v &&& csrZero n ≠ 0 → refused)) ∧
    (n ≤ 7 ∨ 0xB ≤ n ∧ n ≤ 0xE ∨ n = 0x10 ∨ n = 0xA ∧ k.mode = .task → refused)

/-- On a core with nothing outstanding, no deferred fault, INTRAP 0 and a vector, trap enters the handler at its own
word and sysc after it: mode supervisor, INTRAP 1, PMODE the mode before, cause with CODE and SC, epc, tval, tinfo and
tinfoh, the budget saved and set to WDOG, the pc at TVEC; the registers, every other register of the core, memory and
the other cores are unchanged; a bar that waits is set aside for the return (log 42). A trap that waited for outstanding
results does the same once they are there. (R364, R365, R366, R367, R368, R373) -/
def Obligations.TrapEntry : Prop :=
  ∀ (w : Bool) (n : BitVec 14) (s : State) (c : Nat) (T : Trap),
    let enters := fun (c : Nat) (r : Result State) (cause epc tval info infoh : Word) =>
      let k := s.core c
      k.waiting = false → k.deferred = [] → k.intrap = false → (s.ctx k.ctx).tvec ≠ 0 →
      ∃ t, r = .next t ∧ (∀ j, j ≠ c → t.core j = s.core j) ∧ t.mem = s.mem ∧
        t.core c = { k with
          run := .running, pc := (s.ctx k.ctx).tvec, mode := .supervisor, intrap := true, pmode := BitVec.ofNat 2 k.mode.level
          cause := cause, epc := epc, tval := tval, tinfo := info, tinfoh := infoh
          savedBudget := (s.budgetOf k).toNat, budget := (s.ctx k.ctx).wdog, budgetAt := s.cycle
          wdogOn := (s.ctx k.ctx).wdog != 0, arrived := none, arrivedSaved := k.arrived, retry := false }
    let tinfo := fun (a : Word) => BitVec.ofNat 64 (s.me.caddn.toNat * 2 ^ 48 + a.toNat % 2 ^ 48 / 4 * 4)
    (Issues (.trap w n) s → enters s.cur (exec (.trap w n) s) 0x10 s.me.pc (n.setWidth 64) (tinfo s.me.pc) 0) ∧
    (Issues (.sysc w n) s →
      enters s.cur (exec (.sysc w n) s) 0x210 (s.me.pc + 4) (n.setWidth 64) (tinfo (s.me.pc + 4)) 0) ∧
    ((s.core c).run = .trapping T →
      enters c (exec (.trapEntry c) s) T.causeWord T.epcOf T.tval (T.tinfoWord (s.core c).caddn) T.tinfohWord)

/-- On a core with nothing outstanding, a trap taken while INTRAP is 1 and a trap taken with TVEC 0 end the task as tend
does in supervisor mode, with the note TRAP2 or TRAPN to the supervisor; the cause of the second trap, and for sysc the
word after it, stand in the note (the third parameter of TRAP2 is the model's reading, log 15). (R224, R249, R369) -/
def Obligations.TrapWithoutHandler : Prop :=
  ∀ (w : Bool) (n : BitVec 14) (s : State),
    let k := s.me
    k.waiting = false → k.deferred = [] →
    (k.intrap = true →
      (Issues (.trap w n) s →
        exec (.trap w n) s = .next ((s.note (routerOfSrc s.cur) k.ctx 16 (BitVec.ofNat 64 (k.cause.toNat % 256)) 0x10 k.pc).endTrapped s.cur 0x10)) ∧
      (Issues (.sysc w n) s →
        exec (.sysc w n) s = .next ((s.note (routerOfSrc s.cur) k.ctx 16 (BitVec.ofNat 64 (k.cause.toNat % 256)) 0x10 (k.pc + 4)).endTrapped s.cur 0x10))) ∧
    (k.intrap = false → (s.ctx k.ctx).tvec = 0 →
      (Issues (.trap w n) s →
        exec (.trap w n) s = .next ((s.note (routerOfSrc s.cur) k.ctx 15 0x10 k.pc (n.setWidth 64)).endTrapped s.cur 0x10)) ∧
      (Issues (.sysc w n) s →
        exec (.sysc w n) s = .next ((s.note (routerOfSrc s.cur) k.ctx 15 0x10 (k.pc + 4) (n.setWidth 64)).endTrapped s.cur 0x10)))

/-- In a handler, with nothing outstanding and no deferred fault, eret sets the pc to epc, the mode to PMODE, INTRAP to
0 and the budget to the saved one, or to WDOG after WATCHDOG, the watchdog off where that is none; a bar of the
interrupted task that waits at another word than epc is forgotten, and one of the handler too (log 42); every other
register of the core, memory and the other cores keep their values. A misaligned epc is a second trap, MISALIGN; with
INTRAP 0 the word traps ILLEGAL; while a result is outstanding it waits. (R364, R367, R374) -/
def Obligations.TrapReturn : Prop :=
  ∀ (w : Bool) (s : State), Issues (.eret w) s →
    let k := s.me
    (k.intrap = false → exec (.eret w) s = .next (s.trap 1 ((encode (.eret w)).setWidth 64))) ∧
    (k.intrap = true → k.waiting = true → exec (.eret w) s = .next s.stall) ∧
    (k.intrap = true → k.waiting = false → k.deferred = [] →
      (k.epc.toNat % 4 ≠ 0 → exec (.eret w) s = .next (s.trap 3 k.epc)) ∧
      (k.epc.toNat % 4 = 0 → ∃ t, exec (.eret w) s = .next t ∧ (∀ j, j ≠ s.cur → t.core j = s.core j) ∧ t.mem = s.mem ∧
        t.core s.cur = { k with
          pc := k.epc, mode := if k.pmode = 1 then .supervisor else .task, intrap := false
          budget := if k.cause.toNat % 256 = 14 then (s.ctx k.ctx).wdog else k.savedBudget, budgetAt := s.cycle
          wdogOn := if k.cause.toNat % 256 = 14 then (s.ctx k.ctx).wdog != 0 else k.savedBudget != 2 ^ 64 - 1
          arrived := k.arrivedSaved.filter (· = k.epc), arrivedSaved := none }))

/-- With nothing outstanding and no deferred fault: tend starts the wait of R107, in a handler it ends the interrupted
task; with a signal it first translates the counter's address and traps XLATE or ACCESS as that fails, where no declared
page is to be preserved for it. When the waits are over, and no slice that the signal goes to changes its window, else
64 cycles later (log 35), the keys are released, the signal is made and the core is freed; a member of a gang makes the
signal and goes to the barrier entry. yield of a task outside a gang and outside an INLINE record starts its wait with a
continuation whose stamp is the next step, or n ticks on; its stamp is not below the running term, unless that is the
promise END (R109, log 27). When the wait is over the keys are released, the continuation stands in the inbox and the
core is freed. Where a handler yields, the continuation starts at its epc whatever that is (the model's choice, log
129). A core that has released its keys and finds no place for the continuation waits for one and writes it then. A
used-up budget traps WATCHDOG with WDOG as tval, at the word that would issue or at which the task waits; that it ends
the waits of tend and yield too, until one of their effects is made, is the model's reading (log 43). (R107, R109, R110,
R224, R369, R372) -/
def Obligations.TaskEnds : Prop :=
  ∀ (w : Bool) (a : BitVec 5) (n : BitVec 14) (s u : State) (c pa x y l : Nat) (w0 w1 : Word) (sig : Option (Nat × Word))
    (b timed : Bool) (r : Rec),
    let k := s.me
    let q := s.core c
    (IssuesDrained (.tend w a n) s →
      (k.intrap = true → exec (.tend w a n) s = .next (s.endTrapped s.cur (k.cause.toNat % 256))) ∧
      (k.intrap = false → (a = 0 ∨ (k.get a).toNat % 65536 = 65535) → ∃ t, exec (.tend w a n) s = .next t ∧
        t.me = { k with run := .ending none false } ∧ (∀ j, j ≠ s.cur → t.core j = s.core j) ∧ t.mem = s.mem) ∧
      (k.intrap = false → a ≠ 0 → (k.get a).toNat % 65536 ≠ 65535 →
        let ea := k.ctrbase + BitVec.ofNat 64 (8 * ((k.get a).toNat % 65536))
        (2 ^ 48 ≤ ea.toNat → exec (.tend w a n) s = .next (s.trapWith { code := 4, pc := 0, tval := ea, why := 6 })) ∧
        (ea.toNat < 2 ^ 48 → s.translate s.cur ea .both = (.bad x y l, u) → exec (.tend w a n) s = .next (u.trapWith {
          code := BitVec.ofNat 8 x, pc := 0, tval := ea, why := BitVec.ofNat 4 y, lvl := BitVec.ofNat 2 l })) ∧
        (ea.toNat < 2 ^ 48 → s.translate s.cur ea .both = (.ok pa w0 w1 l, u) →
          (bankRegion pa false = false → exec (.tend w a n) s = .next (u.trapWith { code := 5, pc := 0, tval := ea, why := 8 })) ∧
          (bankRegion pa false = true → u.unpreservedBy k pa ≠ [] → exec (.tend w a n) s = .next (u.stallOn [pa])) ∧
          (bankRegion pa false = true → u.unpreservedBy k pa = [] → ∃ t, exec (.tend w a n) s = .next t ∧
            t.me = { u.me with run := .ending (some (pa, BitVec.ofNat 64 n.toNat)) false } ∧
            (∀ j, j ≠ u.cur → t.core j = u.core j) ∧ t.mem = u.mem)))) ∧
    (q.run = .ending sig b → q.quiet = true → s.signalWaits sig = true → exec (.tendComplete c) s = .next (s.postIn 64 (.tendComplete c))) ∧
    (q.run = .ending sig b → q.quiet = true → s.signalWaits sig = false → q.gang = 0 →
      exec (.tendComplete c) s = .next ((((s.releaseKeys q).signalEnd c q.ctx sig).freeCore c).timelineEnds q.tl)) ∧
    (q.run = .ending sig b → q.quiet = true → s.signalWaits sig = false → q.gang ≠ 0 →
      exec (.tendComplete c) s = .next (((s.signalEnd c q.ctx sig).modCore c fun k => { k with run := .exiting }).post (.barrierExit c))) ∧
    (q.run = .ending sig b → q.quiet = false → exec (.tendComplete c) s = .next s) ∧
    (IssuesDrained (.yield w n) s → k.gang = 0 → k.inline = none → ∀ st : Word,
      (n = 0 ∧ k.now.toNat % 65536 < 65535 ∧ st = k.now + 1 ∨
        0 < n.toNat ∧ k.now.toNat / 65536 + n.toNat < END ∧ st = BitVec.ofNat 64 ((k.now.toNat / 65536 + n.toNat) * 65536)) →
      (k.term.toNat ≤ st.toNat ∨ k.term = atTick END) → ∃ t, exec (.yield w n) s = .next t ∧
        t.me = { k with run := .yielding (continuation k (if k.intrap then k.epc else k.pc + 4) st) (k.tl != 0xFFFF) } ∧
        (∀ j, j ≠ s.cur → t.core j = s.core j) ∧ t.mem = s.mem) ∧
    (let v : State := if q.run = .leaving r timed ∨ q.keys = 0 then s
       else ((s.releaseKeys q).modCore c fun k => { k with keys := 0 }).post (.taskEntry q.entryCluster)
     (q.run = .yielding r timed ∧ q.drained = true ∨ q.run = .leaving r timed) →
      (((v.cluster (c / 4)).freeSlots (recClass r[0]) = 0 ∨ v.waitsInOverflow (c / 4) (recClass r[0]) = true) →
        8 ≤ (v.cluster (c / 4)).diverts → exec (.yieldComplete c) s = .next ((v.modCore c fun k =>
          { k with run := .leaving r timed }).postIn 1 (.yieldComplete c))) ∧
      (0 < (v.cluster (c / 4)).freeSlots (recClass r[0]) → v.waitsInOverflow (c / 4) (recClass r[0]) = false →
      let m : Item := {
        cls := recClass r[0], src := c, mask := 15, r := r, st := .pending, order := v.nextId, ctx := q.ctx
        tl := if timed then some (q.tl.toNat / 1024 % 16, BitVec.ofNat 2 (q.tl.toNat / 16384)) else none
        inSlot := if timed then 112 + q.tl.toNat / 1024 % 16 else 0, rank := if timed then 9 else 15, inTask := q.intrap }
      let u : State := { v with nextId := v.nextId + 1 }
      let u := u.setItem (c / 4) v.nextId m
      exec (.yieldComplete c) s = .next (((if timed then u else u.post (.taskEntry (c / 4))).freeCore c).timelineEnds q.tl))) ∧
    ((q.run = .exiting ∨ q.run = .leaving r timed) → exec (.watchdog c) s = .next s) ∧
    (q.wdogOn = true → s.budgetOf q = 0 →
      (q.run = .running ∨ (∃ x, q.run = .parked x) ∨ (∃ x, q.run = .flushing x) ∨ (∃ x, q.run = .ending x false) ∨
        (∃ x y, q.run = .yielding x y)) →
      exec (.watchdog c) s = .next ((s.modCore c fun k => { k with run := .running }).takeTrap c
        { code := 0x0E, pc := q.pc, tval := BitVec.ofNat 64 (s.ctx q.ctx).wdog }))

/-- A mode that may run them: tlbi and tlbi.all stall while an earlier store is not performed or an entry is held, then
send the invalidation to every structure of the rectangle and stop issue; each structure, a core's, a cluster's or a
walker's TLB, drops the translations it covers and keeps the others, a constant cache every line of the context, and the
last acknowledgement lets the core go on at the next word. nlog writes a software entry at its router. ctxc.query,
ctxc.rdf and ctxc.wrf of the running context give its state, a field, and the old field with the new one written, each
as a result that comes later: the effect is made at issue (the model's choice, log 86). The stall on held entries and
the emptied constant cache are the model's (log 85), as are what a store waits for to be performed for every class (log
45) and the refusals of wrf (log 87). An operand of tlbi with a bit of [63:48] set traps XLATE. (R362, R375, R376, R386)
-/
def Obligations.SupervisorWords : Prop :=
  ∀ (w : Bool) (d a b : BitVec 5) (s : State) (core unit index : Nat) (all : Bool) (va f : Word),
    let k := s.me
    let v := k.get a
    let us := (s.ctx k.ctx).units
    let sends := fun (i : Instr) (all : Bool) (va : Word) => Issues i s →
      ((k.stores ≠ [] ∨ k.lags ≠ [] ∨ k.held ≠ []) → exec i s = .next s.stall) ∧
      (k.stores = [] → k.lags = [] → k.held = [] → us ≠ [] → ∃ t, exec i s = .next t ∧
        t.me = { k with run := .flushing (k.pc + 4), tlbiLeft := us.length } ∧ (∀ j, j ≠ s.cur → t.core j = s.core j) ∧
        t.mem = s.mem ∧ ∀ u ∈ us, (s.cycle, Event.tlbiInvalidate s.cur u.1 u.2 all va) ∈ t.agenda)
    (v.toNat < 2 ^ 48 → sends (.tlbi w a) false v) ∧ sends (.tlbiAll w) true 0 ∧
    (2 ^ 48 ≤ v.toNat → Issues (.tlbi w a) s →
      exec (.tlbi w a) s = .next (s.trapWith { code := 4, pc := 0, tval := v, why := 6 })) ∧
    (∃ t, exec (.tlbiInvalidate core unit index all va) s = .next t ∧ t.mem = s.mem ∧
      (∀ x, (s.core core).run = .flushing x →
        ((s.core core).tlbiLeft ≤ 1 → (t.core core).run = .running ∧ (t.core core).pc = x) ∧
        (1 < (s.core core).tlbiLeft → (t.core core).tlbiLeft = (s.core core).tlbiLeft - 1)) ∧
      let x := (s.core core).ctx
      let kept := fun (before after : List TlbEntry) => ∀ e, e ∈ after ↔ e ∈ before ∧
        (if all = true then e.ctx ≠ x else e.covers x va.toNat = false)
      (unit = 0 → kept (s.core index).tlb (t.core index).tlb) ∧
      (unit = 1 → kept (s.cluster index).tlb (t.cluster index).tlb) ∧
      (unit = 2 → kept (s.walker index).tlb (t.walker index).tlb) ∧
      (unit = 4 → ∀ e, e ∈ (t.cluster index).ccache ↔ e ∈ (s.cluster index).ccache ∧ e.1 ≠ x)) ∧
    (Issues (.nlog w a b) s → ∃ t, exec (.nlog w a b) s = .next t ∧ t.mem = s.mem ∧
      CoreIs s.cur { s with routers := t.routers } t { k with pc := k.pc + 4 } ∧
      t = (s.logAt (routerOfSrc s.cur) 0x80 s.cur v.toNat k.ctx (k.get b) 0).advance) ∧
    (v.toNat % 256 = 0 → v.toNat / 65536 = 0 → v.toNat / 256 = k.ctx →
      let c := s.ctx k.ctx
      GivesLate (.ctxcQuery w d a) s d
        ((match c.st with | .empty => 0 | .running => 1 | .freezing => 2 | .frozen => 3 | .thawing => 4) +
          (if c.ckpt.isSome then 8 else 0))) ∧
    (v.toNat % 256 < 32 → v.toNat / 65536 = 0 → v.toNat / 256 = k.ctx →
      let c := s.ctx k.ctx
      let i := v.toNat % 256
      c.st ≠ .empty → c.field i = some f →
      GivesLate (.ctxcRdf w d a) s d f ∧
      (fieldWritable i k.mode = true → c.refuses i (k.get b) = false → Issues (.ctxcWrf w d a b) s →
        exec (.ctxcWrf w d a b) s = .next ((s.setField k.ctx i (k.get b)).lateResult d f)) ∧
      (fieldWritable i k.mode = false ∨ c.refuses i (k.get b) = true → Issues (.ctxcWrf w d a b) s →
        exec (.ctxcWrf w d a b) s = .next (s.trapWith { code := 5, pc := 0, tval := v, why := 9 })))

/-- Each load forms its address from s[a] and its signed offset. Bits [63:48] trap XLATE, a misaligned address traps
MISALIGN, a failed translation traps as it failed, all with the address as tval. Else, unless the access must wait at
issue (R126, R130, log 12), the request leaves at once for that many bytes with s[d] outstanding, sign- or zero-extended
as its row says; no register, no byte of memory and no other core changes. (R29, R30, R127, R130) -/
def Obligations.ScalarLoads : Prop :=
  ∀ (w sg : Bool) (d a k : BitVec 5) (o : BitVec 14) (p : BitVec 9) (n pa l c y : Nat) (w0 w1 ea : Word) (i : Instr)
    (s u : State),
    ((i = .ldB w d a o ∧ n = 1 ∧ sg = true ∨ i = .ldBz w d a o ∧ n = 1 ∧ sg = false ∨
      i = .ldH w d a o ∧ n = 2 ∧ sg = true ∨ i = .ldHz w d a o ∧ n = 2 ∧ sg = false ∨
      i = .ldW w d a o ∧ n = 4 ∧ sg = true ∨ i = .ldWz w d a o ∧ n = 4 ∧ sg = false ∨
      i = .ldD w d a o ∧ n = 8 ∧ sg = false) ∧ ea = s.me.get a + o.signExtend 64 ∨
      i = .ldAcq w d a k p ∧ n = 8 ∧ sg = false ∧ ea = s.me.get a + p.signExtend 64) →
    Issues i s →
    (2 ^ 48 ≤ ea.toNat → exec i s = .next (s.trapWith { code := 4, pc := 0, tval := ea, why := 6 })) ∧
    (ea.toNat < 2 ^ 48 → ea.toNat % n ≠ 0 → exec i s = .next (s.trapWith { code := 3, pc := 0, tval := ea })) ∧
    (ea.toNat < 2 ^ 48 → ea.toNat % n = 0 → s.translate s.cur ea .load = (.bad c y l, u) →
      exec i s = .next (u.trapWith {
        code := BitVec.ofNat 8 c, pc := 0, tval := ea, why := BitVec.ofNat 4 y, lvl := BitVec.ofNat 2 l })) ∧
    (ea.toNat < 2 ^ 48 → ea.toNat % n = 0 → s.translate s.cur ea .load = (.ok pa w0 w1 l, u) →
      (u.mustWait pa n 1 0 = true → exec i s = .next u.stall) ∧
      (u.mustWait pa n 1 0 = false → ∃ t, exec i s = .next t ∧ t.me.outs.has u.me.seq = true ∧
        Requests u t {
          core := 0, seq := 0, kind := .load, pa := pa, bytes := n, dest := .reg d n sg
          kpage := w0.toNat / 64 % 2 = 1 } true))

/-- Each store checks and translates as the loads do and sends the low bytes of s[b], posted: at once unless an earlier
fence.rel holds it, and st.rel once every earlier load has returned and every earlier store is performed for the classes
of its mask. fence.full advances when every earlier store is performed for the classes of its mask and every earlier
load has returned, fence.acq when the loads have, and they stall otherwise; fence.rel advances and holds what later
words send. Which classes a store that has come to its home is performed for next is the model's choice (log 45), as is
the wait of a store for an own earlier one to the same bytes (log 12). No register, no byte of memory and no other core
changes. (R126, R127, R130, R132) -/
def Obligations.ScalarStores : Prop :=
  ∀ (w : Bool) (b a k : BitVec 5) (o : BitVec 14) (p : BitVec 9) (n pa l c y : Nat) (w0 w1 ea : Word) (rel : Bool) (i : Instr)
    (s u : State),
    ((i = .stB w b a o ∧ n = 1 ∨ i = .stH w b a o ∧ n = 2 ∨ i = .stW w b a o ∧ n = 4 ∨ i = .stD w b a o ∧ n = 8) ∧
      rel = false ∧ ea = s.me.get a + o.signExtend 64 ∨
      i = .stRel w b a k p ∧ n = 8 ∧ rel = true ∧ ea = s.me.get a + p.signExtend 64) →
    (Issues i s →
      (2 ^ 48 ≤ ea.toNat → exec i s = .next (s.trapWith { code := 4, pc := 0, tval := ea, why := 6 })) ∧
      (ea.toNat < 2 ^ 48 → ea.toNat % n ≠ 0 → exec i s = .next (s.trapWith { code := 3, pc := 0, tval := ea })) ∧
      (ea.toNat < 2 ^ 48 → ea.toNat % n = 0 → s.translate s.cur ea .store = (.bad c y l, u) →
        exec i s = .next (u.trapWith {
          code := BitVec.ofNat 8 c, pc := 0, tval := ea, why := BitVec.ofNat 4 y, lvl := BitVec.ofNat 2 l })) ∧
      (ea.toNat < 2 ^ 48 → ea.toNat % n = 0 → s.translate s.cur ea .store = (.ok pa w0 w1 l, u) →
        (u.mustWait pa n 0 1 = true → exec i s = .next (u.stallOn [pa])) ∧
        (u.mustWait pa n 0 1 = false → ∃ t, exec i s = .next t ∧ t.me.stores.has u.me.seq = true ∧
          Requests u t {
            core := 0, seq := 0, kind := .store, pa := pa, bytes := n
            data := BitVec.ofNat 64 ((u.me.get b).toNat % 256 ^ n) }
            (u.me.mayLeave (if rel then u.me.seq else u.me.relFence) (if rel then k else maskC) u.me.relAll)))) ∧
    (Issues (.fenceFull w k) s →
      (s.me.released s.me.seq k = true → ∃ t, exec (.fenceFull w k) s = .next t ∧ CoreIs s.cur s t { s.me with pc := s.me.pc + 4 }) ∧
      (s.me.released s.me.seq k = false → exec (.fenceFull w k) s = .next s.stall)) ∧
    (Issues (.fenceAcq w k) s →
      (s.me.loads = 0 → ∃ t, exec (.fenceAcq w k) s = .next t ∧ CoreIs s.cur s t { s.me with pc := s.me.pc + 4 }) ∧
      (s.me.loads ≠ 0 → exec (.fenceAcq w k) s = .next s.stall)) ∧
    (Issues (.fenceRel w k) s → ∃ t, exec (.fenceRel w k) s = .next t ∧
      CoreIs s.cur s t { s.me with
        pc := s.me.pc + 4, relFence := s.me.seq, relAll := Vector.ofFn fun i => if k.getLsbD i then s.me.seq else s.me.relAll[i] })

/-- Each checks its address, translates it as a load and a store, and traps ACCESS with WHY 8 where the bank may not act
on the address; unless it must wait at issue (log 12), its request leaves with its operands: the value of s[b] for amo
and cadd, the compare and new values for cas, the issuer index of s[d] and the value of s[b] for dadd. cadd with handle
0xFFFF gives 0 at once. (R258, R262, R264, R266, R269, R270) -/
def Obligations.AtomicWords : Prop :=
  ∀ (w h : Bool) (d a b c k : BitVec 5) (m : BitVec 1) (y : BitVec 4) (n pa l : Nat) (w0 w1 : Word) (i : Instr) (r : MReq)
    (peer : Bool) (s u : State),
    let ea := s.me.get a
    let low := fun (v : Word) (n : Nat) => BitVec.ofNat 64 (v.toNat % 256 ^ n)
    let amo := fun (fn : BitVec 4) (n : Nat) (sg : Bool) =>
      ({ core := 0, seq := 0, kind := .amo fn (n = 4), pa := pa, bytes := n, data2 := low (u.me.get b) n,
         dest := .reg d n sg } : MReq)
    let nm := if m = 1 then 4 else 8
    (((i = .amoAdd w d a b m ∧ n = nm ∧ r = amo 0 nm true ∨ i = .amoAnd w d a b m ∧ n = nm ∧ r = amo 1 nm true ∨
      i = .amoOr w d a b m ∧ n = nm ∧ r = amo 2 nm true ∨ i = .amoXor w d a b m ∧ n = nm ∧ r = amo 3 nm true ∨
      i = .amoMin w d a b m ∧ n = nm ∧ r = amo 4 nm true ∨ i = .amoMax w d a b m ∧ n = nm ∧ r = amo 5 nm true ∨
      i = .amoMinu w d a b m ∧ n = nm ∧ r = amo 6 nm false ∨ i = .amoMaxu w d a b m ∧ n = nm ∧ r = amo 7 nm false ∨
      i = .amoSwap w d a b m ∧ n = nm ∧ r = amo 8 nm true ∨ i = .amoFaddF32 w d a b ∧ n = 4 ∧ r = amo 9 4 false ∨
      i = .amoFaddBf16 w d a b ∧ n = 8 ∧ r = amo 10 8 false ∨ i = .amoFmaxF32 w d a b ∧ n = 4 ∧ r = amo 11 4 false ∨
      (i = .casI64 w d a b c ∧ n = 8 ∧ h = false ∨ i = .casI32 w d a b c ∧ n = 4 ∧ h = true) ∧
        r = { core := 0, seq := 0, kind := .cas h, pa := pa, bytes := n, data := low (u.me.get b) n,
              data2 := low (u.me.get c) n, dest := .reg d n true }) ∧ peer = true) ∨
      i = .dseal w d a ∧ n = 4 ∧ peer = false ∧
        r = { core := 0, seq := 0, kind := .dseal, pa := pa, bytes := 8, dest := .reg d 8 false }) →
    (Issues i s →
      (2 ^ 48 ≤ ea.toNat → exec i s = .next (s.trapWith { code := 4, pc := 0, tval := ea, why := 6 })) ∧
      (ea.toNat < 2 ^ 48 → ea.toNat % n ≠ 0 → exec i s = .next (s.trapWith { code := 3, pc := 0, tval := ea })) ∧
      (ea.toNat < 2 ^ 48 → ea.toNat % n = 0 → s.translate s.cur ea .both = (.ok pa w0 w1 l, u) →
        (bankRegion pa peer = false →
          exec i s = .next (u.trapWith { code := 5, pc := 0, tval := ea, why := 8 })) ∧
        (bankRegion pa peer = true → u.mustWait pa n 1 1 = false → ∃ t, exec i s = .next t ∧
          t.me.outs.has u.me.seq = true ∧ t.me.stores.has u.me.seq = true ∧
          Requests u t r (u.me.mayLeave u.me.relFence maskC u.me.relAll)))) ∧
    (Issues (.dadd w d a b y) s → ea.toNat < 2 ^ 48 →
      let n := if y = 0 then 4 else 8
      ea.toNat % n = 0 → s.translate s.cur ea .both = (.ok pa w0 w1 l, u) → bankRegion pa false = true →
      u.mustWait pa n 0 1 = false → ∃ t, exec (.dadd w d a b y) s = .next t ∧ t.me.stores.has u.me.seq = true ∧
        Requests u t {
          core := 0, seq := 0, kind := .dadd y, pa := pa, bytes := n, data := low (u.me.get b) n
          data2 := low (u.me.get d) 2 } (u.me.mayLeave u.me.relFence maskC u.me.relAll)) ∧
    (Issues (.cadd w d a b k) s →
      (ea.toNat % 65536 = 65535 → ∃ t, exec (.cadd w d a b k) s = .next t ∧ Writes s t d 0) ∧
      (ea.toNat % 65536 ≠ 65535 →
        let ca := s.me.ctrbase + BitVec.ofNat 64 (8 * (ea.toNat % 65536))
        ca.toNat < 2 ^ 48 → s.translate s.cur ca .both = (.ok pa w0 w1 l, u) → bankRegion pa false = true →
        u.mustWait pa 8 1 0 = false → u.unpreservedBy u.me pa = [] →
        ∃ t, exec (.cadd w d a b k) s = .next t ∧ t.me.caddn = (if u.me.caddn = 65535 then 65535 else u.me.caddn + 1) ∧
          t.me.outs.has u.me.seq = true ∧
          Requests u t { core := 0, seq := 0, kind := .cadd, pa := pa, bytes := 8, data2 := u.me.get b, dest := .reg d 8 false }
            (u.me.mayLeave u.me.seq k u.me.relAll)))

/-- A load, the read of a scale group, a row load, or an engine's read that comes to its target in order, is not of a K
page, and finds a home that exists is answered with its bytes as they stand, low byte first; a poisoned word answers
status 1, a home that does not exist and a reduction window status 2, and a hit in the constant cache answers the cached
bytes. A host load waits for its completion; a completion of a host or peer load gives the bytes, or its status, and the
one that does not come gives status 3. Memory and every core are unchanged; the time of the answer is free (log 7); the
2,400 cycles of a host load and the 150,000 of its timeout are the model's numbers (log 26). (R31, R124, R127, R139,
R141, R163, R260, R415, R427) -/
def Obligations.BankReads : Prop :=
  ∀ (id x c q uid : Nat) (r : MReq) (row : Row) (st : BitVec 4) (s : State),
    let keeps := fun (t : State) => t.mem = s.mem ∧ t.cores = s.cores
    let bytes := memRead s.mem r.pa r.bytes
    let data := BitVec.ofNat 64 bytes
    let word := BitVec.ofNat 512 bytes
    let plain := region r.pa = .hbm ∨ (∃ v o, region r.pa = .window v o) ∨ (∃ c, region r.pa = .scratch c) ∨ ∃ d, region r.pa = .peer d
    (Arrives s id r → r.kind = .load ∨ r.kind = .group →
      (r.kpage = false → plain → s.physOk r.pa = true → s.poisoned r.pa r.bytes = false → ∃ t, exec (.bankLoad id) s = .next t ∧
        keeps t ∧ Answered t id { r with stage := 2, status := 0, data := data }) ∧
      (r.kpage = false → plain → s.physOk r.pa = true → s.poisoned r.pa r.bytes = true → ∃ t, exec (.bankLoad id) s = .next t ∧
        keeps t ∧ Answered t id { r with stage := 2, status := 1, data := 0 }) ∧
      (r.kpage = false → plain ∧ s.physOk r.pa = false ∨ (∃ w o, region r.pa = .reduction w o) → ∃ t, exec (.bankLoad id) s = .next t ∧
        keeps t ∧ Answered t id { r with stage := 2, status := 2, data := 0 }) ∧
      (r.kpage = true → (s.cluster (r.core / 4)).cached r.ctx (r.pa / 64) = some row → ∃ t, exec (.bankLoad id) s = .next t ∧
        keeps t ∧ Answered t id { r with
          stage := 2, status := 0, data := BitVec.ofNat 64 (row.toNat / 256 ^ (r.pa % 64) % 256 ^ r.bytes) }) ∧
      (r.kpage = false → region r.pa = .host → ∃ t, exec (.bankLoad id) s = .next t ∧ keeps t ∧ t.reqs = s.reqs ∧
        (s.cycle + 2400, Event.pcieCompletionArrival id 0) ∈ t.agenda ∧
        (s.cycle + 150000, Event.pcieCompletionTimeout id) ∈ t.agenda)) ∧
    (∀ i, i = Instr.rowLoadRequest id ∧ r.kind = .rowLoad ∨ i = Instr.bankLoad id ∧ r.kind = .engRead c q uid →
      Arrives s id r → r.kpage = false →
      (plain → s.physOk r.pa = true → s.poisoned r.pa r.bytes = false → ∃ t, exec i s = .next t ∧ keeps t ∧
        Answered t id { r with stage := 2, status := 0, row := word }) ∧
      (plain → s.physOk r.pa = true → s.poisoned r.pa r.bytes = true → ∃ t, exec i s = .next t ∧ keeps t ∧
        Answered t id { r with stage := 2, status := 1 }) ∧
      (plain ∧ s.physOk r.pa = false ∨ (∃ w o, region r.pa = .reduction w o) → ∃ t, exec i s = .next t ∧
        keeps t ∧ Answered t id { r with stage := 2, status := 2 })) ∧
    (s.reqs.find id = some r → r.stage = 1 → (region r.pa = .host ∨ ∃ d, region r.pa = .peer d) → r.kind = .load →
      (s.poisoned r.pa r.bytes = false → ∃ t, exec (.pcieCompletionArrival id 0) s = .next t ∧ keeps t ∧
        Answered t id { r with stage := 2, status := 0, data := data }) ∧
      (st ≠ 0 → ∃ t, exec (.pcieCompletionArrival id st) s = .next t ∧ keeps t ∧
        Answered t id { r with stage := 2, status := st, data := 0 }) ∧
      (∃ t, exec (.pcieCompletionTimeout id) s = .next t ∧ keeps t ∧
        Answered t id { r with stage := 2, status := 3, data := 0 })) ∧
    (∀ va kind, exec (.translationWalk x va kind) s = .next (s.translate x va kind).2)

/-- The answer of a load, atomic, counter addition or seal writes its register, extended as the word says, and nothing
else of the registers; one that failed defers POISON or ACCESS to the next waiting word and writes nothing; a store
acknowledged is performed; a row whose scale groups are back too writes its tile row, and its sidecar when the page has
scale words, and a poisoned one writes zeros and defers POISON. The request is closed and nothing in memory changes. A
held store, and the addition of a cadd, leave once their release condition holds. A store acknowledged is performed for
the cores; for the other classes it is performed later, at free times, by further acknowledgements of the model's, each
for some of the classes left, which a free value names (log 45). (R30, R31, R32, R125, R126, R127, R130, R139, R266) -/
def Obligations.AnswersReturn : Prop :=
  ∀ (id seq x c : Nat) (d : BitVec 5) (n : Nat) (sg : Bool) (o : OutRes) (tile : BitVec 3) (row : BitVec 6) (r : MReq)
    (e : HeldEntry) (l : Lag) (back : GroupRef → MReq) (s : State),
    let k := s.core r.core
    let closes := fun (t : State) (k' : Core) => t.reqs.find id = none ∧
      (∀ j, j ≠ id → (∀ q, s.reqs.find j = some q → q.kind ≠ .group) → t.reqs.find j = s.reqs.find j) ∧ t.mem = s.mem ∧
      t.core r.core = { k' with stores := k'.stores.erase r.seq, outs := k'.outs.erase r.seq } ∧
      ∀ j, j ≠ r.core → t.core j = s.core j
    (s.reqs.find id = some r → r.stage = 2 → s.siblings id r = false →
      ((r.kind = .load ∨ (∃ f h, r.kind = .amo f h) ∨ (∃ h, r.kind = .cas h) ∨ r.kind = .cadd ∨ r.kind = .dseal) →
        k.outs.find r.seq = some o →
        (r.status = 0 → r.dest = .reg d n sg → ∃ t, exec (.loadResponse id) s = .next t ∧
          closes t (k.put d (extendBytes n sg r.data.toNat))) ∧
        (r.status ≠ 0 → ∃ t, exec (.loadResponse id) s = .next t ∧
          closes t { k with deferred := k.deferred ++ [{ seq := r.seq, t :=
            if r.status = 1 then { code := 6, pc := 0, tval := o.ea, iaddr := some o.iaddr }
            else { code := 5, pc := 0, tval := o.ea, iaddr := some o.iaddr, why := if r.status = 4 then 4 else 8 } }] })) ∧
      ((r.kind = .store ∨ r.kind = .rowStore ∨ (∃ m, r.kind = .scale m) ∨ (∃ y, r.kind = .dadd y)) →
        ∃ t, exec (.storeAck id) s = .next t ∧ closes t k) ∧
      (r.kind = .rowLoad → r.dest = .row tile row → k.outs.find r.seq = some o → o.bad = [] →
        (∀ p ∈ s.reqs, p.1 = id → p.2 = r) →
        let others := fun (t : State) => t.mem = s.mem ∧ (t.core r.core).regs = k.regs ∧ (∀ j, j ≠ r.core → t.core j = s.core j) ∧
          ∀ p q, p * 64 + q ≠ tile.toNat * 64 + row.toNat → (t.core r.core).row p q = k.row p q
        (r.status = 0 → (∀ g ∈ r.groups, s.groupRead r g = some (back g) ∧ (back g).stage = 3 ∧ (back g).status = 0) →
          ∃ t, exec (.rowLoadResponse id) s = .next t ∧ others t ∧ (t.core r.core).row tile.toNat row.toNat = r.row ∧
            (t.core r.core).sideOf tile.toNat row.toNat = (if r.groups = [] then k.sideOf tile.toNat row.toNat
              else r.groups.foldl (fun v g => setSlot v g.j (BitVec.ofNat 20 ((back g).data.toNat / 2 ^ (20 * g.slot)))) 0)) ∧
        (r.status = 1 → r.groups = [] → ∃ t, exec (.rowLoadResponse id) s = .next t ∧ others t ∧
          (t.core r.core).row tile.toNat row.toNat = 0 ∧ (t.core r.core).deferred = k.deferred ++ [{ seq := r.seq, t :=
            { code := 6, pc := 0, tval := r.badAt, iaddr := some o.iaddr, row := row } }]))) ∧
    ((s.core c).held.find seq = some e →
      (e.what = .request x → e.free (s.core c) = true → exec (.stRelStoreLeaves c seq) s =
        .next ((s.modCore c fun k => { k with held := k.held.erase seq }).leave c seq)) ∧
      (e.what = .request x → e.free (s.core c) = false → exec (.stRelStoreLeaves c seq) s = .next s) ∧
      (e.what = .addition x → e.free (s.core c) = true → exec (.caddAdditionSent c seq) s =
        .next ((s.modCore c fun k => { k with held := k.held.erase seq }).leave c seq)) ∧
      (e.what = .addition x → e.free (s.core c) = false → exec (.caddAdditionSent c seq) s = .next s)) ∧
    (s.reqs.find id = none → (s.lagging.filter fun g => g.id = id) = [l] → (∀ g ∈ s.lagging, g.id ≠ id → g.meets l = false) →
      ∃ (m : BitVec 5) (t : State), exec (.storeAck id) s = .next t ∧ m &&& l.mask = m ∧ (l.mask ≠ 0 → m ≠ 0) ∧ t.mem = s.mem ∧
        t.lagging = (s.lagging.map fun g => if g.id = id then { g with mask := g.mask &&& ~~~m } else g).filter (fun g => g.mask != 0) ∧
        (∀ j, j ≠ l.core → t.core j = s.core j) ∧
        let left := t.lagMask l.core l.seq
        t.core l.core = { s.core l.core with lags :=
          if left = 0 then (s.core l.core).lags.erase l.seq else (s.core l.core).lags.set l.seq left })

/-- A store, row store, scale-slot write or write of an engine that comes to its target in order, to a home of HBM or a
bank window that exists, writes exactly its bytes, low byte first, and is acknowledged; amo writes f(old, v), cas the
new value if the old one is the compare value and nothing otherwise, a counter addition the sum up to all ones, each
answered with the old value; no other byte of memory and no core changes, when no word is written in part while poisoned
and the context is not being checkpointed. A poisoned word answers status 1 and is not written. A partial scale-slot
write keeps the other slots and writes the bits above them zero (log 58); of a store's core only the mark of the classes
for which it is not yet performed changes: every one but C (log 45). (R127, R138, R139, R163, R260, R262, R264, R265,
R266) -/
def Obligations.BankWrites : Prop :=
  ∀ (id c q uid : Nat) (r : MReq) (fn : BitVec 4) (h : Bool) (slots : BitVec 3) (s : State),
    MemOk s → Arrives s id r → (region r.pa = .hbm ∨ ∃ v o, region r.pa = .window v o) → s.physOk r.pa = true →
    (s.ctx r.ctx).ckpt = none → 0 < r.bytes →
    let old := memRead s.mem r.pa r.bytes
    let arg := r.data2.toNat
    let writes := fun (e : Instr) (n v : Nat) (data : Word) => ∃ t, exec e s = .next t ∧ t.cores = s.cores ∧
      Stored s.mem t.mem r.pa n v ∧ Answered t id { r with stage := 2, status := 0, data := data }
    let stores := fun (e : Instr) (n v : Nat) => ∃ t, exec e s = .next t ∧ (∀ j, j ≠ r.core → t.core j = s.core j) ∧
      t.core r.core = { s.core r.core with lags := (s.core r.core).lags.set r.seq 30 } ∧
      Stored s.mem t.mem r.pa n v ∧ Answered t id { r with stage := 2, status := 0, data := 0 }
    let refuses := fun (e : Instr) => ∃ t, exec e s = .next t ∧ t.cores = s.cores ∧ t.mem = s.mem ∧
      Answered t id { r with stage := 2, status := 1, data := 0 }
    (r.kind = .store → s.poisonKept r.pa r.bytes = false → stores (.bankStore id) r.bytes r.data.toNat) ∧
    (r.kind = .rowStore → s.poisonKept r.pa 64 = false → stores (.rowStoreRequest id) 64 r.row.toNat) ∧
    (r.kind = .scale slots → s.poisonKept r.pa 8 = false → s.poisoned r.pa 8 = false →
      stores (.scaleSlotWrite id) 8
        (mergeSlots slots (if slots = 7 then 0 else memRead s.mem r.pa 8) r.data.toNat)) ∧
    (r.kind = .engWrite c q uid none → s.poisonKept r.pa r.bytes = false → writes (.bankStore id) r.bytes r.row.toNat 0) ∧
    (r.kind = .engWrite c q uid (some slots) → r.bytes = 8 → s.poisonKept r.pa 8 = false → s.poisoned r.pa 8 = false →
      writes (.bankStore id) 8 (mergeSlots slots (if slots = 7 then 0 else memRead s.mem r.pa 8) r.data.toNat) 0) ∧
    (r.kind = .amo fn h → s.poisoned r.pa r.bytes = true → refuses (.amoAtBank id)) ∧
    (r.kind = .amo fn h → s.poisoned r.pa r.bytes = false →
      let does := fun (v : Nat) => writes (.amoAtBank id) r.bytes v (BitVec.ofNat 64 old)
      (fn = 0 → does (old + arg)) ∧ (fn = 1 → does (old &&& arg)) ∧ (fn = 2 → does (old ||| arg)) ∧ (fn = 3 → does (old ^^^ arg)) ∧
      (fn = 4 → does (if signedOf r.bytes old < signedOf r.bytes arg then old else arg)) ∧
      (fn = 5 → does (if signedOf r.bytes old < signedOf r.bytes arg then arg else old)) ∧
      (fn = 6 → does (if old < arg then old else arg)) ∧ (fn = 7 → does (if old < arg then arg else old)) ∧
      (fn = 8 → does arg) ∧ (fn = 9 → does ((fmtD 0).add 0 old arg).1) ∧
      (fn = 10 → does (amoFn 10 r.bytes old arg)) ∧ (fn = 11 → does ((fmtD 0).minMax true old arg))) ∧
    (r.kind = .cas h → s.poisoned r.pa r.bytes = true → refuses (.casAtBank id)) ∧
    (r.kind = .cas h → s.poisoned r.pa r.bytes = false →
      writes (.casAtBank id) r.bytes (if old = r.data.toNat then arg else old) (BitVec.ofNat 64 old)) ∧
    (r.kind = .cadd → s.poisoned r.pa 8 = true → refuses (.counterAddAtBank id)) ∧
    (r.kind = .cadd → s.poisoned r.pa 8 = false →
      writes (.counterAddAtBank id) 8 (min (memRead s.mem r.pa 8 + arg) (2 ^ 64 - 1)) (BitVec.ofNat 64 (memRead s.mem r.pa 8)))

/-- The first contribution of a round, while fewer than 128 holding lines of the bank are taken, opens a line and is
held there; nothing in memory changes. A contribution to a spilled i64 round is added at once, modulo 2^64. A further
contribution of the round's type is held in drain order, up to 16; the seventeenth, or one of another type, spills the
round: the entries are added to the word in drain order, then the contribution. dseal with no open round answers 0; of a
spilled round it answers the status word and frees the line, of a held one it first adds the entries to the word in
drain order. No core changes. (R268, R269, R270) -/
def Obligations.DeterministicAdd : Prop :=
  ∀ (id : Nat) (r : MReq) (ty : BitVec 4) (l : HoldLine) (s : State),
    MemOk s → Arrives s id r → (region r.pa = .hbm ∨ ∃ v o, region r.pa = .window v o) → s.physOk r.pa = true →
    (s.ctx r.ctx).ckpt = none → s.poisoned r.pa 8 = false →
    let v := s.slice (s.homeOf r.pa)
    let answers := fun (t : State) (data : Word) => Answered t id { r with stage := 2, status := 0, data := data }
    (r.kind = .dadd ty → v.line r.ctx r.pa r.bytes = none → (v.lines.filter fun l => l.holds && bankOf l.pa = bankOf r.pa).length < 128 →
      ∃ t, exec (.daddAtBank id) s = .next t ∧ t.cores = s.cores ∧ t.mem = s.mem ∧ answers t 0 ∧
        (t.slice (s.homeOf r.pa)).line r.ctx r.pa r.bytes = some {
          ctx := r.ctx, pa := r.pa, wd := r.bytes, ty := ty, ncon := 1, entries := [(r.data2.toNat, r.data.toNat)] }) ∧
    (r.kind = .dadd 15 → r.bytes = 8 → v.line r.ctx r.pa 8 = some l → l.sp = true → l.wd = 8 →
      ∃ t, exec (.daddAtBank id) s = .next t ∧ t.cores = s.cores ∧ answers t 0 ∧
        Stored s.mem t.mem r.pa 8 (memRead s.mem r.pa 8 + r.data.toNat)) ∧
    (r.kind = .dseal → v.line r.ctx r.pa 4 = none → v.line r.ctx r.pa 8 = none →
      ∃ t, exec (.dsealAtBank id) s = .next t ∧ t.cores = s.cores ∧ t.mem = s.mem ∧ answers t 0) ∧
    (r.kind = .dseal → v.line r.ctx r.pa 4 = none → v.line r.ctx r.pa 8 = some l → l.sp = true → l.pois = false →
      ∃ t, exec (.dsealAtBank id) s = .next t ∧ t.cores = s.cores ∧ t.mem = s.mem ∧
        (t.slice (s.homeOf r.pa)).line r.ctx r.pa 8 = none ∧
        answers t (BitVec.ofNat 64 (2 ^ 63 + l.ty.toNat * 2 ^ 28 + l.flags.toNat * 2 ^ 16 + l.ncon))) ∧
    (r.kind = .dadd ty → v.line r.ctx r.pa r.bytes = some l → l.wd = r.bytes → l.sp = false → l.pois = false →
      (r.bytes = 4 ∨ r.bytes = 8) →
      (l.ty = ty → l.entries.length < 16 → ∃ t, exec (.daddAtBank id) s = .next t ∧ t.cores = s.cores ∧ t.mem = s.mem ∧ answers t 0 ∧
        (t.slice (s.homeOf r.pa)).line r.ctx r.pa r.bytes = some { l with
          ncon := min (l.ncon + 1) 65535, entries := drainInsert (r.data2.toNat, r.data.toNat) l.entries }) ∧
      (l.entries.length = 16 ∨ l.ty ≠ ty →
        let a := dsum ty r.bytes (l.entries.foldl (fun a e => dsum l.ty r.bytes a e.2) (memRead s.mem r.pa r.bytes, l.flags)) r.data.toNat
        ∃ t, exec (.daddAtBank id) s = .next t ∧ t.cores = s.cores ∧ answers t 0 ∧ Stored s.mem t.mem r.pa r.bytes a.1 ∧
          (t.slice (s.homeOf r.pa)).line r.ctx r.pa r.bytes = some { l with
            sp := true, ncon := min (l.ncon + 1) 65535, flags := a.2, entries := [] })) ∧
    (r.kind = .dseal → v.line r.ctx r.pa 4 = none → v.line r.ctx r.pa 8 = some l → l.wd = 8 → l.pa = r.pa → l.sp = false →
      l.pois = false →
      let a := l.entries.foldl (fun a e => dsum l.ty 8 a e.2) (memRead s.mem r.pa 8, l.flags)
      ∃ t, exec (.dsealAtBank id) s = .next t ∧ t.cores = s.cores ∧ Stored s.mem t.mem r.pa 8 a.1 ∧
        (t.slice (s.homeOf r.pa)).line r.ctx r.pa 8 = none ∧
        answers t (BitVec.ofNat 64 (l.ty.toNat * 2 ^ 28 + a.2.toNat * 2 ^ 16 + l.ncon)))

/-- Every word of the row family, in T form with its row field and in X form with s[x][5:0], tests the tags of its tiles
in order and traps FMT with the tile, its tag and the tag wanted; with its core's vector queue full or its destination
held for a command it stalls; else it enters the queue with frm, the tag and geometry of ta and the neuron registers as
they stand, td takes its new tag, the unit is asked to start, and nothing else of the core, memory or another core
changes. R289 takes frm at issue; that the neuron registers too are those at issue is the model's reading (log 51). vqnt
of part 4 and up from a tile that is not f32 traps ILLEGAL. (R280, R282, R286, R287, R288, R294, R295, R298, R299, R301,
R321) -/
def Obligations.RowWords : Prop :=
  ∀ (w : Bool) (d a b : BitVec 3) (r : BitVec 5) (y c : BitVec 4) (p j : BitVec 3) (s : State),
    let does := fun (i : Instr) (kind : RowKind) (a b : BitVec 3) (row : BitVec 6) (ty : BitVec 4) => Issues i s →
      let k := s.me
      let o : RowOp := {
        kind := kind, ty := ty, d := d, a := a, b := b, row := row, frm := k.frm, tag := (k.tile a).tag, geo := (k.tile a).geo
        np0 := k.nparam0, np1 := k.nparam1, np2 := k.nparam2, word := (encode i).setWidth 32, iaddr := k.pc, seq := k.seq }
      let wide := ∃ q, kind = .qnt q ∧ 4 ≤ q ∧ (k.tile a).tag ≠ 0
      let full := 8 ≤ k.rowQ.length ∨ k.tileHeld d = true ∨ (kind = .neur ∧ k.tileHeld b = true)
      (∀ tv, k.tagFault o.tags = some tv → exec i s = .next (s.trap 8 tv)) ∧
      (k.tagFault o.tags = none → wide → exec i s = .next (s.trap 1 ((encode i).setWidth 64))) ∧
      (k.tagFault o.tags = none → ¬wide → full → exec i s = .next s.stall) ∧
      (k.tagFault o.tags = none → ¬wide → ¬full → ∃ t, exec i s = .next t ∧
        OnlyCore s.cur { s with agenda := t.agenda } t ∧ (s.cycle, Event.vectorUnitStart (s.cur / 4)) ∈ t.agenda ∧
        t.me = { k.setTile d (o.retag (k.tile a) (k.tile d)) with
          rowQ := k.rowQ ++ [o], seq := k.seq + 1, pc := k.pc + 4 })
    does (.vadd w d a b r y) (.arith 0) a b (r.setWidth 6) y ∧
    does (.vaddX w d a b r y) (.arith 0) a b ((s.me.get r).setWidth 6) y ∧
    does (.vsub w d a b r y) (.arith 1) a b (r.setWidth 6) y ∧
    does (.vsubX w d a b r y) (.arith 1) a b ((s.me.get r).setWidth 6) y ∧
    does (.vmul w d a b r y) (.arith 2) a b (r.setWidth 6) y ∧
    does (.vmulX w d a b r y) (.arith 2) a b ((s.me.get r).setWidth 6) y ∧
    does (.vmin w d a b r y) (.arith 3) a b (r.setWidth 6) y ∧
    does (.vminX w d a b r y) (.arith 3) a b ((s.me.get r).setWidth 6) y ∧
    does (.vmax w d a b r y) (.arith 4) a b (r.setWidth 6) y ∧
    does (.vmaxX w d a b r y) (.arith 4) a b ((s.me.get r).setWidth 6) y ∧
    does (.vabs w d a r y) (.arith 5) a 0 (r.setWidth 6) y ∧
    does (.vabsX w d a r y) (.arith 5) a 0 ((s.me.get r).setWidth 6) y ∧
    does (.vneg w d a r y) (.arith 6) a 0 (r.setWidth 6) y ∧
    does (.vnegX w d a r y) (.arith 6) a 0 ((s.me.get r).setWidth 6) y ∧
    does (.vand w d a b r y) (.arith 7) a b (r.setWidth 6) y ∧
    does (.vandX w d a b r y) (.arith 7) a b ((s.me.get r).setWidth 6) y ∧
    does (.vor w d a b r y) (.arith 8) a b (r.setWidth 6) y ∧
    does (.vorX w d a b r y) (.arith 8) a b ((s.me.get r).setWidth 6) y ∧
    does (.vxor w d a b r y) (.arith 9) a b (r.setWidth 6) y ∧
    does (.vxorX w d a b r y) (.arith 9) a b ((s.me.get r).setWidth 6) y ∧
    does (.vshl w d a b r y) (.arith 10) a b (r.setWidth 6) y ∧
    does (.vshlX w d a b r y) (.arith 10) a b ((s.me.get r).setWidth 6) y ∧
    does (.vshr w d a b r y) (.arith 11) a b (r.setWidth 6) y ∧
    does (.vshrX w d a b r y) (.arith 11) a b ((s.me.get r).setWidth 6) y ∧
    does (.vsra w d a b r y) (.arith 12) a b (r.setWidth 6) y ∧
    does (.vsraX w d a b r y) (.arith 12) a b ((s.me.get r).setWidth 6) y ∧
    does (.vcmpLt w d a b r y) (.arith 13) a b (r.setWidth 6) y ∧
    does (.vcmpLtX w d a b r y) (.arith 13) a b ((s.me.get r).setWidth 6) y ∧
    does (.vcmpLe w d a b r y) (.arith 14) a b (r.setWidth 6) y ∧
    does (.vcmpLeX w d a b r y) (.arith 14) a b ((s.me.get r).setWidth 6) y ∧
    does (.vcmpEq w d a b r y) (.arith 15) a b (r.setWidth 6) y ∧
    does (.vcmpEqX w d a b r y) (.arith 15) a b ((s.me.get r).setWidth 6) y ∧
    does (.vsel w d a b r y) (.arith 16) a b (r.setWidth 6) y ∧
    does (.vselX w d a b r y) (.arith 16) a b ((s.me.get r).setWidth 6) y ∧
    does (.vmov w d a r y) (.arith 17) a 0 (r.setWidth 6) y ∧
    does (.vmovX w d a r y) (.arith 17) a 0 ((s.me.get r).setWidth 6) y ∧
    does (.vfma w d a b r y) .fma a b (r.setWidth 6) y ∧
    does (.vfmaX w d a b r y) .fma a b ((s.me.get r).setWidth 6) y ∧
    does (.vrcp w d a r y) (.special 0) a 0 (r.setWidth 6) y ∧
    does (.vrcpX w d a r y) (.special 0) a 0 ((s.me.get r).setWidth 6) y ∧
    does (.vrsq w d a r y) (.special 1) a 0 (r.setWidth 6) y ∧
    does (.vrsqX w d a r y) (.special 1) a 0 ((s.me.get r).setWidth 6) y ∧
    does (.vrfn w d a b r y) (.refine false) a b (r.setWidth 6) y ∧
    does (.vrfnX w d a b r y) (.refine false) a b ((s.me.get r).setWidth 6) y ∧
    does (.vrfs w d a b r y) (.refine true) a b (r.setWidth 6) y ∧
    does (.vrfsX w d a b r y) (.refine true) a b ((s.me.get r).setWidth 6) y ∧
    does (.vexp2 w d a r y) (.special 4) a 0 (r.setWidth 6) y ∧
    does (.vexp2X w d a r y) (.special 4) a 0 ((s.me.get r).setWidth 6) y ∧
    does (.vlog2 w d a r y) (.special 5) a 0 (r.setWidth 6) y ∧
    does (.vlog2X w d a r y) (.special 5) a 0 ((s.me.get r).setWidth 6) y ∧
    does (.vcvt w d a p r y c) (.cvt c p.toNat) a 0 (r.setWidth 6) y ∧
    does (.vcvtX w d a p r y c) (.cvt c p.toNat) a 0 ((s.me.get r).setWidth 6) y ∧
    does (.vqnt w d a p r y) (.qnt p.toNat) a 0 (r.setWidth 6) y ∧
    does (.vqntX w d a p r y) (.qnt p.toNat) a 0 ((s.me.get r).setWidth 6) y ∧
    does (.vdq w d a p r y) (.dq p.toNat) a 0 (r.setWidth 6) y ∧
    does (.vdqX w d a p r y) (.dq p.toNat) a 0 ((s.me.get r).setWidth 6) y ∧
    does (.vredSum w d a r y) (.red 0) a 0 (r.setWidth 6) y ∧
    does (.vredSumX w d a r y) (.red 0) a 0 ((s.me.get r).setWidth 6) y ∧
    does (.vredMin w d a r y) (.red 1) a 0 (r.setWidth 6) y ∧
    does (.vredMinX w d a r y) (.red 1) a 0 ((s.me.get r).setWidth 6) y ∧
    does (.vredMax w d a r y) (.red 2) a 0 (r.setWidth 6) y ∧
    does (.vredMaxX w d a r y) (.red 2) a 0 ((s.me.get r).setWidth 6) y ∧
    does (.vredAmax w d a r y) (.red 3) a 0 (r.setWidth 6) y ∧
    does (.vredAmaxX w d a r y) (.red 3) a 0 ((s.me.get r).setWidth 6) y ∧
    does (.vscan w d a r y) .scan a 0 (r.setWidth 6) y ∧
    does (.vscanX w d a r y) .scan a 0 ((s.me.get r).setWidth 6) y ∧
    does (.vperm w d a b r y) .perm a b (r.setWidth 6) y ∧
    does (.vins w d a b r y) .ins a b (r.setWidth 6) y ∧
    does (.vext w d a b r y) .ext a b (r.setWidth 6) y ∧
    does (.vbcast w d a j r y) (.bcast j.toNat) a 0 (r.setWidth 6) y ∧
    does (.vneur w d a b r y) .neur a b (r.setWidth 6) y

/-- At its cycle the unit starts the head of the first ready core after the one last served, computes from the rows as
they stand, and writes at the latency of the kind: 4, 8 or 10 cycles. On i32 rows the lanes are the sums, differences,
products, bitwise results and masks of the lanes; vbcast repeats one lane and vmov copies the row. A row that is due is
written with its flags, in order; one that read a row in error writes nothing and defers POISON. Memory does not change.
(R282, R284, R289, R290, R299, R302, R303) -/
def Obligations.RowUnit : Prop :=
  ∀ (cl c q lane : Nat) (o : RowOp) (rest : List RowOp) (run : RowRun) (key : Nat) (row : Row) (s : State),
    let k := s.core c
    ((s.cluster cl).vecAt ≤ s.cycle → s.nextVector cl = some c → k.rowQ = o :: rest → k.rowUpset = 0 → k.softRows = [] →
      k.softSide = [] → ∃ t, exec (.vectorUnitStart cl) s = .next t ∧ t.mem = s.mem ∧ (∀ j, j ≠ c → t.core j = s.core j) ∧
        t.core c = { k with
          rowQ := rest, rowRun := k.rowRun ++ [{ k.rowRunOf o with due := s.cycle + o.kind.latency }] } ∧
        (t.cluster cl).vecLast = c % 4 ∧ (t.cluster cl).vecAt = s.cycle + 1 ∧
        (s.cycle + o.kind.latency, Event.rowWrite c) ∈ t.agenda) ∧
    ((∃ r ∈ o.reads, k.rowBad r = true) → k.rowRunOf o = { op := o, fail := some (false, o.row) }) ∧
    (k.rowRun = [run] → run.due ≤ s.cycle → run.side = [] → run.part = false → run.spk = none →
      (run.fail = none → run.rows = [(key, row)] → ∃ t, exec (.rowWrite c) s = .next t ∧ t.mem = s.mem ∧
        (∀ j, j ≠ c → t.core j = s.core j) ∧
        t.core c = { k.setRow (key / 64) (key % 64) row with rowRun := [], fflags := k.fflags ||| run.flags }) ∧
      (run.fail = some (false, run.op.row) → ∃ t, exec (.rowWrite c) s = .next t ∧ t.mem = s.mem ∧
        t.core c = { k with
          rowRun := [], rowQ := []
          deferred := k.deferred ++ [{ seq := run.op.seq, t :=
            { code := 6, pc := 0, tval := 0, iaddr := some run.op.iaddr, row := run.op.row } }] })) ∧
    ((∀ x ∈ o.reads, k.rowBad x = false) → (∃ j ∈ o.readsSide, k.badSide.contains (rowKey o.a o.row * 8 + j) = true) →
      k.rowRunOf o = { op := o, fail := some (false, o.row) }) ∧
    ((∀ x ∈ o.reads, k.rowBad x = false) → k.badSide = [] → k.rowUpset = 0 → k.rowRunOf o = k.rowResult o) ∧
    (o.ty = 10 → lane < 16 →
      let at_ := fun (v : Row) => v.extractLsb' (32 * lane) 32
      let A := at_ (k.row o.a.toNat o.row.toNat)
      let B := at_ (k.row o.b.toNat o.row.toNat)
      let D := at_ (k.row o.d.toNat o.row.toNat)
      let is := fun (kind : RowKind) (v : BitVec 32) => o.kind = kind →
        ∃ out, (k.rowResult o).rows = [(o.d.toNat * 64 + o.row.toNat, out)] ∧ at_ out = v ∧ (k.rowResult o).flags = 0
      is (.arith 0) (A + B) ∧ is (.arith 1) (A - B) ∧ is (.arith 2) (A * B) ∧ is (.arith 6) (-A) ∧
      is (.arith 3) (if B.toInt < A.toInt then B else A) ∧ is (.arith 4) (if A.toInt < B.toInt then B else A) ∧
      is (.arith 7) (A &&& B) ∧ is (.arith 8) (A ||| B) ∧ is (.arith 9) (A ^^^ B) ∧
      is (.arith 10) (A <<< (B.toNat % 32)) ∧ is (.arith 11) (A >>> (B.toNat % 32)) ∧
      is (.arith 13) (if A.toInt < B.toInt then BitVec.allOnes 32 else 0) ∧
      is (.arith 14) (if A.toInt ≤ B.toInt then BitVec.allOnes 32 else 0) ∧
      is (.arith 15) (if A = B then BitVec.allOnes 32 else 0) ∧ is (.arith 16) (if D = 0 then B else A) ∧ is (.arith 17) A ∧
      is (.bcast q) ((k.row o.a.toNat o.row.toNat).extractLsb' (32 * q) 32))

/-- On a row of a floating-point type every lane is the scalar operation of R97, R98 or R100 on the lanes, rounded under
the row operation's frm, a comparison all ones or zeros, the reciprocal family by its own steps, and the flags are those
of all lanes together; vabs, vneg and vsel keep or pass the value; i8, i16, i32 and i64 lanes wrap. vcvt reads or fills
the part that it names; vqnt quantises a row into a part under the scale word of the block and writes that word, vdq
reads a part under its scale words. A reduction of 16 f32 lanes is the tree of neighbours and vscan the doubling prefix,
each node rounded under frm (log 50); on i32 they are the sum, the least, the greatest and the prefix sums. vperm, vins,
vext and vbcast move whole lanes; vmov copies the row and, of a block type, its eight slots (also under GEO 0, log 140).
vneur advances each f32 neuron by one step and collects the spikes. (R289, R290, R291, R292, R293, R294, R295, R296,
R297, R298, R299, R301) -/
def Obligations.RowValues : Prop :=
  ∀ (o : RowOp) (k : Core),
    let R := k.rowResult o
    let ty := o.ty.toNat
    let w := tyBytes ty
    let n := 64 / w
    let F := fmtD ty
    let rowA := (k.row o.a.toNat o.row.toNat).toNat
    let rowB := (k.row o.b.toNat o.row.toNat).toNat
    let rowD := (k.row o.d.toNat o.row.toNat).toNat
    let A := elem rowA w
    let B := elem rowB w
    let D := elem rowD w
    let c := fun i => elem rowB 1 (i * w)
    let before := fun i => ((List.range i).filter fun j => c j != 0).length
    let key := o.d.toNat * 64 + o.row.toNat
    let all := fun (m : Nat) (g : Nat → Nat × Flags) => (List.range m).foldl (fun fl i => fl ||| (g i).2) (0 : Flags)
    let gives := fun (kind : RowKind) (g : Nat → Nat × Flags) => o.kind = kind →
      ∃ out, R.rows = [(key, out)] ∧ (∀ i, i < n → elem out.toNat w i = (g i).1 % 256 ^ w) ∧ R.flags = all n g ∧ R.side = [] ∧
        R.spk = none
    let mask := fun (r : Bool × Flags) => (if r.1 then 256 ^ w - 1 else 0, r.2)
    let addF := fun a b => F.add o.frm a b
    let up := fun (y : Nat → Nat) i => (addF (y (2 * i)) (y (2 * i + 1))).1
    let upFlags := fun (y : Nat → Nat) m => all m fun i => addF (y (2 * i)) (y (2 * i + 1))
    let move := fun (d : Nat) (z : Nat → Nat) i => if i < d then z i else (addF (z (i - d)) (z i)).1
    let S := fun x => signedOf w x
    ((fmtOf ty).isSome = true →
      gives (.arith 0) (fun i => addF (A i) (B i)) ∧ gives (.arith 1) (fun i => F.sub o.frm (A i) (B i)) ∧
      gives (.arith 2) (fun i => F.mul o.frm (A i) (B i)) ∧ gives .fma (fun i => F.fma o.frm (A i) (B i) (D i)) ∧
      gives (.arith 3) (fun i => (F.minMax false (A i) (B i), 0)) ∧ gives (.arith 4) (fun i => (F.minMax true (A i) (B i), 0)) ∧
      gives (.arith 5) (fun i => (F.kept (A i) % 2 ^ (8 * w - 1), 0)) ∧
      gives (.arith 6) (fun i => (F.kept (A i) ^^^ 2 ^ (8 * w - 1), 0)) ∧
      gives (.arith 13) (fun i => mask (F.cmp 0 (A i) (B i))) ∧ gives (.arith 14) (fun i => mask (F.cmp 1 (A i) (B i))) ∧
      gives (.arith 15) (fun i => mask (F.cmp 2 (A i) (B i))) ∧
      gives (.arith 16) (fun i => (F.passed (if D i = 0 then B i else A i), 0)) ∧
      gives (.special 0) (fun i => F.vrcp o.frm (A i)) ∧ gives (.special 1) (fun i => F.vrsq o.frm (A i)) ∧
      gives (.special 4) (fun i => F.vexp2 o.frm (A i)) ∧ gives (.special 5) (fun i => F.vlog2 o.frm (A i)) ∧
      ∀ half, gives (.refine half) (fun i => F.refine o.frm half (A i) (B i))) ∧
    (ty = 7 ∨ ty = 9 ∨ ty = 10 ∨ ty = 15 →
      gives (.arith 0) (fun i => (A i + B i, 0)) ∧ gives (.arith 2) (fun i => (A i * B i, 0)) ∧
      gives (.arith 5) (fun i => ((S (A i)).natAbs, 0)) ∧ gives (.arith 12) (fun i => ((S (A i) / 2 ^ (B i % (8 * w)) % 2 ^ (8 * w)).toNat, 0)) ∧
      gives (.arith 13) (fun i => mask (decide (S (A i) < S (B i)), 0))) ∧
    (∀ (dst : BitVec 4) (part : Nat), o.kind = .cvt dst part → 0 < w → 0 < tyBytes dst.toNat →
      let v := tyBytes dst.toNat
      let m := 64 / max w v
      part < max w v / min w v → ∃ out, R.rows = [(key, out)] ∧
        (∀ i, i < m → elem out.toNat v (if w ≤ v then i else part * m + i) =
          (tyConvert dst.toNat false o.frm (tyVal ty false (A (if v ≤ w then i else part * m + i)))).1 % 256 ^ v) ∧
        (v < w → ∀ i, i < 64 / v → (i < part * m ∨ part * m + m ≤ i) → elem out.toNat v i = elem rowD v i)) ∧
    (∀ part, o.kind = .qnt part → (o.tag = 0 ∧ part < 8 ∨ (o.tag = 3 ∨ o.tag = 4) ∧ part < 4) →
      let b := tyBytes o.tag.toNat
      let m := 64 / b
      let G := fmtD o.tag.toNat
      let x := fun i => G.val (elem rowA b i)
      let sw := ocpWord (ty - 11) G ((List.range m).map x)
      let slots := k.sideOf o.d.toNat o.row.toNat
      ∃ out side, R.rows = [(key, out)] ∧ R.side = [(key, side)] ∧
        (∀ i, i < m → nibble out.toNat (part * m + i) = (quantise o.frm sw (x i)).1) ∧
        (∀ i, i < 128 → (i < part * m ∨ part * m + m ≤ i) → nibble out.toNat i = nibble rowD i) ∧
        slotOf side part = sw ∧ (∀ j, j < 128 / m → j ≠ part → slotOf side j = slotOf slots j)) ∧
    (∀ part, gives (.dq part) (fun i =>
      F.convert o.frm (codeVal (slotOf (k.sideOf o.a.toNat o.row.toNat) ((part * n + i) / (if o.geo then 16 else 32)))
        (nibble rowA (part * n + i))))) ∧
    (ty = 0 →
      (o.kind = .red 0 → ∃ out, R.rows = [(key, out)] ∧ (∀ i, i < 16 → elem out.toNat 4 i = if i = 0 then up (up (up (up A))) 0 % 2 ^ 32 else 0) ∧
        R.flags = upFlags A 8 ||| upFlags (up A) 4 ||| upFlags (up (up A)) 2 ||| upFlags (up (up (up A))) 1) ∧
      (o.kind = .scan → ∃ out, R.rows = [(key, out)] ∧ elem out.toNat 4 0 = F.passed (A 0) % 2 ^ 32 ∧
        ∀ i, 0 < i → i < 16 → elem out.toNat 4 i = move 8 (move 4 (move 2 (move 1 A))) i % 2 ^ 32)) ∧
    (ty = 10 →
      gives (.red 0) (fun i => (if i = 0 then (List.range 16).foldl (fun a j => a + A j) 0 else 0, 0)) ∧
      gives .scan (fun i => ((List.range (i + 1)).foldl (fun a j => a + A j) 0, 0)) ∧
      (o.kind = .red 1 → ∃ m, m < 16 ∧ (∀ j, j < 16 → S (A m) ≤ S (A j)) ∧ gives (.red 1) (fun i => (if i = 0 then A m else 0, 0))) ∧
      (o.kind = .red 2 → ∃ m, m < 16 ∧ (∀ j, j < 16 → S (A j) ≤ S (A m)) ∧ gives (.red 2) (fun i => (if i = 0 then A m else 0, 0)))) ∧
    gives .perm (fun i => (if c i < n then A (c i) else 0, 0)) ∧
    gives .ins (fun i => (if c i = 0 then D i else A (before i), 0)) ∧
    (o.kind = .ext → ∃ out, R.rows = [(key, out)] ∧ R.flags = 0 ∧
      ∀ i, i < n → (c i ≠ 0 → elem out.toNat w (before i) = A i) ∧ (before n ≤ i → elem out.toNat w i = 0)) ∧
    (∀ j, gives (.bcast j) (fun _ => (A j, 0))) ∧
    (o.kind = .arith 17 → R.rows = [(key, k.row o.a.toNat o.row.toNat)] ∧ R.flags = 0 ∧
      R.side = if 11 ≤ ty ∧ ty ≤ 14 then [(key, k.sideOf o.a.toNat o.row.toNat)] else []) ∧
    (ty = 0 → o.kind = .neur →
      let reset := (F.convert o.frm (F.val (o.np1.fld 31 0))).1
      let floor := (F.convert o.frm (F.val (o.np2.fld 31 0))).1
      let thresh := F.val (o.np0.fld 63 32)
      ∃ out left m, R.rows = [(key, out), (o.b.toNat * 64 + o.row.toNat, left)] ∧ R.spk = some m ∧ ∀ i, i < 16 →
        let u := F.minMax true (F.fma o.frm (D i) (o.np0.fld 31 0) (A i)).1 floor
        let fires := thresh.isNan = false ∧ (F.val u).isNan = false ∧ (F.val u).lt thresh = false
        (0 < B i → elem out.toNat 4 i = reset % 2 ^ 32 ∧ elem left.toNat 4 i = B i - 1 ∧ m.getLsbD i = false) ∧
        (B i = 0 → fires → elem out.toNat 4 i = reset % 2 ^ 32 ∧ elem left.toNat 4 i = o.np1.fld 39 32 ∧ m.getLsbD i = true) ∧
        (B i = 0 → ¬fires → elem out.toNat 4 i = u % 2 ^ 32 ∧ elem left.toNat 4 i = 0 ∧ m.getLsbD i = false))

/-- Each checks its address for bits [63:48] and for 64-byte alignment, then plans every row (translation, format, scale
groups) before any row moves; the first check that fails traps. Unless it must wait, a load sends one request for each
row with the tile and row as its destination, and one for each scale group, and a store one for each row with the row's
bytes, at once or held by an earlier fence.rel; a store of a row, or of a scale word of it, in error traps POISON. No
register, no byte of memory and no other core changes. (R135, R136, R137, R138, R139, R285, R303) -/
def Obligations.TileWords : Prop :=
  ∀ (w whole : Bool) (t : BitVec 3) (r a : BitVec 5) (h : BitVec 1) (o : BitVec 10) (p : BitVec 11) (i j : Instr) (ea : Word)
    (rows : List (BitVec 6)) (s : State),
    (i = .tldr w t r a h o ∧ j = .tstr w t r a h o ∧ whole = false ∧ rows = [h ++ r] ∧
        ea = s.me.get a + BitVec.ofInt 64 (64 * o.toInt) ∨
      i = .tld w t a p ∧ j = .tst w t a p ∧ whole = true ∧ rows = (List.range 64).map (BitVec.ofNat 6) ∧
        ea = s.me.get a + BitVec.ofInt 64 (64 * p.toInt)) →
    let mine := fun (key : Nat) => rows.any fun r => rowKey t r = key
    let frame := fun (u v : State) => v.me.pc = u.me.pc + 4 ∧ v.me.regs = u.me.regs ∧ v.mem = u.mem ∧
      ∀ c, c ≠ u.cur → v.core c = u.core c
    (Issues i s →
      let P := s.planTile t ea rows whole false
      let n := if whole then 16 else 1
      let leaves := fun (v : State) (id : Nat) (m : MReq) => m.core = P.s.cur ∧ m.stage = 1 ∧
        (P.s.cur < 2304 → ∃ f ∈ (v.cluster (P.s.cur / 4)).inject, f.fk = 0 ∧ f.req = some id)
      (2 ^ 48 ≤ ea.toNat → exec i s = .next (s.trapWith { code := 4, pc := 0, tval := ea, why := 6 })) ∧
      (ea.toNat < 2 ^ 48 → ea.toNat % 64 ≠ 0 → exec i s = .next (s.trapWith { code := 3, pc := 0, tval := ea })) ∧
      (ea.toNat < 2 ^ 48 → ea.toNat % 64 = 0 →
        (∀ T, P.bad = some T → exec i s = .next (P.s.trapWith T)) ∧
        (P.bad = none → P.s.me.tileHeld t = false → P.s.me.touches mine = false → P.s.rowsWait P.rows n 0 = false →
          ∃ v, exec i s = .next v ∧ frame P.s v ∧ v.me.outs.has P.s.me.seq = true ∧
            v.me.desc = (P.s.me.setTile t { geo := P.geo, tag := P.tag }).desc ∧
            ∀ q ∈ P.rows, (∃ id m, v.reqs.find id = some m ∧ m.kind = .rowLoad ∧ m.pa = q.pa ∧ m.bytes = 64 ∧
              m.dest = .row t q.row ∧ m.groups = q.groups ∧ leaves v id m) ∧
              ∀ g ∈ q.groups, ∃ id m, v.reqs.find id = some m ∧ m.kind = .group ∧ m.pa = g.pa ∧ m.bytes = 8 ∧ leaves v id m))) ∧
    (Issues j s →
      let P := s.planTile t ea rows whole true
      let n := if whole then 32 else 1
      let k := P.s.me
      let inError := fun r => k.rowBad (rowKey t r) ||
        P.rows.any fun q => q.row = r && q.groups.any fun g => k.badSide.contains (rowKey t r * 8 + g.j)
      (2 ^ 48 ≤ ea.toNat → exec j s = .next (s.trapWith { code := 4, pc := 0, tval := ea, why := 6 })) ∧
      (ea.toNat < 2 ^ 48 → ea.toNat % 64 ≠ 0 → exec j s = .next (s.trapWith { code := 3, pc := 0, tval := ea })) ∧
      (ea.toNat < 2 ^ 48 → ea.toNat % 64 = 0 →
        (∀ T, P.bad = some T → exec j s = .next (P.s.trapWith T)) ∧
        (P.bad = none → k.willWrite mine = false → (∀ r ∈ rows, P.s.loading P.s.cur (rowKey t r) = false) →
          (∀ r, rows.find? inError = some r →
            exec j s = .next (P.s.trapWith { code := 6, pc := 0, tval := ea, row := r })) ∧
          ((∀ r ∈ rows, inError r = false) → P.s.rowsWait P.rows 0 n = false →
            ∃ v, exec j s = .next v ∧ frame P.s v ∧ v.me.stores.has k.seq = true ∧
              ∀ q ∈ P.rows, ∃ id m, v.reqs.find id = some m ∧ m.kind = .rowStore ∧ m.pa = q.pa ∧ m.bytes = 64 ∧
                m.row = k.row t.toNat q.row.toNat ∧ m.core = P.s.cur ∧
                m.stage = (if k.mayLeave k.relFence maskC k.relAll then 1 else 0)))))

/-- mva of a tile with the tag of its type takes the accumulator (the pair for f64) for the core and writes columns of
it from the tile's rows, converted exactly; amv writes the rows of the tile from columns of the accumulator, converted
under frm, ORs the flags of all these conversions into fflags, and retags the tile; both trap ACCBUSY while another core
owns the accumulator, a marker is pending or a pushed command names it, amv even while a command reads the tile, for
which it stalls otherwise. mrls gives up the lease. Memory and the other cores do not change. That rows and accumulator
are written in the step of the word (log 62), and when REL stands in the value of ACCBUSY (log 70), are the model's
choices. (R308, R310, R311, R320, R329, R332, R333, R334, R335) -/
def Obligations.AccumulatorWords : Prop :=
  ∀ (w : Bool) (c t p : BitVec 3) (y : BitVec 4) (tv : Word) (s : State),
    let k := s.me
    let cl := s.cur / 4
    let v := s.cluster cl
    let a := c.toNat
    let n := 64 / tyBytes y.toNat
    let quiet := ∀ r, s.loading s.cur (rowKey t r) = false
    let sound := k.softRows = [] ∧ v.softAcc = [] ∧ v.badAcc = []
    (Issues (.mva w c t p y) s →
      ((k.tile t).tag ≠ y → exec (.mva w c t p y) s =
        .next (s.trap 8 (BitVec.ofNat 64 (t.toNat * 256 + (k.tile t).tag.toNat * 16 + y.toNat)))) ∧
      ((k.tile t).tag = y → k.willWrite (fun key => key / 64 = t.toNat) = false → quiet →
        (s.accBusy a (v.concerned a (y = 1)) = some tv → exec (.mva w c t p y) s = .next (s.trap 7 tv)) ∧
        (∀ r, s.accBusy a (v.concerned a (y = 1)) = none → (allRows.find? fun r => k.rowBad (rowKey t r)) = some r →
          exec (.mva w c t p y) s = .next (s.trapWith { code := 6, pc := 0, tval := 0, row := r })) ∧
        (s.accBusy a (v.concerned a (y = 1)) = none → (∀ r, k.rowBad (rowKey t r) = false) → sound →
          let pair := y = 1
          let into := if y = 1 then 1 else if 7 ≤ y.toNat ∧ y.toNat ≤ 10 then 10 else 0
          exec (.mva w c t p y) s = .next ((s.modCluster cl fun v =>
            (List.range 64).foldl (fun q i =>
              let old := q.accRow a pair i
              let new := (elems (k.row t.toNat i).toNat (tyBytes y.toNat) n).map fun x =>
                (tyConvert into false 0 (tyVal y.toNat false x)).1
              q.setAccRow a pair i (old.take (p.toNat * n) ++ new ++ old.drop (p.toNat * n + n)))
              (v.ownAcc (s.cur % 4) a (atyOf y.toNat) false false)).advance)))) ∧
    (Issues (.amv w t c p y) s →
      let d := v.accDesc a
      ((d.v = true ∧ d.aty = 3) → exec (.amv w t c p y) s = .next (s.trap 8 (BitVec.ofNat 64 (a * 256 + 16)))) ∧
      (¬(d.v = true ∧ d.aty = 3) → k.touches (fun key => key / 64 = t.toNat) = false → quiet →
        (s.accBusy a (v.concerned a false) = some tv → exec (.amv w t c p y) s = .next (s.trap 7 tv)) ∧
        (s.accBusy a (v.concerned a false) = none → k.tileHeld t = true → exec (.amv w t c p y) s = .next s.stall) ∧
        (s.accBusy a (v.concerned a false) = none → k.tileHeld t = false → sound →
          let pair := d.v && d.aty = 2
          let src := if d.v then atyType d.aty.toNat else 0
          let out := fun (i : Nat) =>
            (((v.accRow a pair i).drop (p.toNat * n)).take n).map fun x => tyConvert y.toNat false k.frm (tyVal src false x)
          ∃ u, exec (.amv w t c p y) s = .next u ∧ OnlyCore s.cur s u ∧ u.me.pc = k.pc + 4 ∧ u.me.regs = k.regs ∧
            u.me.tile t = { k.tile t with tag := y } ∧
            (∀ i, i < 64 → u.me.row t.toNat i = rowOfElems (tyBytes y.toNat) ((out i).map Prod.fst)) ∧
            u.me.fflags = k.fflags ||| ((List.range 64).flatMap out).foldl (fun f x => f ||| x.2) 0 ∧
            ∀ q i, q ≠ t.toNat → i < 64 → u.me.row q i = k.row q i))) ∧
    (Issues (.mrls w) s → ∃ u, exec (.mrls w) s = .next u ∧ u.mem = s.mem ∧ u.me = { k with pc := k.pc + 4 } ∧
      (∀ j, j ≠ s.cur → u.core j = s.core j) ∧ (u.cluster cl).lease ≠ some (s.cur % 4))

/-- push puts the four words s[a] to s[a+3] at the tail of its queue with the serial, ctrbase, mode, context and issuer
of the moment, held until its release condition; a full queue traps QFULL with the queue number. pushm reserves its
entries and reads their words, by one request of 32 bytes at each piece's address. pop gives EMPTY when no element and
no command of the task is there, is outstanding while a command is queued or runs (also one more than those can answer,
log 63), and else takes the oldest element; qstat gives the status word. A queue is full by its commands that have not
started (log 64), which qstat counts as used, and PRIOR counts those that have started too (log 154). An acquire of the
queue's class holds both words at issue. A push enters its queue once its words are known and everything earlier is
done. (R40, R44, R130, R312, R314, R315, R316, R317, R318) -/
def Obligations.QueueWords : Prop :=
  ∀ (w : Bool) (q : BitVec 2) (a : BitVec 5) (n : BitVec 3) (m : BitVec 14) (c seq : Nat) (v : Word) (rest : List Word)
    (l : List Nat) (h : HeldEntry) (s u : State),
    let k := s.me
    let Q := k.queue q.toNat
    let depth := if q = 2 then 8 else 16
    let entry := fun (k : Core) (i : Nat) =>
      ({ ser := (k.queue q.toNat).serial + BitVec.ofNat 16 i, ctrb := k.ctrbase, mode := k.mode, ctx := k.ctx, epoch := k.epoch
         issuer := k.issuer, tick := tick k.now, seq := k.seq } : QEntry)
    let held := fun (k' : Core) (k : Core) => k'.held.find k.seq = some {
        what := .push q, bound := k.seq, mask := if q = 0 then 4 else if q = 1 then 2 else 1, fence := k.relAll } ∧
      k'.seq = k.seq + 1 ∧ k'.pc = k.pc + 4 ∧ k'.regs = k.regs
    (Issues (.push w q a) s → k.acqHoldsPush q = true → exec (.push w q a) s = .next s.stall) ∧
    (Issues (.push w q a) s → k.acqHoldsPush q = false →
      (depth ≤ Q.used → exec (.push w q a) s = .next (s.trap 12 (q.setWidth 64))) ∧
      (Q.used < depth → q ≠ 3 → ∃ t, exec (.push w q a) s = .next t ∧ OnlyCore s.cur { s with agenda := t.agenda } t ∧
        held t.me k ∧ t.me.queue q.toNat = { Q with
          serial := Q.serial + 1
          entries := Q.entries ++ [{ entry k 0 with
            cw := k.getN (a.toNat + 3) ++ k.getN (a.toNat + 2) ++ k.getN (a.toNat + 1) ++ k.get a }] })) ∧
    (Issues (.pushm w q a n m) s → q ≠ 3 →
      let ea := k.get a + BitVec.ofInt 64 (32 * m.toInt)
      let cnt := n.toNat + 1
      (2 ^ 48 ≤ ea.toNat → exec (.pushm w q a n m) s = .next (s.trapWith { code := 4, pc := 0, tval := ea, why := 6 })) ∧
      (ea.toNat < 2 ^ 48 → ea.toNat % 32 ≠ 0 → exec (.pushm w q a n m) s = .next (s.trapWith { code := 3, pc := 0, tval := ea })) ∧
      (ea.toNat < 2 ^ 48 → ea.toNat % 32 = 0 → k.acqHoldsPush q = true → exec (.pushm w q a n m) s = .next s.stall) ∧
      (ea.toNat < 2 ^ 48 → ea.toNat % 32 = 0 → k.acqHoldsPush q = false → depth < Q.used + cnt →
        exec (.pushm w q a n m) s = .next (s.trap 12 (q.setWidth 64))) ∧
      (ea.toNat < 2 ^ 48 → ea.toNat % 32 = 0 → k.acqHoldsPush q = false → Q.used + cnt ≤ depth → s.pieces ea (List.range cnt) = (.ok l, u) →
        (∀ p ∈ l, u.mustWait p 32 cnt 0 = false) → ∃ t, exec (.pushm w q a n m) s = .next t ∧ held t.me u.me ∧
        t.mem = u.mem ∧ (∀ j, j ≠ u.cur → t.core j = u.core j) ∧ t.me.outs.has u.me.seq = true ∧
        (t.me.queue q.toNat).entries = (u.me.queue q.toNat).entries ++
          (List.range cnt).map (fun i => { entry u.me i with known := false, multi := true }) ∧
        ∀ i p, l[i]? = some p → ∃ id r, t.reqs.find id = some r ∧ r.core = u.cur ∧ r.seq = u.me.seq ∧ r.kind = .cmd q ∧
          r.pa = p ∧ r.bytes = 32 ∧ r.stage = 1 ∧ r.badAt = ea ∧
          r.data2 = ((u.me.queue q.toNat).serial + BitVec.ofNat 16 i).setWidth 64)) ∧
    (Issues (.pop w q a) s → q ≠ 3 →
      (Q.fifo = [] → (∀ e ∈ Q.entries, e.marker = true ∨ e.epoch ≠ k.epoch) →
        ∃ t, exec (.pop w q a) s = .next t ∧ Writes s t a 0xFF00000000000000) ∧
      (Q.fifo = [] → (∃ e ∈ Q.entries, e.marker = false ∧ e.epoch = k.epoch) →
        ∃ t, exec (.pop w q a) s = .next t ∧ OnlyCore s.cur s t ∧ (t.me.queue q.toNat).pops = Q.pops ++ [k.seq] ∧
          t.me.outs.find k.seq = some { iaddr := k.pc, dest := .reg a 8 false } ∧ t.me.pc = k.pc + 4 ∧ t.me.regs = k.regs) ∧
      (Q.fifo = v :: rest → ∃ t, exec (.pop w q a) s = .next t ∧ t.mem = s.mem ∧
        (∀ j, j ≠ s.cur → t.core j = s.core j) ∧ (t.me.queue q.toNat).fifo = rest ∧ t.me.pc = k.pc + 4 ∧ t.me.regs = k.regs ∧
        t.me.outs.find k.seq = some { iaddr := k.pc, dest := .reg a 8 false } ∧
        ∃ id r, t.reqs.find id = some r ∧ r.core = s.cur ∧ r.seq = k.seq ∧ r.kind = .load ∧ r.stage = 2 ∧ r.data = v ∧
          r.status = 0 ∧ r.dest = .reg a 8 false ∧ ∃ at_, (at_, Event.loadResponse id) ∈ t.agenda)) ∧
    Gives (.qstat w q a) s a (s.qstatOf s.cur q.toNat) ∧
    (let k := s.core c
     let Q := k.queue q.toNat
     k.held.find seq = some h → h.what = .push q → h.free k = true → (∀ o ∈ k.rowQ, h.bound ≤ o.seq) →
      (∀ r ∈ k.rowRun, h.bound ≤ r.op.seq) → (∀ e ∈ Q.entries, e.marker = false → e.seq = seq → e.known = true) →
      let v : State := [0, 1, 2].foldl (fun s i => s.advanceQueue c i) (s.setCore c {
        k.setQueue q.toNat { Q with
          entries := Q.entries.map fun e => if !e.marker && e.seq = seq then { e with entered := true } else e } with
        held := k.held.erase seq })
      exec (.pushEntersQueue c seq) s =
        .next (if (v.cluster (c / 4)).lease = some (c % 4) then v.post (.leaseGrant (c / 4)) else v))

/-- At the head of its queue, with legal operands: mma and mmz make the product of their operand rows in the accumulator
they then own, with the flags and the overflow in their element, at the interval and latency of the class; acrd and mtr
write rows of scratchpad at completion, acwr writes the accumulator; bfill, badd, baxpy and bred make their elements,
the sums rounded once each, in the order of R275, and note the lines they read and those they write at completion. An
illegal type ends a command with ILLEGAL. That all elements are taken in one step is the model's choice (log 16), and
what the array reads in scratchpad may miss a store that is not yet performed for class M (log 45). (R274, R275, R307,
R310, R323, R324, R325, R328, R329, R330) -/
def Obligations.MatrixAndBulkCommands : Prop :=
  ∀ (c cn : Nat) (cw : BitVec 256) (e : QEntry) (d d2 : SpadDesc) (xs ys : List BulkLine) (s u v : State),
    let k := s.core c
    let cl := c / 4
    let C := s.cluster cl
    let f0 := fun (hi lo : Nat) => cwFld cw 0 hi lo
    let a := f0 31 30
    let rows := if cwMask cw then f0 63 58 + 1 else 64
    let cols := if cwMask cw then f0 57 52 + 1 else 64
    let far := fun (ls : List (Nat × Nat × Nat)) => ∃ p ∈ ls, spadSize < p.2.2 + 64
    let seen := (s.engineView maskM).1
    let at_ := (s.engineView maskM).2
    let feed := fun (ls : List (Nat × Nat × Nat)) => feedTime (ls.map fun p => p.2.2)
    (AtHead s c 0 cw e → s.soft = [] → C.softAcc = [] → k.softRows = [] → k.softSide = [] →
      (∀ zero, (zero = false ∨ zero = true) → classNumber (f0 39 36) = some cn → classNumber (f0 35 32) = some cn →
        f0 29 28 = 0 → cwChk cw = false → cwMask cw = false →
        let A := arrayClass cn
        let ta := k.tileOperand (BitVec.ofNat 3 (f0 27 25)) (f0 39 36) 64 A.kmax
        let tb := k.tileOperand (BitVec.ofNat 3 (f0 24 22)) (f0 35 32) 64 A.kmax
        let pair := A.aty = 2
        tagServes (k.tile (BitVec.ofNat 3 (f0 27 25))).tag (f0 39 36) = true →
        tagServes (k.tile (BitVec.ofNat 3 (f0 24 22))).tag (f0 35 32) = true →
        ta.bad = false → tb.bad = false → (pair → a % 2 = 0) → C.badAcc = [] →
        (∀ x ∈ accNames a A.aty, (C.accDesc x).v = true → (C.accDesc x).ocore = c % 4 ∧
          (C.accDesc x).aty.toNat = (if A.aty = 2 then 2 + (x - a) else A.aty)) →
        let own := C.ownAcc (c % 4) a A.aty zero (s.markerPending c)
        let r := own.product a A.aty A.g ta.rows tb.rows 64
        let new := r.1.foldl (fun q p => q.setAccRow a pair p.1 p.2) own
        let new := if r.2.2.1 then new.setDesc a { new.accDesc a with ovf := true } else new
        exec (if zero then .mmz c cw else .mma c cw) s = .next ((at_.setCluster cl { new with sumUpset := C.sumUpset }).arrayStart c
          A.interval A.latency fun x => { x with
            elem := elemOf 0 x.ser 0 ((if (new.accDesc a).ovf then 2 ^ 53 else 0) + r.2.1.toNat * 2 ^ 32) })) ∧
      (classNumber (f0 39 36) = none → exec (.mma c cw) s = .next (s.arrayError c 1 2) ∧
        exec (.mmz c cw) s = .next (s.arrayError c 1 2)) ∧
      (spadDesc (cwWord cw 1) false = some d → cwChk cw = false → f0 39 36 ≤ 10 → cols * tyBytes (f0 39 36) ≤ 64 * d.rpitch → C.badAcc = [] →
        let ty := f0 39 36
        let bytes := cols * tyBytes ty
        let ls := d.linesOf rows bytes
        ¬far ls →
        (C.otherOwner (c % 4) (C.concerned a false) = false → (C.accDesc a).v = true → (C.accDesc a).aty ≠ 3 →
          let pair := (C.accDesc a).aty = 2
          let out := (List.range rows).map fun i => gather (((C.accRow a pair i).take cols).map fun x =>
            tyConvert ty false (BitVec.ofNat 3 (f0 34 32)) (tyVal (atyType (C.accDesc a).aty.toNat) false x))
          exec (.acrd c cw) s = .next (s.arrayStart c (feed ls) (feed ls + 12) fun x => { x with
            writes := ((List.range rows).zip out).flatMap fun p => d.rowWrites cl p.1 bytes (packElems (tyBytes ty) p.2.1)
            elem := elemOf 0 x.ser 0 ((if (C.accDesc a).ovf then 2 ^ 53 else 0) +
              (out.foldl (fun f r => f ||| r.2) (0 : Flags)).toNat * 2 ^ 32) })) ∧
        (C.otherOwner (c % 4) (C.concerned a (atyOf ty = 2)) = false → (atyOf ty = 2 → a % 2 = 0) → s.linesBad cl bytes ls = false →
          let pair := atyOf ty = 2
          let new := (List.range rows).foldl (fun q i =>
            q.setAccRow a pair i (((List.range cols).map fun j =>
              (tyConvert (atyType (atyOf ty)) false 0 (tyVal ty false (elem (seen.spadRow cl d i bytes) (tyBytes ty) j))).1) ++
              (q.accRow a pair i).drop cols)) (C.ownAcc (c % 4) a (atyOf ty) false (s.markerPending c))
          exec (.acwr c cw) s = .next ((at_.setCluster cl new).arrayStart c (feed ls) (feed ls + 12) fun x => { x with
            elem := elemOf 0 x.ser 0 (if (new.accDesc a).ovf then 2 ^ 53 else 0) }))) ∧
      (spadDesc (cwWord cw 1) false = some d → spadDesc (cwWord cw 2) false = some d2 → cwChk cw = false → f0 39 36 ≤ 10 → cwMask cw = true →
        let w := tyBytes (f0 39 36)
        let sl := d.linesOf rows (cols * w)
        let dl := d2.linesOf cols (rows * w)
        rows * w ≤ 64 → (cols * w + 63) / 64 ≤ d.rpitch → d.tpitch = 0 → d2.tpitch = 0 → ¬far (sl ++ dl) →
        s.linesBad cl (cols * w) sl = false →
        let src := (List.range rows).map fun i => seen.spadRow cl d i (cols * w)
        exec (.mtr c cw) s = .next (at_.arrayStart c (feed (sl ++ dl)) (feed (sl ++ dl) + 12) fun x => { x with
          writes := (List.range cols).flatMap fun j => d2.rowWrites cl j (rows * w) (packElems w (src.map fun r => elem r w j))
          elem := elemOf 0 x.ser 0 0 }))) ∧
    (AtHead s c 2 cw e → s.bulkFree c = true →
      let ty := f0 19 16
      let w := tyBytes ty
      let n := f0 44 20
      let dst := cwFld cw 1 47 0
      let src := cwFld cw 2 47 0
      let still := fun (s : State) => s.slwinNew = [] ∧ s.soft = []
      (bulkFillTy ty = false → exec (.bfill c cw) s = .next (s.bulkError c 1)) ∧
      (bulkAddTy ty = false → exec (.badd c cw) s = .next (s.bulkError c 1) ∧ exec (.bred c cw) s = .next (s.bulkError c 1)) ∧
      (bulkAxpyTy ty = false → exec (.baxpy c cw) s = .next (s.bulkError c 1)) ∧ (dst % w = 0 →
      (bulkFillTy ty = true → s.bulkXlate e cl true (linesFrom w dst n) = ((ys, none, false), u) → still u →
        let out := gather (((List.replicate n 0).zip (List.replicate n 0)).map fun _ => ((cwWord cw 2).toNat % 256 ^ w, (0 : Flags)))
        exec (.bfill c cw) s = .next (u.bulkRun c n ys.length none out.2 [] (bulkWrites w ys out.1 n))) ∧
      (src % w = 0 → (src = dst ∨ dst + n * w ≤ src ∨ src + n * w ≤ dst) →
        s.bulkXlate e cl false (linesFrom w src n) = ((xs, none, false), u) →
        u.bulkXlate e cl true (linesFrom w dst n) = ((ys, none, false), v) → still v →
        v.bulkPoison xs = none → v.bulkPoison ys = none →
        let sum := fun (op : Nat → Nat → Nat × Flags) =>
          gather ((((v.bulkRead w xs).take n).zip ((v.bulkRead w ys).take n)).map fun p => op p.1 p.2)
        let add := sum fun x y => bulkAdd ty y x
        let axpy := sum fun x y => bulkAxpy ty (cwFld cw 1 63 48 * 65536 + cwFld cw 2 63 48) x y
        (bulkAddTy ty = true → exec (.badd c cw) s = .next (v.bulkRun c n ys.length none add.2 (bulkReads (xs ++ ys)) (bulkWrites w ys add.1 n))) ∧
        (bulkAxpyTy ty = true → exec (.baxpy c cw) s =
          .next (v.bulkRun c n ys.length none axpy.2 (bulkReads (xs ++ ys)) (bulkWrites w ys axpy.1 n)))) ∧
      (bulkAddTy ty = true → src % w = 0 → s.bulkXlate e cl false (linesFrom w src n) = ((xs, none, false), u) →
        u.bulkXlate e cl true (linesFrom w dst 1) = ((ys, none, false), v) → still v → v.bulkPoison xs = none →
        let parts := xs.map fun l => sumLeft ty (elems (v.readMem l.2.1 l.2.2) w (l.2.2 / w))
        let tot := sumLeft ty (parts.map Prod.fst)
        exec (.bred c cw) s = .next (v.bulkRun c n xs.length none (parts.foldl (fun f p => f ||| p.2) tot.2) (bulkReads xs)
          (bulkWrites w ys [tot.1] 1)))))

/-- At the head of its qw, with a free slot and records that fit, a walker command whose rows are found without a fault
starts with its writes: wload and wgather send the rows, PAD outside the bounds, as transfers of no group to the
scratchpad of PORT, and requests for what they read (R163); wstore and wscatter put rows of the scratchpad into memory;
wfill writes PAD in bounds; wmcast and wdeal send each row to its destinations as transfers; wstq starts its scaling
exchange; signal completes at once. A record that cannot be read ends the command with its code, a malformed one with
ILLEGAL. That a command reads all its rows in the step that starts it is the model's choice (log 16; it may miss stores
not yet performed for the walkers' class W, log 45; the requests follow, log 35), as are the poisoned rows that a
multicast leaves out of account (log 76) and the time of the exchange (log 79). (R339, R340, R345, R346, R348, R350,
R353, R354, R355, R356) -/
def Obligations.WalkerCommands : Prop :=
  ∀ (c code : Nat) (cw : BitVec 256) (e : QEntry) (r gr : Row) (gq : Except Nat Row) (l : Layout) (d : SpadDesc) (g : Group)
    (rows : List RowIo) (geos : List RowGeo) (sra : Nat) (dr : Option Nat) (s u v x y : State),
    AtHead s c 1 cw e → s.slotFree c = true →
    let cl := portCluster c cw
    let plain := (List.range l.trows).map fun (i : Nat) => (tileAt cw l true).row i false
    let num := (List.range rows.length).zip rows
    let used := fun (p : Nat × RowIo) => decide (p.2.g.jlo < p.2.g.jhi)
    let still := fun (s : State) => s.soft = []
    let seen := (v.engineView maskW).1
    let at_ := (v.engineView maskW).2
    let rd := rows.flatMap RowIo.reads
    let sent := fun (s t : State) (ts : List Mcast) => ts.foldl (fun s m => s.sendTransfer { m with uid := t.nextId }) s
    let rowsIn := num.flatMap fun p =>
      (transfers c e d l noGroup p.1 0 (cl / 4, cl % 4) p.1 (seen.rowIn l p.2)).map fun m => { m with grouped := false }
    let loaded := sent (at_.startEntry c 1 0 fun y => { y with
      openWork := rowsIn.length
      reads := y.reads ++ rd
      sigPa := if (rows.map at_.segBad).any id then none else y.sigPa
      elem := match lowestTrue (rows.map at_.segBad) with
        | some i => elemOf 1 y.ser 6 i
        | none => elemOf 1 y.ser 0 rows.length }) at_ rowsIn
    let out := num.map fun p => (p, seen.rowOut cl d l p.2.g p.1)
    let stored := at_.walkerStart c (out.map fun o => used o.1 && o.2.2.2) (num.filter used).length 0
      ((num.filter used).flatMap fun p => outReads cl d l p.2.g p.1)
      (out.flatMap fun o => l.outWrites o.1.2 (if o.2.2.2 then 0 else o.2.1))
      (out.flatMap fun o => o.1.2.slots fun b => if o.2.2.2 then 0 else (o.2.2.1[b]?).getD 0)
    let side := walkerDesc cw = some d
    let ends := fun (i : Instr) (s' : State) (code : Nat) => exec i s = .next (s'.walkerError c code)
    (s.readRecord c e (cwFld cw 0 46 31) = (.error code, u) →
      ends (.wfill c cw) u code ∧
      (side → ends (.wload c cw) u code ∧ ends (.wstore c cw) u code ∧ ends (.wgather c cw) u code ∧
        ends (.wscatter c cw) u code ∧ (stqType (cwFld cw 2 40 37) = true → ends (.wstq c cw) u code) ∧
        (u.readRecord c e (cwFld cw 2 36 21) = (gq, x) → cwFld cw 2 36 21 ≠ 0xFFFF →
          (∀ y, gq = .ok y → (groupOf y (c / 16)).isSome = true) →
          ends (.wmcast c cw) x code ∧ (cwFld cw 0 63 51 < 4096 → ends (.wdeal c cw) x code)))) ∧
    (s.readRecord c e (cwFld cw 0 46 31) = (.ok r, u) → layoutOf r = none →
      ends (.wfill c cw) u 1 ∧ ends (.wload c cw) u 1 ∧ ends (.wstore c cw) u 1 ∧ ends (.wgather c cw) u 1 ∧
      ends (.wscatter c cw) u 1 ∧ ends (.wstq c cw) u 1 ∧ (u.readRecord c e (cwFld cw 2 36 21) = (gq, x) →
        ends (.wmcast c cw) x 1 ∧ ends (.wdeal c cw) x 1)) ∧
    (s.readRecord c e (cwFld cw 0 46 31) = (.ok r, u) → layoutOf r = some l →
      (side → l.fits cw true = true → rowsFault l rows = none → still v →
        (d.beyond l (List.range rows.length) = false →
          (u.walkerRows c e l .load plain = (.ok rows, v) → exec (.wload c cw) s = .next loaded) ∧
          (u.indexRows c cw l = (.ok geos, y) → y.walkerRows c e l .load geos = (.ok rows, v) → exec (.wgather c cw) s = .next loaded)) ∧
        (d.beyond l ((num.filter used).map Prod.fst) = false →
          (u.walkerRows c e l .store plain = (.ok rows, v) → exec (.wstore c cw) s = .next stored) ∧
          (u.indexRows c cw l = (.ok geos, y) → y.walkerRows c e l .store geos = (.ok rows, v) →
            exec (.wscatter c cw) s = .next stored))) ∧
      (l.fits cw false = true → u.walkerRows c e l .store plain = (.ok rows, v) → rowsFault l rows = none →
        exec (.wfill c cw) s = .next (v.walkerStart c (rows.map fun _ => false)
          (rows.filter fun r => r.g.jlo < r.g.jhi).length 0 []
          (rows.flatMap fun io => l.outWrites io (packBits l.bits (List.replicate l.tcols l.padElem)))
          (rows.flatMap fun io => io.slots fun _ => l.padScale))) ∧
      (side → l.fits cw true = true → u.readRecord c e (cwFld cw 2 36 21) = (.ok gr, x) → groupOf gr (c / 16) = some g →
        let deal := (List.range (cwFld cw 0 63 51 + 1)).map fun (i : Nat) => (tileAt cw l false).row i false
        let n := max g.dests.length 1
        let toAll := fun (i : Nat) => (List.range g.dests.length).map fun at_ => (at_, i)
        let toOne := fun (i : Nat) => [((i / g.blk + g.phase) % n, i / g.blk / n * g.blk + i % g.blk)]
        let sends := fun (i : Instr) (rowsAt : List RowGeo) (plan : Nat → List (Nat × Nat)) (t : State) =>
          let slots := (List.range rows.length).flatMap fun i => (plan i).map Prod.snd
          x.walkerRows c e l .load rowsAt = (.ok rows, v) →
          (∀ y ∈ g.dests, (v.ctx e.ctx).hasCompute y.1 = true) → d.beyond l slots = false →
          v.cmdCounter c e g.drh = (.ok dr, t) → rowsFault l rows = none → still t → (∀ io ∈ rows, t.segBad io = false) →
          let ts := num.flatMap fun p => (plan p.1).flatMap fun q =>
            transfers c e d l g p.1 q.1 (g.dests.getD q.1 (0, 0)) q.2 ((t.engineView maskW).1.rowIn l p.2)
          exec i s = .next (sent ((t.engineView maskW).2.startEntry c 1 0 fun y => { y with
            openWork := ts.length, reads := y.reads ++ rd, rows := slots.length, dropped := [], drain := dr, elem := elemOf 1 y.ser 0 0 })
            (t.engineView maskW).2 ts)
        ∀ t, sends (.wmcast c cw) plain toAll t ∧ (cwFld cw 0 63 51 < 4096 → sends (.wdeal c cw) deal toOne t)) ∧
      (side → l.fits cw true = true → stqLegal cw (some l) = true → u.stqPlan c cw e l = (.ok (d, rows, sra), v) →
        let begun := v.startEntry c 1 0 fun y => { y with openWork := 1, layout := r }
        (e.xd = none → exec (.wstq c cw) s = .next (begun.postIn 60 (.scalingExchange c e.ser))) ∧
        ∀ sw, e.xd = some sw → exec (.wstq c cw) s = .next (begun.stqFinish c cw e l d rows sw))) ∧
    ((∀ q ∈ (s.core c).qw.entries, q.stage ≠ .running) →
      exec (.signal c cw) s = .next (s.startEntry c 1 0 fun y => { y with elem := elemOf 1 y.ser 0 0 }))

/-- A held command whose counter condition holds is taken, else it is tested again 128 cycles later. A command whose
time is over and whose work is done sends its writes as requests, the array its own to its scratchpad; the answer to a
request of a command is a piece of its work done, and status 2 or more ends it with ACCESS; with no write left it is
complete, makes its addition, as its order allows, and its element is placed once the counter has answered. While
injection is stopped the counter reads, the drain addition and the exchange wait a cycle. The array grants a lease to
the first ready core after the last holder. A marker at the head frees what its core owns. A multicast transfer of an
accepted generation is written and acknowledged, another is discarded and its row counted, and one that a fence has
refused ends its command with ACCESS; a drain addition adds 1; the exchange of wstq enters its maximum in the ring. What
the counters and records read has no single-bit error. That the array makes all its writes in the step of its
completion, and that an engine's writes leave then, is the model's choice (log 16, log 35), as is the counting of
discarded rows (log 76). (R41, R44, R157, R307, R310, R311, R319, R351, R352, R356, R360, R427) -/
def Obligations.EngineSteps : Prop :=
  ∀ (c cl id i sra uid : Nat) (q : BitVec 2) (ser : BitVec 16) (e : QEntry) (rest : List QEntry) (m : Mcast) (pa : Nat) (r : MReq)
    (sl : Option (BitVec 3))
    (l : Layout) (d : SpadDesc) (rows : List RowIo) (s u v : State),
    let Q := (s.core c).queue q.toNat
    (Q.front = some e → e.stage = .hold → s.engineStopped c q.toNat = true →
      exec (.waithRecheck c q) s = .next (s.postIn 1 (.waithRecheck c q))) ∧
    (Q.front = some e → e.stage = .hold → s.engineStopped c q.toNat = false → s.soft = [] →
      (s.enginesGo e.ctx = true → s.waitMet e = true → exec (.waithRecheck c q) s = .next (s.arm c q.toNat e)) ∧
      (s.waitMet e = false → exec (.waithRecheck c q) s = .next (s.postIn 128 (.waithRecheck c q)))) ∧
    (let is := fun (e : QEntry) => e.ser = ser && e.stage = .running && e.due ≤ s.cycle && e.openWork = 0 && !e.marker
     Q.entries.find? is = some e →
      let complete := fun (x : QEntry) => { x with stage := .complete, writes := [], slotWrites := [] }
      let done := fun (s : State) => (s.modEntry c q.toNat is complete).signalAll c q.toNat
      (q = 0 → exec (.engineCommandComplete c q ser) s = .next (done (e.writes.foldl (fun s w =>
        (s.bankWrite w.1 w.2.1 w.2.2 (engineSrc c 0) e.ctx).mirror e.ctx e.tick w.1 w.2.1) s))) ∧
      (q ≠ 0 → e.writeReqs c q.toNat = [] →
        exec (.engineCommandComplete c q ser) s = .next ((done s).wakeEngine c q.toNat)) ∧
      (q ≠ 0 → e.writeReqs c q.toNat ≠ [] → exec (.engineCommandComplete c q ser) s =
        .next ((s.modEntry c q.toNat is fun x => { x with
          openWork := (e.writeReqs c q.toNat).length, writes := [], slotWrites := [] }).sendEngines c q.toNat (e.writeReqs c q.toNat)))) ∧
    (s.reqs.find id = some r → r.stage = 2 →
      let answered := ({ s with reqs := s.reqs.erase id } : State).workDone c q.toNat uid fun e =>
        if 2 ≤ r.status.toNat then { e with
          elem := elemOf q.toNat e.ser 3 0, sigPa := none, drain := none, writes := [], slotWrites := [] } else e
      (r.kind = .engRead c q.toNat uid → exec (.loadResponse id) s = .next answered) ∧
      (r.kind = .engWrite c q.toNat uid sl → exec (.storeAck id) s = .next answered)) ∧
    exec (.sighAnswer c q ser) s = .next ((s.modEntry c q.toNat (fun e => e.ser = ser && e.stage = .adding) fun x =>
      { x with stage := .done }).signalAll c q.toNat) ∧
    ((s.cluster cl).leaseAt ≤ s.cycle → (s.cluster cl).lease = none →
      ((List.range 4).map fun j => ((s.cluster cl).leaseLast + 1 + j) % 4).find? (fun i => s.qmReady (4 * cl + i)) = some i →
      ((s.cluster cl).accBegun = 0 ∨ (s.cluster cl).accBegun + 2 ≤ s.cycle) → (s.core (4 * cl + i)).qm.front = some e →
      exec (.leaseGrant cl) s = .next ((s.modCluster cl fun k =>
        { k with lease := some i, leaseLast := i, leaseCount := 1, leaseAt := s.cycle + 1 }).modFront (4 * cl + i) 0
          (fun x => { x with stage := .granted }) |>.post (.command (4 * cl + i) e.cw))) ∧
    ((s.core c).qm.entries = e :: rest → e.marker = true →
      exec (.releaseMarkerHead c) s = .next ((((s.modCore c fun k => { k with qm := { k.qm with entries := rest } }).modCluster (c / 4)
        fun k => (List.range 4).foldl (fun k a =>
          if (k.accDesc a).v && (k.accDesc a).ocore = c % 4 then k.freeAcc a else k) k).kickQueues c).post (.leaseGrant (c / 4)))) ∧
    (s.mcasts.find id = some m →
      let acc := (s.walker m.dst).accept.get m.gid 0
      let s1 : State := { s with mcasts := s.mcasts.erase id }
      (m.refused = true → exec (.mcastTransfer id) s =
        .next (s1.acked m fun e => (e.refused 1).settle m)) ∧
      (m.refused = false → m.grouped = false → exec (.mcastTransfer id) s = .next (((s1.modWalker m.dst fun w => w).bankWrite m.pa m.n
        m.v (0x900 + m.core / 16) m.ctx).acked m fun e => e)) ∧
      (m.refused = false → m.grouped = true → m.gen = acc → exec (.mcastTransfer id) s = .next (((s1.modWalker m.dst fun w => w).bankWrite m.pa m.n m.v
        (0x900 + m.core / 16) m.ctx).acked m QEntry.counted)) ∧
      (m.refused = false → m.grouped = true → m.gen - acc = 1 → exec (.mcastTransfer id) s = .next (((s1.modWalker m.dst fun w =>
        { w with accept := w.accept.set m.gid m.gen }).bankWrite m.pa m.n m.v (0x900 + m.core / 16) m.ctx).acked m QEntry.counted)) ∧
      (m.refused = false → m.grouped = true → m.gen ≠ acc → m.gen - acc ≠ 1 → ((s.walker m.dst).mcdrop + 1) % 1024 ≠ 1 →
        exec (.mcastTransfer id) s = .next ((s1.modWalker m.dst fun w => { w with mcdrop := w.mcdrop + 1 }).acked m
          fun e => (e.drop m.row m.port).counted))) ∧
    (let is := fun (e : QEntry) => e.ser = ser && e.stage = .running && e.openWork = 0 && e.drain.isSome && !e.marker
     (s.core c).qw.entries.find? is = some e → e.drain = some pa → s.heldOff pa = false →
      (s.engineStopped c 1 = true → exec (.drainAddition c ser) s = .next (s.postIn 1 (.drainAddition c ser))) ∧
      (s.engineStopped c 1 = false →
      (s.modEntry c 1 is fun x => { x with drain := none }).addCounter pa 1 = (true, u) →
      exec (.drainAddition c ser) s = .next ((u.mirror e.ctx e.tick pa 8).post (.engineCommandComplete c 1 ser)))) ∧
    ((s.core c).qw.entries.find? (fun e =>
        e.ser = ser && e.stage = .running && e.openWork != 0 && e.xd.isNone && !e.marker) = some e →
      (s.engineStopped c 1 = true → exec (.scalingExchange c ser) s = .next (s.postIn 1 (.scalingExchange c ser))) ∧
      (s.engineStopped c 1 = false →
      layoutOf e.layout = some l → s.stqPlan c e.cw e l = (.ok (d, rows, sra), v) → v.soft = [] →
      let n := v.readMem (sra + 64) 8 % 16
      exec (.scalingExchange c ser) s = .next ((((((v.engineView maskW).2.bankWrite (sra + 4 * n) 4 ((v.engineView maskW).1.stqMax c e.cw l d rows) (engineSrc c 1) e.ctx).bankWrite
        (sra + 64) 8 ((n + 1) % 16) (engineSrc c 1) e.ctx).mirror e.ctx e.tick (sra + 4 * n) 4).mirror e.ctx e.tick (sra + 64) 8).stqFinish
        c e.cw e l d rows (scaleDelayed (l.fmt - 11) (v.ringMax sra)))))

/-- With a head that R47 and the word's own tests allow: send to an open port of the rectangle with a stamp that its
lookahead allows, and on a ranked channel of the task's timeline, post to a cluster or a core of the rectangle, reply to
the core in src or to the host, and reply.to put one message at the tail of the send queue under the next MTAG, held
until the word's release condition, to the host with H in its mask; a full queue traps SQFULL. nstat gives a status
word. The head of a send queue of the array that may leave is injected and counted as sent. No byte of memory changes.
(R152, R165, R178, R197, R198, R199, R420) -/
def Obligations.MessageWords : Prop :=
  ∀ (w : Bool) (d a b m : BitVec 5) (sel : BitVec 4) (c : Nat) (e : SendEntry) (rest : List SendEntry) (s : State),
    let k := s.me
    let head := k.get d
    let sa := k.get a
    let st := k.get b
    let cls := recClass head
    let fine := recTrap head (k.getN 15) (k.getN 14) (k.getN 13) = none ∧ (cls = 3 → k.mode ≠ .task)
    let inRect := fun (cl : Nat) => (s.ctx k.ctx).hasCluster cl = true
    let sends := fun (i : Instr) (v : Word) (e : SendEntry) (n : BitVec 6) => Issues i s →
      (8 ≤ k.sendQ.length → exec i s = .next (s.trap 9 v)) ∧
      (k.sendQ.length < 8 → ∃ t, exec i s = .next t ∧ t.mem = s.mem ∧ (∀ j, j ≠ s.cur → t.core j = s.core j) ∧
        t.me = { k with
          sendQ := k.sendQ ++ [{ e with mtag := k.mtag, fence := k.relAll }], openCount := k.openCount + n, pc := k.pc + 4
          mtag := if e.host then k.mtag else k.mtag + 1 })
    let rec_ := if recKind head = 2 then mkRec head st [k.getN 10] else mkRec head st k.payload
    let kind := if recKind head = 2 then 5 else if cls = 3 then 4 else 2
    let o := (s.cluster s.myCluster).outs.get (sa.toNat % 128) {}
    (fine → sendBad head = false → sa.toNat / 2 ^ 16 = 1 → inRect (sa.toNat % 1024) →
      stampTest (s.ctx k.ctx).lopen.toNat k.now k.term st = none →
      sends (.send w d a b m) sa { r := rec_, fk := kind, cl := sa.toNat % 1024
                                   cslot := BitVec.ofNat 7 (112 + sa.toNat / 2 ^ 10 % 16)
                                   cseq := sa.toNat / 2 ^ 14 % 4 * 64 + k.openCount.toNat, bound := k.seq, mask := m } 1) ∧
    (fine → sendBad head = false → sa.toNat < 128 → o.st = 2 → k.tl ≠ 0xFFFF → k.tl.toNat % 1024 = s.myCluster →
      o.own = k.tl.toNat / 1024 % 16 → stampTest o.l k.now k.term st = none →
      sends (.send w d a b m) sa { r := rec_, fk := kind, cl := o.dcl, cslot := BitVec.ofNat 7 o.din, cseq := o.nxt
                                   out := some (sa.toNat % 128), bound := k.seq, mask := m } 0) ∧
    (fine → postBad true head = false → sa.toNat / 1024 = 4 → inRect (sa.toNat % 1024) →
      sends (.post w d a m) sa { r := mkRec head k.now k.payload, fk := if cls = 3 then 4 else 2, cl := sa.toNat % 1024
                                 untimed := true, bound := k.seq, mask := m } 0) ∧
    (fine → postBad false head = false → sa.toNat < 4096 → inRect (sa.toNat / 4) →
      sends (.post w d a m) sa { r := mkRec head k.now k.payload, fk := if cls = 3 then 4 else 2, cl := sa.toNat / 4
                                 untimed := true, core := some sa.toNat, bound := k.seq, mask := m } 0) ∧
    (fine → replyBad head = false → k.src ≠ 0xFFF → inRect (k.src.toNat / 4) →
      sends (.reply w d m) 0 { r := replyRec k head, fk := 3, cl := k.src.toNat / 4, untimed := true
                               core := some k.src.toNat, bound := k.seq, mask := m } 0) ∧
    (fine → replyBad head = false → k.src = 0xFFF →
      sends (.reply w d m) 0 { r := replyRec k head, fk := 3, cl := 0, untimed := true, bound := k.seq, host := true
                               mask := m ||| maskH } 0) ∧
    (fine → replyBad head = false → sa.toNat < 4096 → inRect (sa.toNat / 4) →
      sends (.replyTo w d a m) sa { r := replyRec k head, fk := 3, cl := sa.toNat / 4, untimed := true
                                    core := some sa.toNat, bound := k.seq, mask := m } 0) ∧
    (sel ≠ 3 → Gives (.nstat w d a sel) s d (s.nstatWord sel.toNat (sa.toNat % 65536))) ∧
    (sa.toNat % 1024 = s.myCluster → Gives (.nstat w d a 3) s d (s.nstatWord 3 (sa.toNat % 65536))) ∧
    (let k := s.core c
     c < 2304 → k.sendQ = e :: rest → e.free k = true → s.mayInject c e = true → e.host = false → e.err = false → k.run ≠ .stopped →
      ∃ t, exec (.sendInject c) s = .next t ∧ t.mem = s.mem ∧ (∀ j, j ≠ c → t.core j = s.core j) ∧
        t.core c = { k with sendQ := rest, unreceipted := k.unreceipted ++ [e.mtag] } ∧
        (t.cluster (c / 4)).inject = (s.cluster (c / 4)).inject ++ s.messageFlits c e e.mtag k.ctx ∧
        (t.cluster (c / 4)).openSends = (s.cluster (c / 4)).openSends ++
          [{ src := c, mtag := e.mtag, core := some c, out := e.out, seq := e.cseq, at_ := none, ctx := k.ctx }])

/-- tsub of a head that R47 and R227 allow, with room in its class, puts the record into a slot of the own cluster, to
be entered once its release condition holds; with no room it traps QFULL with the class. krel of a key still held clears
its bit at once and holds the release; kheld asks the key's home by a DESK flit and takes its status word, which comes
back as another. Each is completed by its own step. No byte of memory changes. (R47, R206, R214, R226, R227, R228, R229)
-/
def Obligations.TaskAndKeyWords : Prop :=
  ∀ (w : Bool) (d a m : BitVec 5) (c seq j : Nat) (i : Nat) (h : HeldEntry) (key : BitVec 16) (it : Item) (q : Query) (v : Word) (s : State),
    let k := s.me
    let head := k.get d
    let p := k.payloadAt a
    let cl := s.myCluster
    let sa := k.get a
    (Issues (.tsub w d a m) s → recTrap head (p.getD 5 0) (p.getD 4 0) (p.getD 3 0) = none → tsubBad head = false →
      (recClass head = 3 → k.mode ≠ .task) →
      (recKind head = 4 → ∀ j, j < 4 → (s.ctx k.ctx).hasCluster (cl / 4 * 4 + j) = true) →
      ((s.cluster cl).freeSlots (recClass head) = 0 → exec (.tsub w d a m) s = .next (s.trap 12 (BitVec.ofNat 64 (recClass head)))) ∧
      (0 < (s.cluster cl).freeSlots (recClass head) → s.waitsInOverflow cl (recClass head) = false →
        ∃ t, exec (.tsub w d a m) s = .next t ∧ t.mem = s.mem ∧ (∀ j, j ≠ s.cur → t.core j = s.core j) ∧
          t.me = { k with seq := k.seq + 1, pc := k.pc + 4
                          held := k.held.set k.seq { what := .submit s.nextId, bound := k.seq, mask := m, fence := k.relAll } } ∧
          t.item cl s.nextId = some { cls := recClass head, src := s.cur, mask := 15, r := mkRec head k.now p, st := .submitting
                                      order := s.nextId, ctx := k.ctx })) ∧
    (Issues (.krel w a) s →
      (65536 ≤ sa.toNat ∨ k.keyAt (sa.setWidth 16) = none → exec (.krel w a) s = .next (s.trap 11 sa)) ∧
      (sa.toNat < 65536 → k.keyAt (sa.setWidth 16) = some i → k.gang = 0 →
        ∃ t, exec (.krel w a) s = .next t ∧ t.mem = s.mem ∧ (∀ j, j ≠ s.cur → t.core j = s.core j) ∧
          t.me = { k with keys := k.keys &&& ~~~(BitVec.ofNat 4 (2 ^ i)), seq := k.seq + 1, pc := k.pc + 4
                          held := k.held.set k.seq { what := .key (sa.setWidth 16), bound := k.seq, mask := 31, fence := k.relAll } })) ∧
    (Issues (.kheld w d a) s →
      (65535 ≤ sa.toNat → exec (.kheld w d a) s = .next (s.trap 11 sa)) ∧
      (sa.toNat < 65535 → ∃ t, exec (.kheld w d a) s = .next t ∧ t.mem = s.mem ∧ (∀ j, j ≠ s.cur → t.core j = s.core j) ∧
        t.me = { k with seq := k.seq + 1, pc := k.pc + 4
                        outs := k.outs.set k.seq { iaddr := k.pc, dest := .reg d 8 false } } ∧
        t.queries = s.queries ++ [{ core := s.cur, seq := k.seq, what := .kquery (sa.setWidth 16), d := d, ctx := k.ctx }] ∧
        (s.cur < 2304 → ∃ f ∈ (t.cluster (s.cur / 4)).inject, f.fk = 9 ∧ f.ev = some (.kqueryAtDesk s.cur k.seq)))) ∧
    ((s.core c).held.find seq = some h → h.what = .submit j → h.free (s.core c) = true →
      s.item (c / 4) j = some it → ∃ t, exec (.tsubRecordWrite c seq) s = .next t ∧ t.mem = s.mem ∧
        t.core c = { s.core c with held := (s.core c).held.erase seq } ∧
        t.item (c / 4) j = some { it with st := .pending, order := s.nextId } ∧ (s.cycle, Event.taskEntry (c / 4)) ∈ t.agenda) ∧
    ((s.core c).held.find seq = some h → h.what = .key key → h.free (s.core c) = true →
      (s.core c).entryCluster < 576 → ∃ t, exec (.krelSent c seq) s = .next t ∧ t.mem = s.mem ∧ t.core c = { s.core c with held := (s.core c).held.erase seq } ∧
        ∃ f ∈ (t.cluster (s.core c).entryCluster).inject, f.fk = 9 ∧ f.ev = some
          (.deskKrel (s.deskOf (s.core c).ctx key) (s.core c).ctx (s.core c).entryCluster (s.core c).entryTag key)) ∧
    (s.query c seq = some q → q.what = .kquery key → q.answer = none →
      let h := s.deskOf q.ctx key
      let w := s.keyStatus c q.ctx key
      exec (.kqueryAtDesk c seq) s = .next ((s.answerQuery c seq w 0 0).injectIn (576 + h) 4
        [deskFlit (flitTo (0xA00 + h) (c / 4) 9) .kstat q.ctx (s.core c).entryCluster (s.core c).entryTag key.toNat 0 w
          (.kstatArrival c seq)])) ∧
    (s.query c seq = some q → q.what = .kquery key → q.answer = some v → ∃ t, exec (.kstatArrival c seq) s = .next t ∧
      t.mem = s.mem ∧ t.core q.core = { (s.core q.core).put q.d v with outs := (s.core q.core).outs.erase q.seq } ∧
      ∀ j, j ≠ q.core → t.core j = s.core j)

/-- With operands the rules allow: tlnew and chopen ask the cluster they name, with s[d] outstanding, and chopen takes
the lowest free out-slot (log 33); tlfree and chclose are posted; promise raises the running term. At the cluster a free
slot becomes IDLE with its handler and horizon and answers its id, none answers the error; a channel opens in the lowest
free in-slot (log 33), or is refused as GONE (only a FREE or RETIRED slot or another generation is, log 114), RANK, NOIN
or LATE; its answer opens the out-slot under its number, or closes it where the timeline has ended meanwhile, or frees
it; a fence at the target refuses a tlfree (log 107); tlfree frees an idle or waiting timeline, and marks a running one
dying. No byte of memory changes by the words. (R169, R171, R195, R196, R200, R201, R202, R203) -/
def Obligations.TimelineWords : Prop :=
  ∀ (w : Bool) (d a b : BitVec 5) (c seq n t i cl : Nat) (id : BitVec 16) (x y adv v : Word) (q : Query) (s : State),
    let k := s.me
    let sa := k.get a
    let sb := k.get b
    let own := k.tl.toNat % 1024
    let slot := k.tl.toNat / 1024 % 16
    let frame := fun (t : State) => t.mem = s.mem ∧ ∀ j, j ≠ s.cur → t.core j = s.core j
    let asked := fun (t : State) => t.me = { k with
      seq := k.seq + 1, pc := k.pc + 4, outs := k.outs.set k.seq { iaddr := k.pc, dest := .reg d 8 false } }
    let inRect := (s.ctx k.ctx).hasCluster (sa.toNat % 1024) = true
    let unfenced := fun (to_ : Nat) => s.fencedCluster (c / 4) = none ∧ s.fencedCluster to_ = none
    (Issues (.tlnew w d a b) s → sa.toNat < 65536 → (sa.toNat / 2 ^ 14 % 2 = 1 → sa.toNat / 2 ^ 10 % 16 = 0) →
      sb.toNat < 2 ^ 48 → sb.toNat % 4 = 0 → inRect → ∃ t, exec (.tlnew w d a b) s = .next t ∧ frame t ∧ asked t ∧
        t.queries = s.queries ++ [{ core := s.cur, seq := k.seq, what := .tlnew sa sb, d := d, ctx := k.ctx, now := k.now }] ∧
        (s.cycle, Event.tlnewAtCluster s.cur k.seq) ∈ t.agenda) ∧
    (Issues (.tlfree w a) s → sa.toNat < 65536 → inRect → ∃ t, exec (.tlfree w a) s = .next t ∧
      OnlyCore s.cur { s with agenda := t.agenda } t ∧ t.me = { k with pc := k.pc + 4 } ∧
      (s.cycle, Event.tlfreeArrival (sa.toNat % 1024) ⟨s.cur, sa.setWidth 16⟩) ∈ t.agenda) ∧
    (Issues (.promise w a) s →
      (k.tl = 0xFFFF → exec (.promise w a) s = .next (s.trapChan sa 1)) ∧
      (k.tl ≠ 0xFFFF → (sa.toNat < k.term.toNat ∨ END * 65536 < sa.toNat) → exec (.promise w a) s = .next (s.trapChan sa 2)) ∧
      (k.tl ≠ 0xFFFF → k.term.toNat ≤ sa.toNat → sa.toNat ≤ END * 65536 → ∃ t, exec (.promise w a) s = .next t ∧ frame t ∧
        t.me = { k with term := sa, pc := k.pc + 4 })) ∧
    (Issues (.chopen w d a b) s → k.tl ≠ 0xFFFF → sa.toNat < 2 ^ 21 → sa.toNat / 2 ^ 16 % 16 ≤ 7 → sb.toNat / 2 ^ 32 ≠ 0 → inRect →
      let adv := advert (s.floor own slot) (sb.toNat % 2 ^ 32)
      ((s.cluster own).freeOut = some n → ∃ t, exec (.chopen w d a b) s = .next t ∧ frame t ∧ asked t ∧
        (t.cluster own).outs.get n {} = {
          v := true, st := 1, bulk := sa.toNat / 2 ^ 20 = 1, rank := sa.toNat / 2 ^ 16 % 16, own := slot, dcl := sa.toNat % 1024
          q := sb.toNat / 2 ^ 32, l := sb.toNat % 2 ^ 32, lastp := adv } ∧
        (s.cycle, Event.chopenAtTarget s.cur k.seq) ∈ t.agenda) ∧
      ((s.cluster own).freeOut = none → ∃ t, exec (.chopen w d a b) s = .next t ∧ frame t ∧ asked t ∧
        t.queries = s.queries ++ [{ core := s.cur, seq := k.seq, what := .chopen 0 sa sb adv, d := d, ctx := k.ctx, now := k.term
                                    answer := some 0x8000000000000001, code := 1 }])) ∧
    (Issues (.chclose w a) s → sa.toNat < 128 → k.tl ≠ 0xFFFF → ((s.cluster own).outs.get sa.toNat {}).v = true →
      ((s.cluster own).outs.get sa.toNat {}).st = 2 → ((s.cluster own).outs.get sa.toNat {}).own = slot →
      ∃ t, exec (.chclose w a) s = .next t ∧ frame t ∧ t.me = { k with pc := k.pc + 4 } ∧
        ((t.cluster own).outs.get sa.toNat {}).st = 3 ∧ (s.cycle, Event.promiseSend own sa.toNat) ∈ t.agenda) ∧
    (s.query c seq = some q → q.answer = none → q.what = .tlnew x y → unfenced (x.toNat % 1024) →
      let to_ := x.toNat % 1024
      let C := s.cluster to_
      (x.toNat / 2 ^ 14 % 2 = 1 → C.freeSlot = none → exec (.tlnewAtCluster c seq) s =
        .next ((s.answerQuery c seq 0x8000000000000002 0 0).postLate (.tlnewResult c seq))) ∧
      ((x.toNat / 2 ^ 14 % 2 = 1 ∧ C.freeSlot = some t ∨
          x.toNat / 2 ^ 14 % 2 = 0 ∧ x.toNat / 2 ^ 10 % 16 = t ∧ (C.tls.get t {}).st = .free) →
        let h := atTick (tick ((s.router (routerOfCluster to_)).surv.get q.ctx {}).mer + (s.ctx q.ctx).lopen.toNat)
        exec (.tlnewAtCluster c seq) s = .next (((s.placeTimeline to_ t y q.now (x.toNat / 2 ^ 15 % 2 = 1) h).answerQuery c seq
          (BitVec.ofNat 64 (to_ + 1024 * t + 16384 * (C.tls.get t {}).gen.toNat)) 0 0).postLate (.tlnewResult c seq)))) ∧
    (s.query c seq = some q → q.answer = some v → q.what = .tlnew x y → exec (.tlnewResult c seq) s = .next (s.closeQuery q v)) ∧
    (s.query c seq = some q → q.answer = none → q.what = .chopen n x y adv → unfenced (x.toNat % 1024) →
      let to_ := x.toNat % 1024
      let C := s.cluster to_
      let T := C.tls.get (x.toNat / 2 ^ 10 % 16) {}
      let gone := T.st = .free ∨ T.st = .retired ∨ T.gen.toNat ≠ x.toNat / 2 ^ 14 % 4
      let taken := ∃ p ∈ C.ins, p.1 < 112 ∧ p.2.v = true ∧ p.2.st = 1 ∧ p.2.tls = x.toNat / 2 ^ 10 % 16 ∧ p.2.rank = x.toNat / 2 ^ 16 % 16
      let refused := fun (code : Nat) => exec (.chopenAtTarget c seq) s =
        .next ((s.answerQuery c seq (BitVec.ofNat 64 (2 ^ 63 + code)) code 0).postLate (.chopenResult c seq))
      let late := adv.toNat < (s.floor to_ (x.toNat / 2 ^ 10 % 16)).toNat
      (gone → refused 4) ∧ (¬gone → taken → refused 3) ∧ (¬gone → ¬taken → C.freeIn = none → refused 2) ∧
      (¬gone → ¬taken → C.freeIn = some i → late → refused 5) ∧
      (¬gone → ¬taken → C.freeIn = some i → ¬late →
        exec (.chopenAtTarget c seq) s = .next (((((s.modCluster to_ fun k => { k with ins := k.ins.set i {
          h := adv, v := true, st := 1, bulk := x.toNat / 2 ^ 20 % 2 = 1, rank := x.toNat / 2 ^ 16 % 16
          tls := x.toNat / 2 ^ 10 % 16, scl := (s.core c).tl.toNat % 1024, sout := n, gen := T.gen } }).retest to_
            (x.toNat / 2 ^ 10 % 16)).answerQuery c seq (BitVec.ofNat 64 n) 0 i)).postLate (.chopenResult c seq)))) ∧
    (s.query c seq = some q → q.answer = some v → q.what = .chopen n x y adv → q.code ≠ 0 → q.code ≠ 1 →
      exec (.chopenResult c seq) s = .next (((s.modCluster ((s.core c).tl.toNat % 1024) fun k => { k with outs := k.outs.erase n }).closeQuery
        q v).refloor ((s.core c).tl.toNat % 1024) ((s.core c).tl.toNat / 1024 % 16))) ∧
    (s.query c seq = some q → q.answer = some v → q.what = .chopen n x y adv → q.code = 0 →
      let from_ := (s.core c).tl.toNat % 1024
      let T := (s.cluster from_).tls.get ((s.core c).tl.toNat / 1024 % 16) {}
      let o := (s.cluster from_).outs.get n {}
      let put := fun (st : Nat) => s.modCluster from_ fun k => { k with outs := k.outs.set n { o with st := st, din := q.din } }
      (T.gen.toNat = (s.core c).tl.toNat / 16384 → exec (.chopenResult c seq) s =
        .next (((put 2).closeQuery q v).refloor from_ ((s.core c).tl.toNat / 1024 % 16))) ∧
      (T.gen.toNat ≠ (s.core c).tl.toNat / 16384 → exec (.chopenResult c seq) s =
        .next ((((put 3).post (.promiseSend from_ n)).closeQuery q v).refloor from_ ((s.core c).tl.toNat / 1024 % 16)))) ∧
    (s.query c seq = some q → q.answer = some v → q.what = .chopen n x y adv → q.code = 1 →
      exec (.chopenResult c seq) s =
        .next ((s.closeQuery q v).refloor ((s.core c).tl.toNat % 1024) ((s.core c).tl.toNat / 1024 % 16))) ∧
    (∀ f, s.fencedCluster (c / 4) = none → s.fencedCluster cl = some f →
      exec (.tlfreeArrival cl ⟨c, id⟩) s = .next (s.countNak f (routerOfCluster cl) (routerOfCluster cl) c (s.core c).ctx (s.core c).ctx
        (id.setWidth 64))) ∧
    (unfenced cl → let t := id.toNat / 1024 % 16
     let T := (s.cluster cl).tls.get t {}
     (T.gen.toNat ≠ id.toNat / 16384 → exec (.tlfreeArrival cl ⟨c, id⟩) s = .next s) ∧
     (T.gen.toNat = id.toNat / 16384 →
      ((T.st = .idle ∨ T.st = .wait) → exec (.tlfreeArrival cl ⟨c, id⟩) s = .next (s.freeTimeline cl t)) ∧
      (T.st = .run → exec (.tlfreeArrival cl ⟨c, id⟩) s =
        .next (s.modCluster cl fun k => { k with tls := k.tls.set t { T with st := .dying } }))))

/-- For each step the network takes on its own, what it leaves when it is enabled: an injected flit stands at its router
and the next may follow at the throttle's rate; a flit that arrives alone takes its first productive free port, is
deflected to the lowest free port, or ejects, a request or response being there with its last flit; a flit that a full
backing inbox refuses is deflected; a receipt settles its message, and so does a NAK, which a memory request takes as
its answer with status 4, a posted store with the note of R128 (log 72); injection stops at an age of 2,048 cycles
(measured from the first flit's acceptance, log 17); the throttle level moves by at most one step under the thresholds
that the registers hold; a complete divert entry is written to the lowest free record of the overflow queue (log 32),
from which a watch may be met; a freed slot recalls a record (log 47, log 123); a bridge or fabric link replays (for two
link times, log 7, log 36), retrains (successfully, 12,288 cycles on, where nothing else is said, log 37) and carries
flits again. Only the overflow write and firmware notes write memory. (R148, R149, R150, R152, R154, R155, R156, R157,
R158, R159, R161, R405) -/
def Obligations.NetworkSteps : Prop :=
  ∀ (cluster router link src mtag slot id i j x n p tag : Nat) (up : Bool) (seqno : Word) (f : Flit) (rest : List Flit) (m : Item)
      (o : OpenSend) (q : OutSlot) (v : OvRec) (e : TEntry) (req : MReq) (s : State),
    let C := s.cluster cluster
    let home := routerOfCluster cluster
    let R := s.router router
    -- injection (R149, R157, R158)
    (cluster < 576 → s.tooOld cluster = false → s.fencedCluster cluster = none → C.inject = f :: rest → f.due ≤ s.cycle → s.windowOpen f = true →
      C.injAt ≤ s.cycle → (∀ g ∈ (s.router home).flits, g.port ≠ 26 + cluster % 4) →
      ∃ t, exec (.flitInject cluster) s = .next t ∧ t.mem = s.mem ∧
        t.cluster cluster = { C with inject := rest, injAt := s.cycle + 2 ^ (s.router home).level } ∧
        (t.router home).flits = (s.router home).flits ++ [{ f with port := 26 + cluster % 4, due := s.cycle + 1 }] ∧
        (s.cycle + 1, Event.flitArrival home) ∈ t.agenda) ∧
    (n < 96 → let V := s.slice n
      let r := routerOfSlice n
      V.inject = f :: rest → f.due ≤ s.cycle → V.injAt ≤ s.cycle → (∀ g ∈ (s.router r).flits, g.port ≠ 26 + n % 2) →
      ∃ t, exec (.flitInject (576 + n)) s = .next t ∧ t.mem = s.mem ∧
        t.slice n = { V with inject := rest, injAt := s.cycle + 2 ^ (s.router r).level } ∧
        (t.router r).flits = (s.router r).flits ++ [{ f with port := 26 + n % 2, due := s.cycle + 1 }] ∧
        (s.cycle + 1, Event.flitArrival r) ∈ t.agenda) ∧
    (cluster < 576 → s.tooOld cluster = true → C.stop = true → (∀ g ∈ C.inject, g.fk < 6 ∨ 8 < g.fk) →
      C.injAt ≤ s.cycle → (∀ g ∈ (s.router home).flits, g.port ≠ 26 + cluster % 4) →
      exec (.flitInject cluster) s = .next s) ∧
    (((∃ o ∈ C.openSends, ∃ a, o.at_ = some a ∧ a + 2048 ≤ s.cycle) → ∃ t, exec (.injectionStop cluster) s = .next t ∧
        t.mem = s.mem ∧ t.cluster cluster = { C with stop := true }) ∧
      ((∀ o ∈ C.openSends, ∀ a, o.at_ = some a → s.cycle < a + 2048) → 
          (∀ r ∈ s.reqs, r.2.via.getD (r.2.core / 4) = cluster → ∀ a, r.2.at_ = some a → s.cycle < a + 2048) →
        ∃ t, exec (.injectionStop cluster) s = .next t ∧ t.mem = s.mem ∧ t.cluster cluster = { C with stop := false } ∧
          ∃ c ≤ s.cycle, (c, Event.flitInject cluster) ∈ t.agenda)) ∧
    -- arbitration of a flit that is alone (R147, R148, R150)
    (R.flits = [f] → f.due ≤ s.cycle → s.cycle < R.winAt → f.port < 26 → f.err = false → f.soft = false → (∀ k, computeOfRouter router = some k → s.fenceOf k = none) →
      let u := s.modRouter router fun x => { x with flits := [] }
      let isOpen := fun (p : Nat) => u.linkOpen router (portDest router p)
      let leaves := fun (p bad : Nat) =>
        let to_ := portDest router p
        let d := 2 + u.linkTime router to_
        ∃ t, exec (.flitArrival router) s = .next t ∧ t.mem = s.mem ∧
          t.router router = { R with flits := [], left := R.left + 1, deflected := R.deflected + bad } ∧
          (t.router to_).flits = (s.router to_).flits ++
            [{ f with age := f.age + d, kept := false, port := (portTo to_ router).getD 0, due := s.cycle + d }] ∧
          t.agenda = s.agenda ++ [(s.cycle + d, .flitArrival to_)]
      (f.dr ≠ router → (u.productive router f).find? (fun p => decide (p < 26) && isOpen p) = some p → leaves p 0) ∧
      (f.dr ≠ router → (u.productive router f).find? (fun p => decide (p < 26) && isOpen p) = none →
        ((List.range 26).filter isOpen).head? = some p → leaves p 1) ∧
      let ejects := fun (u : State) => exec (.flitArrival router) s =
        .next (u.modRouter router fun x => { x with left := x.left + 1 })
      (f.dr = router → f.abroad = none →
        (s.reqs.find id = some req → f.req = some id → 0 < req.left →
          let w := u.setReq id { req with left := req.left - 1 }
          (f.fk = 0 → req.stage = 1 → s.inOrder req = true → ejects (if req.left = 1 then w.post (req.event id) else w)) ∧
          (f.fk = 1 → req.stage = 2 → 
            ejects (if req.left = 1 then req.injectors.foldl (fun s u => s.postOnce 1 (.flitInject u)) (w.post (req.reply id)) else w))) ∧
        (f.fk = 9 → computeOfRouter router = none →
          (f.mseq.toNat < 12 → ∀ e, f.ev = some e → ejects (u.post e)) ∧ (12 ≤ f.mseq.toNat → ejects (u.discard router f)))) ∧
      (f.dr = router → f.abroad = none → computeOfRouter router = some i →
        let cl := i * 4 + f.dp
        (f.fk = 8 → ejects (u.post (.receiptArrival (payLo f.pay).toNat f.mtag.toNat))) ∧
        (s.backFull f.ctx cl = true → 2 ≤ f.fk → f.fk ≤ 7 → ((List.range 26).filter isOpen).head? = some p → leaves p 1) ∧
        (s.backFull f.ctx cl = false →
          (f.fk = 6 → ejects (u.orBacking f.ctx cl (.promiseArrival cl f.cslot.toNat f.cseq (payLo f.pay)))) ∧
          (f.fk = 7 → ejects (u.orBacking f.ctx cl (.askArrival cl f.cslot.toNat))) ∧
          (∀ cls < 3, f.fk = 2 + cls → f.fi ≤ 3 →
            let known := fun (p : Nat × Item) => decide (p.2.st = .filling) && decide (p.2.src = f.src) && decide (p.2.mtag = f.mtag) &&
              decide (p.2.cls = if f.fk = 4 then 3 else f.fk - 2)
            let filled := fun (m : Item) => { m with
              mask := m.mask ||| BitVec.ofNat 4 (2 ^ f.fi)
              r := (m.r.set! (2 * f.fi) (payLo f.pay)).set! (2 * f.fi + 1) (payHi f.pay) }
            (∀ m : Item, (s.cluster cl).inbox.find? known = some (j, m) → (s.backedFor f.ctx cl = none ∨ m.divert = true) → m.mask.getLsbD f.fi = false → (filled m).mask ≠ 15 →
              ejects (u.setItem cl j (filled m))) ∧
            ((s.cluster cl).inbox.find? known = none → s.backedFor f.ctx cl = none → (s.ctx f.ctx).images.has cl = false →
              let c := if f.fk = 4 then 3 else f.fk - 2
              0 < (s.cluster cl).freeSlots c → s.waitsInOverflow cl c = false →
              ejects (({ u with nextId := s.nextId + 1 } : State).setItem cl s.nextId (filled
                { cls := c, divert := false, src := f.src, mtag := f.mtag, ctx := f.ctx }))))))) ∧
    -- receipts and refusals (R152, R175, R413)
    ((s.cluster (src / 4)).openSends.find? (fun o => decide (o.src = src) && decide (o.mtag = BitVec.ofNat 8 mtag)) = some o →
      o.core = some n → (∀ k, o.out = some k → (s.cluster (src / 4)).outs.find k = some q ∧ q.acked = [] ∧ o.seq = q.old) →
      ∃ t, exec (.receiptArrival src mtag) s = .next t ∧ t.mem = s.mem ∧
        (t.cluster (src / 4)).openSends = (s.cluster (src / 4)).openSends.erase o ∧
        t.core n = { s.core n with unreceipted := (s.core n).unreceipted.erase (BitVec.ofNat 8 mtag) } ∧
        ∀ k, o.out = some k → ((t.cluster (src / 4)).outs.get k {}).old = (q.old + 1) % 2 ^ 32) ∧
    exec (.nakArrival src mtag false) s = exec (.receiptArrival src mtag) s ∧
    (s.reqs.find mtag = some req → req.core = src → req.stage = 1 → exec (.nakArrival src mtag true) s =
      .next (((if req.posts then s.refusedStore req else s).setReq mtag { req with stage := 2, left := 0, status := 4 }).post (req.reply mtag))) ∧
    -- the throttle and the bulk rule (R158, R159)
    (R.level ≤ 3 → R.deflected ≤ R.left →
      let thr := fun i => s.thr[i]?.getD 0
      let up := R.level < 3 ∧ (if R.left = 0 then thr R.level = 0 else thr R.level * R.left ≤ R.deflected * 256)
      let down := 0 < R.level ∧ (if R.left = 0 then thr (R.level + 2) ≠ 0 else R.deflected * 256 < thr (R.level + 2) * R.left)
      ∃ t, exec (.throttleWindow router) s = .next t ∧ t.mem = s.mem ∧ (∀ r, r ≠ router → t.router r = s.router r) ∧
        (up → (t.router router).level = R.level + 1) ∧ (¬up → down → (t.router router).level = R.level - 1) ∧
        (¬up → ¬down → (t.router router).level = R.level) ∧
        (t.router router).left = 0 ∧ (t.router router).deflected = 0 ∧ (t.router router).flits = R.flits) ∧
    (C.entries.find tag = some e → exec (.bulkDeferExpiry cluster tag) s = .next (s.post (.dispatch cluster))) ∧
    -- the overflow queue (R153 to R156)
    (C.ctx = some x → C.nextDivert = some (j, m) →
      let c := s.ctx x
      (c.oqcap.toNat ≤ c.ovf.length →
        (c.ovfStanding = true → exec (.overflowWrite cluster) s = .next s) ∧
        (c.ovfStanding = false → exec (.overflowWrite cluster) s =
          .next ((s.modCtx x fun c => { c with ovfStanding := true }).note home x 1 (Word.of c.ovf.length) (Word.of cluster) 0))) ∧
      (c.ovf.length < c.oqcap.toNat → m.tl = none → MemOk s → m.err = false → m.soft = false →
        ∃ t, exec (.overflowWrite cluster) s = .next t ∧ (t.cluster cluster).inbox = C.inbox.erase j ∧
          t.ctx x = { c with ovf := c.ovf ++ [{ pos := freePos c.ovf, cluster := cluster, item := { m with divert := false }
                                                order := s.nextId }] } ∧
          (∀ i < 8, memRead t.mem (c.oqbase.toNat + 64 * freePos c.ovf + 8 * i) 8 = (m.r[i]?.getD 0).toNat) ∧
          ∀ a, a < c.oqbase.toNat + 64 * freePos c.ovf ∨ c.oqbase.toNat + 64 * freePos c.ovf + 64 ≤ a → memGet t.mem a = memGet s.mem a)) ∧
    (∀ cls, (C.freeSlots (classOf cls) = 0 → exec (.recall cluster cls) s = .next s) ∧
      (0 < C.freeSlots (classOf cls) → s.backed cluster = none → C.ctx = some x → s.toRecall cluster (classOf cls) = some v →
        v.item.tl = none → ∃ t, exec (.recall cluster cls) s = .next t ∧ t.mem = s.mem ∧
          (t.ctx x).ovf = (s.ctx x).ovf.erase v ∧ t.item cluster s.nextId = some { v.item with divert := false } ∧
          (s.cycle, Event.taskEntry cluster) ∈ t.agenda)) ∧
    (let least := (s.overflow cluster).foldl (fun b o =>
         if o.cluster = cluster && decide (o.item.tl.map Prod.fst = some slot) then stampMin b o.item.r.stamp else b) allOnes
     exec (.ovminRecomputeDone cluster slot) s = .next (((s.modCluster cluster fun k => { k with
        tls := k.tls.set slot { k.tls.get slot {} with ovmin := least, recomp := false } }).retest cluster slot).posts
          [.recall cluster .req, .recall cluster .rpl, .recall cluster .sys])) ∧
    -- bridge links (R161, R405, R408)
    (let L := s.links.get link {}
     let d := 2 * s.linkTime (linkRouter link (!up)) (linkRouter link up)
     let count := if L.winAt = 0 ∨ L.winAt + 65536 ≤ s.cycle then 1 else L.replays + 1
     (count < 16 → ∃ t, exec (.linkReplay link up seqno) s = .next t ∧ t.mem = s.mem ∧
       t.links.get link {} = { L with
         replays := count, winAt := if L.winAt = 0 ∨ L.winAt + 65536 ≤ s.cycle then max s.cycle 1 else L.winAt
         upTill := if up then max L.upTill (s.cycle + d) else L.upTill
         downTill := if up then L.downTill else max L.downTill (s.cycle + d) }) ∧
     (16 ≤ count → L.rate < 2 → ∃ t, exec (.linkReplay link up seqno) s = .next t ∧ t.mem = s.mem ∧
       (t.links.get link {}).retrain = true ∧ (t.links.get link {}).rate = L.rate + 1 ∧ (t.links.get link {}).replays = 0 ∧
       (s.cycle + 12288, Event.retrainEnd link true) ∈ t.agenda) ∧
     (16 ≤ count → 2 ≤ L.rate → ∃ t, exec (.linkReplay link up seqno) s = .next t ∧
       (t.links.get link {}).down = true ∧ (t.links.get link {}).retrain = false ∧ t.frz = true) ∧
     (L.retrain = true → (s.cycle < L.trainAt → exec (.retrainEnd link true) s = .next s) ∧
       (L.trainAt ≤ s.cycle → ∃ t, exec (.retrainEnd link true) s = .next t ∧ t.mem = s.mem ∧
         t.links.get link {} = { L with retrain := false, down := false, replays := 0, winAt := 0, buffer := [] }) ∧
       ∃ t, exec (.retrainEnd link false) s = .next t ∧ (t.links.get link {}).down = true ∧
         (t.links.get link {}).retrain = false))

/-- For each step of the message unit and of the meridian survey, what it leaves when it is enabled: an applied or
parked promise; a promise sent by the quantum, for an ask, or to close, each noted as the last; asks of a candidate
blocked for 64 cycles, and again after 256; a candidate whose test holds transits (LAST, INTAKE, HEAD, entry); an event
is counted, held and delivered, or dropped; an untimed record enters the dispatcher; a token begins, visits an interface
and leaves it as a SURV flit, stands where a freeze stops it, and a circuit that does not end is noted. Arrivals of a
frozen context go to its backing inbox. That a record in the divert buffer never transits is read from the rules (log
31); that the 64 cycles are kept for each in-slot is the model's choice (log 38), as are the number nearest E of two
(log 133), the notes of a count that has saturated (log 134) and the place that a stopped token keeps among the 16 (log
135). (R179, R180, R181, R185, R186, R187, R188, R189, R191, R194, R206, R378) -/
def Obligations.HorizonSteps : Prop :=
  ∀ (cluster slot ctx tag j x : Nat) (cseq : BitVec 8) (src : BitVec 12) (v stamp p0 : Word) (m : Item) (o : OutSlot) (s : State),
    let C := s.cluster cluster
    let I := C.ins.get slot {}
    let T := C.tls.get slot {}
    let X := s.ctx ctx
    -- promises and asks (R179, R185, R186)
    (s.backed cluster = some x →
      exec (.promiseArrival cluster slot cseq v) s = .next (s.toBacking x (.flit (.promiseArrival cluster slot cseq v))) ∧
      exec (.askArrival cluster slot) s = .next (s.toBacking x (.flit (.askArrival cluster slot))) ∧
      exec (.eventArrival cluster slot cseq src stamp p0) s =
        .next (s.toBacking x (.flit (.eventArrival cluster slot cseq src stamp p0)))) ∧
    (s.backed cluster = none →
      let n := rebuild I.e cseq
      let takes := fun (i : InSlot) => exec (.promiseArrival cluster slot cseq v) s =
        .next (((s.modCluster cluster fun k => { k with ins := k.ins.set slot i }).retest cluster I.tls).closeIn cluster slot)
      (I.v = false → exec (.promiseArrival cluster slot cseq v) s = .next s) ∧
      (I.v = true → slot < 112 →
        (countedUpTo n I.e = true → takes { I with
          h := if I.h.toNat < v.toNat then v else I.h, ended := I.ended || decide (v = atTick END) }) ∧
        (countedUpTo n I.e = false → I.pval = allOnes → takes { I with pval := v, pseq := n }) ∧
        (countedUpTo n I.e = false → countedUpTo n I.pseq = false → takes { I with pval := v, pseq := n }) ∧
        (countedUpTo n I.e = false → I.pval ≠ allOnes → countedUpTo n I.pseq = true → takes I))) ∧
    (C.outs.find slot = some o →
      (o.st = 3 → s.outQueued cluster slot = true → exec (.promiseSend cluster slot) s = .next s) ∧
      (o.st = 3 → s.outQueued cluster slot = false → exec (.promiseSend cluster slot) s = .next
        ((s.sendPromise cluster slot o (atTick END)).modCluster cluster fun k => { k with
          outs := k.outs.set slot { o with lastp := atTick END } })) ∧
      (o.st = 2 →
        let a := advert (s.floor cluster o.own) o.l
        let due := tick o.lastp + o.q ≤ tick a ∨ (o.askp = true ∧ o.lastp.toNat < a.toNat)
        (due → exec (.promiseSend cluster slot) s = .next ((s.sendPromise cluster slot o a).modCluster cluster fun k => { k with
          outs := k.outs.set slot { o with lastp := a, askp := false } })) ∧
        (¬due → exec (.promiseSend cluster slot) s = .next s)) ∧
      (s.backed cluster = none → o.st = 2 → exec (.askArrival cluster slot) s = .next
        ((s.modCluster cluster fun k => { k with outs := k.outs.set slot { o with askp := true } }).post (.promiseSend cluster slot)))) ∧
    (∀ b c i, C.candidate slot = some (j, m) → T.st = .wait → T.who = some j → C.ins = [(c, i)] → c < 112 → i.v = true →
      i.st = 1 → i.tls = slot → passes (c, i) m = false → s.asks cluster c i = true → i.since = some b →
      let at_ := max (b + 64) (match i.asked with
        | none => 0
        | some a => a + 256)
      (s.cycle < at_ → exec (.askSend cluster slot) s = .next (s.postOnce (at_ - s.cycle) (.askSend cluster slot))) ∧
      (at_ ≤ s.cycle →
        exec (.askSend cluster slot) s = .next (((s.modCluster cluster fun k => { k with
          ins := k.ins.set c { i with asked := some s.cycle } }).inject cluster
            [s.abroadOr cluster c
              { flitTo (cluster * 4) i.scl 7 with cslot := BitVec.ofNat 7 i.sout, ctx := C.ctx.getD 0 }]).postOnce
                (max (b + 64) (s.cycle + 256) - s.cycle) (.askSend cluster slot)))) ∧
    -- transit (R180, R181)
    (C.candidate slot = some (j, m) →
      let holds := T.st = .wait ∧ m.divert = false ∧ s.backed cluster = none ∧ m.r.stamp.toNat < T.ovmin.toNat ∧
        ∀ c ∈ C.inSlots slot, passes c m = true
      (holds → exec (.transit cluster slot) s = .next
        (((((s.modCluster cluster fun k => { k with tls := k.tls.set slot { T with
          st := .head, last := m.r.stamp, intake := allOnes, blocked := none, who := none } }).enterEntry cluster slot j m).closeIn
            cluster m.inSlot).refloor cluster slot))) ∧
      (¬holds → exec (.transit cluster slot) s = .next s)) ∧
    -- events (R194)
    (s.backed cluster = none → C.ctx = some x → (s.ctx x).images.find cluster = none → slot < 112 → I.v = true → I.st = 1 → I.rank < 8 →
      let e : Item := { ev := true, src := src.toNat, mask := 15, r := #v[0x2000000000000, stamp, p0, 0, 0, 0, 0, 0], ctx := x
                        tl := some (I.tls, I.gen), inSlot := slot, rank := I.rank, seq := rebuild I.e cseq, bulk := I.bulk }
      let u := s.countReceived (routerOfCluster cluster) x
      (C.events < 256 → exec (.eventArrival cluster slot cseq src stamp p0) s = .next
        ((({ u with nextId := s.nextId + 1 } : State).setItem cluster s.nextId { e with order := s.nextId }).deliver cluster s.nextId)) ∧
      (256 ≤ C.events → exec (.eventArrival cluster slot cseq src stamp p0) s = .next (u.dropEvent cluster e I.tls))) ∧
    -- entry into the dispatcher (R206)
    ((∀ q, s.backed cluster = some q → exec (.taskEntry cluster) s = .next s) ∧
      (s.backed cluster = none → C.inbox = [(j, m)] → m.tl = none → m.st = .pending → m.divert = false →
        s.tagFor cluster m = some tag →
        exec (.taskEntry cluster) s = .next ((s.enterEntry cluster tag j m).post (.taskEntry cluster)))) ∧
    -- the survey (R187 to R191)
    (X.tokOn = false → X.st = .running → (s.tokenWanted ctx = false → exec (.tokenStart ctx) s = .next s) ∧
      (s.tokenWanted ctx = true →
        (16 ≤ (s.ctxs.filter fun p => p.2.tokOn).length → exec (.tokenStart ctx) s = .next s) ∧
        ((s.ctxs.filter fun p => p.2.tokOn).length < 16 → exec (.tokenStart ctx) s = .next
          (((s.modCtx ctx fun c => { c with tokOn := true, tokPos := 0, tokStart := s.cycle, tokStalled := false
                                            publishing := c.found, found := none }).postIn 65536 (.survstall ctx)).postIn 4
            (.surveyVisit ctx))))) ∧
    (X.tokOn = true → X.st ≠ .running → exec (.surveyVisit ctx) s = .next (s.modCtx ctx fun c => { c with tokHeld := true })) ∧
    (X.tokOn = true → X.st = .running → X.publishing = none → X.tokPos < 191 →
      let r := visitRouter X.tokPos
      let V := (s.router r).surv.get ctx {}
      ∃ t, exec (.surveyVisit ctx) s = .next t ∧ t.mem = s.mem ∧
        (∃ f ∈ (t.router (routerOfSrc (0xE00 + r))).flits, f.fk = 10 ∧ f.dr = visitRouter (X.tokPos + 1) ∧ f.ctx = ctx ∧
          f.ev = some (.surveyVisit ctx)) ∧
        t.ctx ctx = { X with tokSum := X.tokSum + V.cnt, tokMin := stampMin X.tokMin (stampMin (s.mhere ctx r) V.msent)
                             tokBlack := X.tokBlack || V.blk, tokPos := X.tokPos + 1 } ∧
        (t.router r).surv.get ctx {} = { V with cnt := 0, blk := false, msent := allOnes }) ∧
    (let late := X.tokOn = true ∧ X.tokStart + 65536 ≤ s.cycle ∧ X.tokStalled = false
     (late → exec (.survstall ctx) s = .next ((s.modCtx ctx fun c => { c with tokStalled := true }).note
       (visitRouter (min X.tokPos 191)) ctx 5 (Word.of (visitRouter (min X.tokPos 191))) 0 0)) ∧
     (¬late → exec (.survstall ctx) s = .next s))

/-- For each step of the reserve desks, of the dispatcher and of the barrier unit, what it leaves when it is enabled: a
desk grants, queues or refuses a key and passes a released key to the first in its queue; a dispatcher asks for one key
after the other, backs off after a refusal, registers, latches and polls conditions; the first READY task in the order
of R209 starts on the lowest free core, or as a gang; bara, bar and barw arrive, wait and park (a bar that has arrived
only waits, log 42), arrivals leave in the order of their words and reach the entry 3 or 6 cycles later (log 110), a
completed phase lowers PEND of every member that had arrived, and the last member to leave ends the gang. That watches
stand in the order of their registration (log 136) and that a GANG16 is chosen only while a core is free (log 151) are
the model's choices. (R209, R211, R215, R216, R217, R222, R223, R226, R237, R241, R243, R244) -/
def Obligations.DispatcherSteps : Prop :=
  ∀ (w : Bool) (mask : BitVec 5) (slice ctx cluster tag cond core seq pa x : Nat) (key : BitVec 16) (E : KeyEntry) (e : TEntry)
      (m : Item) (h : HeldEntry) (s : State),
    let D := s.slice slice
    let C := s.cluster cluster
    let home := routerOfCluster cluster
    let putKey := fun (E : KeyEntry) => s.modSlice slice fun v => { v with
      keys := v.keys.map fun o => if o.ctx = E.ctx && o.key = E.key then E else o }
    let refused := s.deskAnswers slice ctx cluster tag key.toNat .krefuse (.krefuseArrival cluster tag key)
    -- reserve desks (R216, R226, R428)
    (D.keyEntry ctx key = none →
      (4096 ≤ D.keys.length → exec (.deskKreq slice ctx cluster tag key) s = .next refused) ∧
      (D.keys.length < 4096 → s.mayStart ctx = true → exec (.deskKreq slice ctx cluster tag key) s = .next
        ((s.modSlice slice fun v => { v with
          keys := v.keys ++ [{ ctx := ctx, key := key, hcl := cluster, htag := tag }] }).deskAnswers slice ctx cluster tag key.toNat .kgrant
            (.kgrantArrival cluster tag key))) ∧
      exec (.deskKrel slice ctx cluster tag key) s = .next s ∧ exec (.deskKcancel slice ctx cluster tag key) s = .next s ∧
      exec (.krunAtDesk slice ctx cluster tag key) s = .next s) ∧
    (D.keyEntry ctx key = some E →
      (512 ≤ D.holds → exec (.deskKreq slice ctx cluster tag key) s = .next refused) ∧
      (D.holds < 512 → exec (.deskKreq slice ctx cluster tag key) s = .next (putKey { E with queue := E.queue ++ [(cluster, tag)] })) ∧
      ((E.hcl ≠ cluster ∨ E.htag ≠ tag) → exec (.deskKrel slice ctx cluster tag key) s = .next s ∧
        exec (.krunAtDesk slice ctx cluster tag key) s = .next s ∧
        exec (.deskKcancel slice ctx cluster tag key) s = .next (putKey { E with queue := E.queue.filter (· != (cluster, tag)) })) ∧
      (E.hcl = cluster → E.htag = tag →
        exec (.krunAtDesk slice ctx cluster tag key) s = .next (putKey { E with hrun := true }) ∧
        exec (.deskKcancel slice ctx cluster tag key) s = exec (.deskKrel slice ctx cluster tag key) s ∧
        (E.queue = [] → exec (.deskKrel slice ctx cluster tag key) s = .next (s.modSlice slice fun v => { v with
          keys := v.keys.filter fun o => !(o.ctx = E.ctx && o.key = E.key) })) ∧
        (∀ c n q, E.queue = (c, n) :: q → s.mayStart E.ctx = true → exec (.deskKrel slice ctx cluster tag key) s = .next
          ((putKey { E with hcl := c, htag := n, hrun := false, park := false, queue := q }).deskAnswers slice E.ctx c n E.key.toNat .kgrant
            (.kgrantArrival c n E.key))))) ∧
    -- grants, refusals and conditions at the dispatcher (R215, R217, R222, R223)
    (C.entries.find tag = none → s.backed cluster = none → exec (.kgrantArrival cluster tag key) s = .next
      (s.sendKrel (C.ctx.getD 0) cluster tag key)) ∧
    (C.entries.find tag = some e → e.phase = .acq → e.keys[e.granted]? = some key →
      (∀ k since, s.backed cluster = none → e.since = some since → e.keys[e.granted + 1]? = some k →
        exec (.kgrantArrival cluster tag key) s = .next
          ((s.setEntry cluster tag { e with granted := e.granted + 1, tries := 0, retryAt := none }).sendKreq e.ctx cluster tag k)) ∧
      (∀ since, s.backed cluster = none → e.since = some since → e.keys[e.granted + 1]? = none → s.item cluster e.item = some m →
        recCond m.r[0] = 0 → exec (.kgrantArrival cluster tag key) s = .next
          (((s.setEntry cluster tag { e with granted := e.granted + 1, tries := 0, retryAt := none }).makeReady cluster tag
            { e with granted := e.granted + 1, tries := 0, retryAt := none }))) ∧
      exec (.krefuseArrival cluster tag key) s = .next ((s.setEntry cluster tag { e with
        tries := e.tries + 1, retryAt := some (s.cycle + 128 * 2 ^ min e.tries 4) }).postIn
          (128 * 2 ^ min e.tries 4) (.keyRetry cluster tag)) ∧
      (∀ since, s.backed cluster = none → e.retryAt = some since →
        (since ≤ s.cycle → exec (.keyRetry cluster tag) s = .next
          ((s.setEntry cluster tag { e with retryAt := none }).sendKreq e.ctx cluster tag key)) ∧
        (s.cycle < since → exec (.keyRetry cluster tag) s = .next s)) ∧
      (e.retryAt = none → exec (.keyRetry cluster tag) s = .next s)) ∧
    (C.entries.find tag = some e → e.phase = .cond → s.item cluster e.item = some m →
      let t := BitVec.ofNat 32 ((recCondWord m.r cond).fld 47 16)
      let met := condHolds (s.readMem pa 8) t
      let bit := BitVec.ofNat 2 (2 ^ cond)
      let handle := (recCondWord m.r cond).fld 15 0
      let h := s.homeOf pa
      (e.met.getLsbD cond = false → (e.watch[cond]?).getD none = some pa → s.slwinNew = [] → s.soft = [] →
        (s.poisoned pa 8 = true → exec (.wregAtSlice cluster tag cond) s = .next (s.abandon cluster tag 6 e)) ∧
        (s.poisoned pa 8 = false → met = true → exec (.wregAtSlice cluster tag cond) s = .next
          (s.deskAnswers h e.ctx cluster tag handle .wmet (.wmetArrival cluster tag cond))) ∧
        (s.poisoned pa 8 = false → met = false →
          let standing := (s.slice h).watches.any fun q => q.ctx = e.ctx && q.cluster = cluster && q.tag = tag && q.cond = cond
          (standing = true → exec (.wregAtSlice cluster tag cond) s = .next s) ∧
          (standing = false → (s.slice h).watches.length < 64 → exec (.wregAtSlice cluster tag cond) s = .next ((s.modSlice h fun v =>
            { v with watches := v.watches ++ [{ ctx := e.ctx, pa := pa, target := t, handle := BitVec.ofNat 16 handle
                                                cluster := cluster, tag := tag, cond := cond }] }).setEntry cluster tag
            { e with poll := e.poll &&& ~~~bit })) ∧
          (standing = false → 64 ≤ (s.slice h).watches.length → exec (.wregAtSlice cluster tag cond) s = .next
            (s.deskAnswers h e.ctx cluster tag handle .wrefuse (.wrefuseArrival cluster tag cond))))) ∧
      (s.backed cluster = none →
        exec (.wmetArrival cluster tag cond) s = .next
          (if (List.range (recCond m.r[0])).all fun j => (e.met ||| bit).getLsbD j
            then s.makeReady cluster tag { e with met := e.met ||| bit, poll := e.poll &&& ~~~bit }
            else s.setEntry cluster tag { e with met := e.met ||| bit, poll := e.poll &&& ~~~bit }) ∧
        exec (.wrefuseArrival cluster tag cond) s = .next ((s.setEntry cluster tag { e with poll := e.poll ||| bit }).postIn 512
          (.watchPoll cluster tag cond))) ∧
      (e.poll.getLsbD cond = true → s.backed cluster = none → exec (.watchPoll cluster tag cond) s = .next
        (s.sendWreg cluster tag cond e m)) ∧
      (e.poll.getLsbD cond = false → exec (.watchPoll cluster tag cond) s = .next s)) ∧
    exec (.wcancelAtSlice slice cluster tag cond) s = .next (s.modSlice slice fun v => { v with
      watches := v.watches.filter fun q => !(some q.ctx = C.ctx && q.cluster = cluster && q.tag = tag && q.cond = cond) }) ∧
    (∀ since, C.entries.find tag = some e → s.item cluster e.item = some m → e.since = some since →
      (e.noted = true ∨ s.cycle < since + 2 ^ 20 → exec (.dwait cluster tag) s = .next s) ∧
      (e.noted = false → since + 2 ^ 20 ≤ s.cycle → e.phase = .acq → exec (.dwait cluster tag) s = .next
        ((s.setEntry cluster tag { e with noted := true }).note home e.ctx 7 (Word.of (cluster * 64 + tag))
          (pack16 ((e.keys.take e.granted).map BitVec.toNat)) (pack16 ((List.range (recCond m.r[0])).map fun _ => 0xFFFF))))) ∧
    -- the choice (R209 to R211, R237)
    (C.ctx = some x → s.mayStart x = true → C.gang4 = none → (s.router home).quadHeld = false →
      (∀ p ∈ s.readyTasks cluster, p.2.2.core = none ∧ p.2.2.isBulk = false ∧ p.2.1.defAt = none) →
      firstTask s.cycle C.rr (s.readyTasks cluster) = some (tag, e, m) →
      let free := (coresOf cluster).filter fun c => (s.core c).run = .free
      (free.head? = some core → (m.ev = true ∨ (recKind m.r[0] ≠ 3 ∧ recKind m.r[0] ≠ 4)) → exec (.dispatch cluster) s = .next
        ((s.startTask cluster tag e m 0 0 [(core, 0)]).post (.dispatch cluster))) ∧
      (m.ev = false → recKind m.r[0] = 3 → free.length = 4 → exec (.dispatch cluster) s = .next
        (s.startTask cluster tag e m 1 cluster ((List.range 4).map fun i => (cluster * 4 + i, i)))) ∧
      (m.ev = false → recKind m.r[0] = 3 → free = [core] → exec (.dispatch cluster) s = .next
        ((s.modCluster cluster fun k => { k with gang4 := some tag }).modCore core fun k => { k with run := .held })) ∧
      (m.ev = false → recKind m.r[0] = 4 → free.head? = some core → exec (.dispatch cluster) s = .next
        ((s.setEntry cluster tag { e with phase := .quad }).posts [.quadHoldRequest cluster tag, .dispatch cluster]))) ∧
    (C.entries.find tag = some e →
      exec (.priorityPromotion cluster tag) s = .next (s.post (.dispatch cluster)) ∧
      (e.phase = .quad → (s.router home).holds.contains (cluster, tag) = false → exec (.quadHoldRequest cluster tag) s = .next
        ((s.modRouter home fun x => { x with holds := x.holds ++ [(cluster, tag)], quadHeld := true }).posts
          ((List.range 4).map fun p => .dispatch (cluster / 4 * 4 + p)))) ∧
      (∀ quad rest, (s.router (routerOfCompute quad)).holds = (cluster, tag) :: rest →
        (s.router (routerOfCompute quad)).quadHeld = true → (∀ i < 16, (s.core (quad * 16 + i)).run = .held) →
        s.mayStart (C.ctx.getD 0) = true → s.item cluster e.item = some m → exec (.quadGangStart quad) s = .next
          ((s.modRouter (routerOfCompute quad) fun x => { x with holds := rest, quadHeld := !rest.isEmpty }).startTask cluster tag e m 2
            (quad * 4) ((List.range 16).map fun i => (quad * 16 + i, i))))) ∧
    -- barrier words (R243, R244)
    (let k := s.me
     let frame := fun (t : State) => t.mem = s.mem ∧ ∀ j, j ≠ s.cur → t.core j = s.core j
     let arrived := { k with pend := k.pend + 1, seq := k.seq + 1, held := k.held.set k.seq { what := .arrival, bound := k.seq, mask := mask, fence := k.relAll } }
     (Issues (.bara w mask) s →
       (k.gang = 0 → exec (.bara w mask) s = .next (s.trap 0x0F 0)) ∧
       (k.gang ≠ 0 → 2 ≤ k.pend → exec (.bara w mask) s = .next s.stall) ∧
       (k.gang ≠ 0 → k.pend < 2 → ∃ t, exec (.bara w mask) s = .next t ∧ frame t ∧ t.me = { arrived with pc := k.pc + 4 })) ∧
     (Issues (.barw w) s → k.gang = 0 → exec (.barw w) s = .next (s.trap 0x0F 0)) ∧
     (IssuesDrained (.barw w) s → k.gang ≠ 0 →
       (k.pend = 0 → ∃ t, exec (.barw w) s = .next t ∧ frame t ∧ t.me = { k with arrived := none, pc := k.pc + 4 }) ∧
       (k.pend ≠ 0 → ∃ t, exec (.barw w) s = .next t ∧ frame t ∧ t.me = { k with run := .parked (k.pc + 4) } ∧
         (t.barrierOf k.gang).wt = (s.barrierOf k.gang).wt ||| memberBit k.gang)) ∧
     (Issues (.bar w mask) s → k.gang = 0 → exec (.bar w mask) s = .next (s.trap 0x0F 0)) ∧
     (IssuesDrained (.bar w mask) s → k.gang ≠ 0 → k.arrived = some k.pc →
       (k.pend = 0 → ∃ t, exec (.bar w mask) s = .next t ∧ frame t ∧ t.me = { k with arrived := none, pc := k.pc + 4 }) ∧
       (k.pend ≠ 0 → ∃ t, exec (.bar w mask) s = .next t ∧ frame t ∧ t.me = { k with run := .parked (k.pc + 4) })) ∧
     (IssuesDrained (.bar w mask) s → k.gang ≠ 0 → k.arrived ≠ some k.pc →
       (2 ≤ k.pend → exec (.bar w mask) s = .next s.stall) ∧
       (k.pend < 2 → ∃ t, exec (.bar w mask) s = .next t ∧ frame t ∧
         t.me = { arrived with arrived := some k.pc, run := .parked (k.pc + 4) } ∧
         (t.barrierOf k.gang).wt = (s.barrierOf k.gang).wt ||| memberBit k.gang))) ∧
    -- the barrier unit (R239, R241)
    (let k := s.core core
     let g := k.gang
     let b := s.barrierOf g
     let bit := memberBit g
     (k.held.find seq = some h → h.what = .arrival → h.free k = true → (∀ p ∈ k.held, p.1 < seq → p.2.what ≠ .arrival) →
       ∃ t, exec (.barArrivalSent core seq) s = .next t ∧ t.mem = s.mem ∧
         t.core core = { k with held := k.held.erase seq, arrivals := k.arrivals ++ [g] } ∧
         (s.cycle + (if g.toNat / 16 % 4 = 2 then 6 else 3), Event.barrierArrival core) ∈ t.agenda) ∧
     (k.arrivals = [] → exec (.barrierArrival core) s = .next s) ∧
     (∀ later, k.arrivals = g :: later → k.run ≠ .exiting →
       let u := s.modCore core fun q => { q with arrivals := later }
       (b.v = false → exec (.barrierArrival core) s = .next u) ∧
       (b.v = true → b.arr &&& bit = 0 →
         (b.arr ||| bit ||| b.exit ≠ b.full → exec (.barrierArrival core) s = .next (u.setBarrier g { b with arr := b.arr ||| bit })) ∧
         (b.arr ||| bit ||| b.exit = b.full → b.exit ≠ b.full → b.nxt = 0 → ∃ t, exec (.barrierArrival core) s = .next t ∧
           t.mem = s.mem ∧ t.barrierOf g = { b with ph := !b.ph, nph := b.nph + 1, arr := 0, nxt := 0 } ∧
           (∀ i < 16, let c := g.toNat / 64 * 4 + i
             (b.arr ||| bit).getLsbD i = true → (u.core c).gang.toNat / 16 = g.toNat / 16 →
               t.core c = { u.core c with pend := (u.core c).pend - 1 }))) ∧
       (b.v = true → b.arr &&& bit ≠ 0 → b.arr ||| b.exit ≠ b.full →
         exec (.barrierArrival core) s = .next (u.setBarrier g { b with nxt := b.nxt ||| bit }))) ∧
     (k.run = .exiting → g ≠ 0 → k.arrivals = [] →
       (b.exit ||| bit = b.full → exec (.barrierExit core) s = .next
         ((((s.releaseKeys k).setBarrier g {}).freeCore core).timelineEnds k.tl)) ∧
       (b.arr ||| (b.exit ||| bit) ≠ b.full → b.exit ||| bit ≠ b.full → k.tl = 0xFFFF → exec (.barrierExit core) s = .next
         ((s.setBarrier g { b with exit := b.exit ||| bit }).freeCore core))) ∧
     (∀ n, k.run = .parked n → k.pend = 0 → exec (.barrierWake core) s = .next
       ((s.setBarrier g { b with wt := b.wt &&& ~~~bit }).setCore core
         { k with run := .running, pc := n, arrived := none, ready := s.cycle + 1 })))

/-- For each step at the device's registers and at its links to the outside, what it leaves when it is enabled: windows
and columns switch (in the full time allowed, log 7), links retrain (log 37 gives the outcome), rectangles are set,
fenced and reset once what is under way there has completed (the drain is looked for each cycle, log 107; DONE comes
4,096 cycles after it, log 7, and falls at the next RESET, log 100); a post window's write becomes a message or a
promise, or is dropped and counted (log 102), and one of the physical function's window goes to firmware (log 8);
replies go to the ring while it has room, and are dead letters without a ring (log 126); firmware takes a request, and
forwards seven words of it (log 8, 106, 143); a fabric frame enters the network (at router 0, log 9, in the context of
the port table, log 109) while its link carries frames; a contribution to a reduction window is taken; the clock is
lowered and returns; PERST# released boots the management cores, from a pc and with words that are free values (log 8),
and makes the device ready. What is read of a request ring has no error and is not kept off. The model's choices in it:
VFBIND keeps its bits 8 to 0 (log 96), memory beyond a smaller window reads 0 (log 98), a record with the tick END is
let in (log 148), a route written starts anew (log 101), the order of the scrubbers (log 117), thresholds are fractions
of the window (log 20), the 145th function (log 125). (R254, R257, R404, R411, R412, R413, R417, R419, R420, R421, R424,
R425) -/
def Obligations.RegisterAndHostSteps : Prop :=
  ∀ (slice addr rect fn entry link core c ctx window device offset size port cluster slot x : Nat) (win : BitVec 2) (cols : BitVec 4)
      (v : Word) (r : List Word) (gen : BitVec 2) (data : BitVec 512) (cseq : BitVec 8) (src : BitVec 12)
      (e : Route) (E : SendEntry) (rest : List SendEntry) (q : Window) (s : State),
    -- bank windows and columns (R254 to R257), the scrubber (R404)
    (s.slsel < 96 → v.toNat < 4 → ∃ t, exec (.slwinWrite v) s = .next t ∧ t.mem = s.mem ∧ t.cores = s.cores ∧
      t.slwinNew = s.slwinNew.set s.slsel v.toNat ∧ t.slbusy = true ∧
      (s.cycle + 65536, Event.slwinSwitchDone s.slsel (v.setWidth 2)) ∈ t.agenda) ∧
    (96 ≤ s.slsel → exec (.slwinWrite v) s = .next s) ∧
    (s.slwinNew.find slice = some win.toNat →
      let base := 0x10000000000 + slice * 0x400000
      ∃ t, exec (.slwinSwitchDone slice win) s = .next t ∧ (t.slice slice).win = win.toNat ∧
        t.slwinNew = s.slwinNew.erase slice ∧
        ∀ b, memGet t.mem b = if base + win.toNat * 0x100000 ≤ b ∧ b < base + (s.slice slice).win * 0x100000 then 0 else memGet s.mem b) ∧
    (v.toNat < 16 → 2 ≤ ((List.range 4).filter fun i => v.getLsbD i).length →
      (s.columnsMayMove = false → exec (.slcolsWrite v) s = .next
        (s.fwNote .colbusy ((List.range 96).find? fun i => (s.slice i).busy).toList)) ∧
      (s.columnsMayMove = true → ∃ t, exec (.slcolsWrite v) s = .next t ∧ t.mem = s.mem ∧ t.slcolsNew = some (v.setWidth 4) ∧
        t.slbusy = true ∧ t.slcols = s.slcols ∧ (s.cycle, Event.slcolsSwitch (v.setWidth 4)) ∈ t.agenda)) ∧
    (((List.range 4).filter fun i => v.getLsbD i).length < 2 → exec (.slcolsWrite v) s = .next s) ∧
    (s.slcolsNew = some cols → ∃ t, exec (.slcolsSwitch cols) s = .next t ∧ t.mem = s.mem ∧ t.slcols = cols ∧ t.slcolsNew = none) ∧
    (∃ t, exec (.patrolScrub slice addr) s = .next t ∧ t.mem = s.mem ∧
      (s.homeOf addr = slice → bankRegion addr false = true → s.soft = [addr / 8] → t.soft = []) ∧
      (s.homeOf addr ≠ slice → t.soft = s.soft) ∧
      (∀ o, region addr = .window slice o → (s.cycle + 2730, Event.patrolScrub slice
        (if o + 16 ≤ 0x300000 then addr / 8 * 8 + 8 else 0x10000000000 + slice * 0x400000)) ∈ t.agenda) ∧
      (region addr = .hbm → (s.cycle + 1, Event.patrolScrub slice ((addr / 8 * 8 + 8) % 2 ^ 39)) ∈ t.agenda)) ∧
    -- night log and links (R405, R411)
    (v.toNat < 2 ^ 14 → v.getLsbD 0 = true → exec (.nlctlWrite v) s = .next { s with frz := false }) ∧
    (v.toNat < 2 ^ 20 → v.toNat % 4 ≠ 3 → s.lnksel < 600 → ∃ t, exec (.lnkstWrite v) s = .next t ∧ t.mem = s.mem ∧
      (let l := t.links.get s.lnksel {}
       l.retrain = true ∧ l.rate = v.toNat % 4 ∧ l.replays = 0 ∧ l.trainAt = s.cycle + 12288) ∧
      (s.cycle + 12288, Event.retrainEnd s.lnksel true) ∈ t.agenda) ∧
    -- containment (R411, R412)
    (((s.cnctl.get s.cnsel 0).getLsbD 0 = true ∨ s.rectOk s.cnsel v = false) → exec (.cnrectWrite v) s = .next s) ∧
    ((s.cnctl.get s.cnsel 0).getLsbD 0 = false → s.rectOk s.cnsel v = true →
      exec (.cnrectWrite v) s = .next { s with cnrect := s.cnrect.set s.cnsel v }) ∧
    (exec (.cnctlFence rect true) s = .next { s with cnctl := s.cnctl.set rect (putFld (s.cnctl.get rect 0) 0 1 1) } ∧
      ∃ t, exec (.cnctlFence rect false) s = .next t ∧ t.mem = s.mem ∧ t.cores = s.cores ∧
        t.cnctl = s.cnctl.set rect (putFld (s.cnctl.get rect 0) 0 1 0)) ∧
    (s.cnctl.get rect 0 = 1 ∨ s.cnctl.get rect 0 = 5 → ∃ t, exec (.cnctlReset rect) s = .next t ∧ t.mem = s.mem ∧ t.cores = s.cores ∧
      t.clusters = s.clusters ∧ t.cnctl = s.cnctl.set rect 3 ∧ rect ∉ t.cnapplied ∧
      (s.cycle, Event.containmentResetDone rect) ∈ t.agenda) ∧
    ((s.cnctl.get rect 0 = 0 ∨ s.cnctl.get rect 0 = 3) → exec (.cnctlReset rect) s = .next s) ∧
    (s.cnctl.get rect 0 = 1 → exec (.containmentResetDone rect) s = .next s) ∧
    (s.cnctl.get rect 0 = 3 → s.cnapplied.contains rect = false →
      (s.rectDrained (s.cnrect.get rect 0) = false → exec (.containmentResetDone rect) s = .next (s.postIn 1 (.containmentResetDone rect))) ∧
      (s.rectDrained (s.cnrect.get rect 0) = true → ∃ t, exec (.containmentResetDone rect) s = .next t ∧ t.cnctl = s.cnctl ∧
        t.cnapplied = rect :: s.cnapplied ∧ (s.cycle + 4096, Event.containmentResetDone rect) ∈ t.agenda ∧
        (rectHas (s.cnrect.get rect 0) (c / 16) = true → (t.core c).run = .free ∧ (t.core c).keys = 0 ∧ (t.core c).outs = []))) ∧
    (s.cnctl.get rect 0 = 3 → s.cnapplied.contains rect = true →
      ∃ t, exec (.containmentResetDone rect) s = .next t ∧ t.cnctl = s.cnctl.set rect 5) ∧
    -- register pages (R158, R416, R418, R419)
    (∀ i : Fin 6, v.toNat ≤ 256 → exec (.registerWrite (.throttle i) v) s = .next { s with thr := s.thr.set i v.toNat }) ∧
    (∀ off, fn < 384 → off ∉ [0x08, 0x10, 0x18] → exec (.registerWrite (.vf fn off) v) s = .next s) ∧
    (fn < 384 → (s.vf fn).bind.getLsbD 8 = true → (s.pageRead fn 0).toNat % 8 = (s.ctx ((s.vf fn).bind.toNat % 256)).st.code ∧
      (s.pageRead fn 0).toNat / 256 = 256 + (s.vf fn).bind.toNat % 256) ∧
    (fn < 384 → (s.vf fn).bind.getLsbD 8 = false → s.pageRead fn 0 = 0) ∧
    (v.toNat < 128 → exec (.registerWrite (.csr 0x240) v) s = .next { s with slsel := v.toNat }) ∧
    (v.toNat < 32 → exec (.registerWrite (.csr 0x256) v) s = .next { s with cnsel := v.toNat }) ∧
    (fn < 384 → v.toNat % 64 = 0 → exec (.registerWrite (.vf fn 8) v) s = .next (s.modVf fn fun p => { p with rrbase := v })) ∧
    (fn < 384 → v.toNat < 65536 → exec (.registerWrite (.vf fn 0x10) v) s = .next (s.modVf fn fun p => { p with rrcap := v })) ∧
    (fn < 384 → exec (.registerWrite (.vf fn 0x18) v) s = .next (s.post (.rrheadWrite fn v))) ∧
    exec (.registerWrite (.pf 0x4008) v) s = .next { s with fnbase := v } ∧
    (fn < 385 → entry < 1024 → exec (.registerWrite (.route fn entry) v) s =
      .next { s with routes := s.routes.set (fn * 1024 + entry) { w := v } }) ∧
    (fn < 384 → s.boundTo fn = none → (v.getLsbD 8 = false ∨ s.boundFns.length < 144) → exec (.vfbindWrite fn v) s = .next (s.modVf fn fun p => { p with bind := v &&& 0x1FF })) ∧
    ((s.boundTo fn).isSome = true → exec (.vfbindWrite fn v) s = .next s) ∧
    (s.devReady = false → exec (.domidWrite v) s = .next { s with domid := v &&& 0xFF }) ∧
    (s.devReady = true → exec (.domidWrite v) s = .next s) ∧
    (∃ t, exec (.rrheadWrite fn v) s = .next t ∧ t.mem = s.mem ∧ t.cores = s.cores ∧ (t.vf fn) = { s.vf fn with rrhead := v }) ∧
    ((s.ctx ctx).st ≠ .empty → v.toNat < 2 →
      exec (.qreqWrite ctx v) s = .next (
        let t := s.modCtx ctx fun c => { c with qreq := decide (v.toNat = 1) }
        if v.toNat = 1 then t.post (.tokenStart ctx) else t)) ∧
    ((s.ctx ctx).st ≠ .empty → (s.ctx ctx).oqcap.toNat ≤ v.toNat → ∃ t, exec (.oqcapWrite ctx v) s = .next t ∧ t.mem = s.mem ∧
      (t.ctx ctx).oqcap = v ∧ (t.ctx ctx).ovf = (s.ctx ctx).ovf) ∧
    -- post windows (R417, R425)
    (s.devReady = false → exec (.hostPostWrite fn entry link r) s = .next s ∧ exec (.hostPromise fn entry link v) s = .next s) ∧
    (s.devReady = true → fn < 384 →
      (r.length ≠ 8 → exec (.hostPostWrite fn entry link r) s = .next (s.dropPost fn entry link)) ∧
      (r.length = 8 → r.getD 0 0 = allOnes →
        exec (.hostPostWrite fn entry link r) s = .next (s.post (.hostPromise fn entry link (r.getD 1 0)))) ∧
      (s.window fn entry link = none → r.length = 8 → r.getD 0 0 ≠ allOnes →
        exec (.hostPostWrite fn entry link r) s = .next (s.dropPost fn entry link)) ∧
      (s.window fn entry link = none → exec (.hostPromise fn entry link v) s = .next (s.dropPost fn entry link)) ∧
      (s.window fn entry link = some (x, e) → r.length = 8 → r.getD 0 0 ≠ allOnes →
        recCheck (r.getD 0 0) (r.getD 7 0) (r.getD 6 0) (r.getD 5 0) = .ok → recClass (r.getD 0 0) = 0 →
        let h := ((s.clusterOf x e.cluster).ins.get e.slot {}).h
        let q : Rec := Vector.ofFn fun i => r.getD i.val 0
        (e.untimed = false → (r.getD 1 0).toNat < h.toNat → exec (.hostPostWrite fn entry link r) s = .next (s.dropPost fn entry link)) ∧
        (e.untimed = false → h.toNat ≤ (r.getD 1 0).toNat → exec (.hostPostWrite fn entry link r) s = .next
          (({ s with routes := s.routes.set (fn * 1024 + entry) { e with link := some link, seq := (e.seq + 1) % 2 ^ 32 } } :
            State).enterDevice (linkIface link) (0xC00 + link % 2) x e.cluster 2 e.slot e.seq false 0xFFF q)) ∧
        (e.untimed = true → exec (.hostPostWrite fn entry link r) s = .next
          (({ s with routes := s.routes.set (fn * 1024 + entry) { e with link := some link } } :
            State).enterDevice (linkIface link) (0xC00 + link % 2) x e.cluster 2 0 0 true 0xFFF q))) ∧
      (s.window fn entry link = some (x, e) →
        (e.untimed = true → exec (.hostPromise fn entry link v) s = .next (s.dropPost fn entry link)) ∧
        (e.untimed = false → exec (.hostPromise fn entry link v) s = .next
          (({ s with routes := s.routes.set (fn * 1024 + entry) { e with link := some link } } : State).enterFlit (0xC00 + link % 2) x
            e.cluster 6 e.slot (BitVec.ofNat 8 e.seq) v)))) ∧
    (s.devReady = true → s.window 384 entry link = some (0xFF, e) →
      let q : Rec := Vector.ofFn fun i => r.getD i.val 0
      let taken := fun (e : Route) => exec (.hostPostWrite 384 entry link r) s =
        .next { s with routes := s.routes.set (384 * 1024 + entry) e, fwPosts := s.fwPosts ++ [q] }
      (r.length = 8 → r.getD 0 0 ≠ allOnes → recCheck (r.getD 0 0) (r.getD 7 0) (r.getD 6 0) (r.getD 5 0) = .ok →
        (recClass (r.getD 0 0) = 0 ∨ recClass (r.getD 0 0) = 3) →
        (e.untimed = true → taken { e with link := some link }) ∧
        (e.untimed = false → e.h.toNat ≤ (r.getD 1 0).toNat → taken { e with link := some link, seq := (e.seq + 1) % 2 ^ 32 }) ∧
        (e.untimed = false → (r.getD 1 0).toNat < e.h.toNat →
          exec (.hostPostWrite 384 entry link r) s = .next (s.dropPost 384 entry link))) ∧
      (e.untimed = false → e.h.toNat < v.toNat → exec (.hostPromise 384 entry link v) s =
        .next { s with routes := s.routes.set (384 * 1024 + entry) { e with link := some link, h := v } })) ∧
    -- replies and requests (R420, R421)
    (let k := s.core core
     let p := s.vf fn
     let at_ := 0x4000000000000 + (p.rrbase.toNat + 64 * (p.rrtail.toNat % p.rrcap.toNat)) % 2 ^ 50
     (MemOk s → k.sendQ = E :: rest → E.host = true → E.err = false → E.soft = false → E.free k = true → k.run ≠ .stopped →
       s.fnOf k.ctx = some fn →
       (p.rrcap ≠ 0 → p.rrtail - p.rrhead = p.rrcap → exec (.hostReplyWrite core) s = .next s) ∧
       (p.rrcap ≠ 0 → p.rrtail - p.rrhead ≠ p.rrcap → ∃ t, exec (.hostReplyWrite core) s = .next t ∧
         Stored s.mem t.mem at_ 64 E.r.bytes ∧ t.vf fn = { p with rrtail := p.rrtail + 1 } ∧ t.core core = { k with sendQ := rest }) ∧
       (p.rrcap = 0 → exec (.hostReplyWrite core) s = .next
         (((s.deadLetter (routerOfSrc core) k.ctx E.r 0xFFFF 0 4 core).modCore core fun k => { k with sendQ := rest }).kick core)))) ∧
    (let a := (s.ctx ctx).save.toNat - 4096
     let head := s.readMem (a + 8) 8
     (s.ctx ctx).st ≠ .empty → 4096 ≤ (s.ctx ctx).save.toNat → s.deviceRead a 16 = s →
     (s.readMem a 8 = head → exec (.firmwareRequestTake ctx) s = .next s) ∧
     let at_ := a + 64 + 64 * (head % 63)
     let ends := fun (u : State) => exec (.firmwareRequestTake ctx) s = .next
       ((((u.touch (a + 8)).preserveAll (a + 8)).bankWrite (a + 8) 8 ((head + 1) % 2 ^ 64) 0xB00 0xFF).postIn 1 (.firmwareRequestTake ctx))
     (s.readMem a 8 ≠ head → s.deviceRead at_ 64 = s →
       (s.readMem at_ 1 = 1 → ends (s.requestRects ctx ((List.range 6).map fun i => Word.of (s.readMem (at_ + 8 + 8 * i) 8)))) ∧
       (s.readMem at_ 1 = 2 → ends (s.fwNote .host (ctx :: (List.range 7).map fun i => s.readMem (at_ + 8 + 8 * i) 8))) ∧
       (s.readMem at_ 1 ≠ 1 → s.readMem at_ 1 ≠ 2 → ends s))) ∧
    (∀ ws : List Nat, x < 7 → (∀ n ∈ ws, n < 2 ^ 64) → ws.length = 7 →
      (noteRow .host (ctx :: ws)).toNat / 2 ^ (64 + 64 * x) % 2 ^ 64 = ws.getD x 0) ∧
    -- fabric and reduction windows (R423, R424)
    (port < 24 → (s.portLink port).down = false → (s.portLink port).retrain = false →
      exec (.fabricFrameArrival port (.promise cluster slot cseq v)) s =
        .next (s.enterFlit (0xD00 + port) (s.frameCtx port cluster slot) cluster 6 slot cseq v) ∧
      exec (.fabricFrameArrival port (.ask cluster slot)) s =
        .next (s.enterFlit (0xD00 + port) (s.frameCtx port cluster (128 + slot)) cluster 7 slot 0 0) ∧
      exec (.fabricFrameArrival port (.message cluster slot cseq src r)) s =
        .next (s.enterDevice (194 + port) (0xD00 + port) (s.frameCtx port cluster slot) cluster
          (if recClass (r.getD 0 0) = 1 then 3 else if recClass (r.getD 0 0) = 3 then 4 else 2) slot cseq.toNat false src.toNat
          (Vector.ofFn fun i => r.getD i.val 0))) ∧
    (port < 24 → ∀ f, ((s.portLink port).down = true → exec (.fabricFrameArrival port f) s = .next s) ∧
      ((s.portLink port).down = false → (s.portLink port).retrain = true → exec (.fabricFrameArrival port f) s =
        .next (s.postIn (max 1 ((s.portLink port).trainAt - s.cycle)) (.fabricFrameArrival port f)))) ∧
    (s.abroad = [] → s.frameCtx port cluster slot = (s.cluster cluster).ctx.getD 0xFF) ∧
    (let w : Window := { desc := r, gen := BitVec.ofNat 2 ((r.getD 0 0).fld 55 54) }
     (w.valid = true → exec (.reductionDescriptorWrite r) s = .next { s with windows := s.windows.set ((r.getD 0 0).fld 53 48) w }) ∧
     (w.valid = false → exec (.reductionDescriptorWrite r) s = .next s)) ∧
    (s.windows.find window = some q →
      ((q.size ≤ offset ∨ q.names device = false) → exec (.reductionContribution window device offset size gen data) s = .next s) ∧
      (offset < q.size → q.names device = true →
        (gen ≠ q.gen → gen - q.gen ≠ 1 → exec (.reductionContribution window device offset size gen data) s =
          .next { s with windows := s.windows.set window { q with drops := q.drops + 1 } }) ∧
        (gen = q.gen → offset % q.elem = 0 → size = q.elem → q.done.contains offset = false →
          (∀ g ∈ q.got, g.1 ≠ offset) → 2 ≤ q.devices.length →
          let taken := { q with got := q.got ++ [(offset, device, data.toNat % 256 ^ q.elem)] }
          exec (.reductionContribution window device offset size gen data) s =
            .next { s with windows := s.windows.set window taken }))) ∧
    -- module and bring-up (R425)
    exec .thermalTrip s = .next (({ s with throttled := true } : State).fwNote .therm []) ∧
    exec .thermalRecover s = .next { s with throttled := false } ∧
    (s.devReady = true → exec .perstRelease s = .next s) ∧
    (s.devReady = false → ∃ t, exec .perstRelease s = .next t ∧ t.mem = s.mem ∧ t.devReady = true ∧ t.slcols = 15 ∧ t.slwinNew = [] ∧
      (slice < 96 → (s.cycle, Event.patrolScrub slice (0x10000000000 + slice * 0x400000)) ∈ t.agenda ∧
        (s.cycle, Event.patrolScrub slice 0) ∈ t.agenda) ∧
      (∀ i < 4, t.core (0xB00 + i) = { s.core (0xB00 + i) with run := .running, pc := Config.bootPc i, ready := s.cycle }) ∧
      ((∀ p ∈ s.slices, p.2.win = 0) → t.slices = s.slices))

/-- In firmware mode ctxc moves a running context to freezing, a frozen one to thawing or to empty, and answers BUSY or
STATE otherwise. ckpt of a readable descriptor opens a checkpoint, or answers its error. The model's choices in it: the
effect is made at issue and the result comes later (log 86), a thaw ends after 4,096 cycles (the spec gives it no time,
log 7), ARCH has one page more than ACAP for the index and a fault of the descriptor comes before BUSY and PAST (log
90). (R362, R377, R385, R386, R388, R389) -/
def Obligations.ContextWords : Prop :=
  ∀ (w : Bool) (d a b : BitVec 5) (ctx : Nat) (h ws : List Word) (ps : List CkPage) (ar sh : List Nat) (s u z : State),
    let va := s.me.get b
    let v := s.me.get a
    let k := s.me
    let C := s.ctx ctx
    -- ctxc (R377, R386)
    (v &&& 0xFFFFFFFFFFFF00FF = 0 → v.toNat / 256 % 256 = ctx →
      (Issues (.ctxcFrz w d a) s →
        (C.st = .running → exec (.ctxcFrz w d a) s = .next ((((s.endHolds ctx).modCtx ctx fun c => { c with
          st := .freezing, graceEnd := s.cycle + 20000, bkfull := false, backing := [], saved := [] }).postIn 20000
            (.freezeGraceEnd ctx)).lateResult d 0)) ∧
        (C.st = .freezing ∨ C.st = .thawing → exec (.ctxcFrz w d a) s = .next (s.lateResult d 1)) ∧
        (C.st = .frozen ∨ C.st = .empty → exec (.ctxcFrz w d a) s = .next (s.lateResult d 2))) ∧
      (Issues (.ctxcThaw w d a) s →
        (C.st = .frozen → exec (.ctxcThaw w d a) s = .next ((((s.modCtx ctx fun c => { c with st := .thawing }).headState ctx).postIn 4096
          (.thawDone ctx)).lateResult d 0)) ∧
        (C.st = .freezing ∨ C.st = .thawing → exec (.ctxcThaw w d a) s = .next (s.lateResult d 1)) ∧
        (C.st = .running ∨ C.st = .empty → exec (.ctxcThaw w d a) s = .next (s.lateResult d 2))) ∧
      (Issues (.ctxcTear w d a) s →
        (C.st = .frozen → exec (.ctxcTear w d a) s = .next ((s.tear ctx).lateResult d 0) ∧ (s.tear ctx).ctx ctx = {}) ∧
        (C.st = .freezing ∨ C.st = .thawing → exec (.ctxcTear w d a) s = .next (s.lateResult d 1)) ∧
        (C.st = .running ∨ C.st = .empty → exec (.ctxcTear w d a) s = .next (s.lateResult d 2)))) ∧
    -- ckpt (R388, R389)
    (Issues (.ckpt w d a b) s →
      (2 ^ 48 ≤ v.toNat → exec (.ckpt w d a b) s = .next (s.trapChan v 1)) ∧
      (v.toNat < 2 ^ 48 → eaBad va 64 = none → s.descWords va 1 = (.ok h, u) →
        let X := u.ctx k.ctx
        let mer := ((u.router (routerOfSrc u.cur)).surv.get k.ctx {}).mer
        let n := (h.getD 0 0).fld 15 0
        let walked := fun (z : State) => (declaredPages n ws ++ plainAt ((ws.getD 1 0).fld 47 0) ((ws.getD 2 0).fld 12 0 + 1) ++
          plainAt ((ws.getD 3 0).fld 47 0) ((ws.getD 4 0).fld 31 0)).foldl (fun s va => s.readWalk k.ctx va) z
        (X.ckpt.isSome = true → exec (.ckpt w d a b) s = .next (u.lateResult d (BitVec.ofNat 64 (2 ^ 63 + 2 ^ 56)))) ∧
        (X.ckpt = none → v.toNat ≤ tick mer → exec (.ckpt w d a b) s = .next (u.lateResult d (BitVec.ofNat 64 (2 ^ 63 + 4 * 2 ^ 56)))) ∧
        (X.ckpt = none → tick mer < v.toNat → (n = 0 ∨ 1024 < n) →
          exec (.ckpt w d a b) s = .next (u.lateResult d (BitVec.ofNat 64 (2 ^ 63 + 5 * 2 ^ 56)))) ∧
        (X.ckpt = none → tick mer < v.toNat → 1 ≤ n → n ≤ 1024 → u.descWords va (1 + (n + 3) / 4) = (.ok ws, z) →
          let z := walked z
          z.declared k.ctx n ws = some ps →
          z.plainPages k.ctx ((ws.getD 1 0).fld 47 0) ((ws.getD 2 0).fld 12 0 + 1) = some ar →
          z.plainPages k.ctx ((ws.getD 3 0).fld 47 0) ((ws.getD 4 0).fld 31 0) = some sh →
          exec (.ckpt w d a b) s = .next ((((ps.foldl (fun s p => s.touch p.leaf) z).modCtx k.ctx fun c => { c with
            ckpt := some { t := v.toNat, number := BitVec.ofNat 64 (X.cknum + 1).toNat, pages := ps, arch := ar
                           acap := (ws.getD 2 0).fld 12 0, shadow := sh } }).post (.tokenStart k.ctx)).lateResult d
              (BitVec.ofNat 64 ((X.cknum + 1).toNat % 2 ^ 32)))) ∧
        (X.ckpt = none → tick mer < v.toNat → 1 ≤ n → n ≤ 1024 → u.descWords va (1 + (n + 3) / 4) = (.ok ws, z) →
          let z := walked z
          (z.declared k.ctx n ws = none ∨ z.plainPages k.ctx ((ws.getD 1 0).fld 47 0) ((ws.getD 2 0).fld 12 0 + 1) = none ∨
            z.plainPages k.ctx ((ws.getD 3 0).fld 47 0) ((ws.getD 4 0).fld 31 0) = none) →
          exec (.ckpt w d a b) s = .next (z.lateResult d (BitVec.ofNat 64 (2 ^ 63 + 2 * 2 ^ 56))))))

/-- The grace of a freezing context is waited for (in full, log 61), then every running core stops between words with
its registers and pc, and once all is at rest the context is frozen; a thaw waits for the rectangle and ends in running
(here with a header that counts no backing entry). A created context has the descriptor given, its clusters (which start
from their reset values, log 108) and each byte of its image, where no context has a checkpoint for which pages would be
preserved first; one that firmware may not place is not created. That a thaw waits, in turns of 1,000 cycles, for the
contexts to which its rectangle is lent is the model's choice (log 93). (R377, R379, R384) -/
def Obligations.FreezeSteps : Prop :=
  ∀ (ctx : Nat) (l : Launch) (s : State),
    let C := s.ctx ctx
    -- freezing and thawing (R379, R384)
    (C.st = .freezing →
      (s.cycle < C.graceEnd → exec (.freezeGraceEnd ctx) s = .next (s.postIn (C.graceEnd - s.cycle) (.freezeGraceEnd ctx))) ∧
      (C.graceEnd ≤ s.cycle → (∀ i ∈ C.coreList, (s.core i).deferred = []) → ∃ t, exec (.freezeGraceEnd ctx) s = .next t ∧ ∀ i ∈ C.coreList,
        (s.core i).run = .running → (t.core i).run = .stopped ∧ (t.core i).regs = (s.core i).regs ∧
          (t.core i).pc = (s.core i).pc) ∧
      (s.resting ctx = false → exec (.freezeDone ctx) s = .next (s.post (.freezeGraceEnd ctx))) ∧
      (s.resting ctx = true → ∃ t, exec (.freezeDone ctx) s = .next t ∧ (t.ctx ctx).st = .frozen)) ∧
    (C.st = .thawing →
      (((s.lodgers ctx).any fun y => (s.ctx y).st != .frozen) = true →
        exec (.thawDone ctx) s = .next (s.postIn 1000 (.thawDone ctx))) ∧
      (s.lodgers ctx = [] → C.images = [] → memRead s.mem (C.save.toNat + 24) 8 = 0 → C.ckpt = none →
        ∃ t, exec (.thawDone ctx) s = .next t ∧ (t.ctx ctx).st = .running ∧ (t.ctx ctx).saved = [])) ∧
    (C.st ≠ .freezing → exec (.freezeGraceEnd ctx) s = .next s ∧ exec (.freezeDone ctx) s = .next s) ∧
    (C.st ≠ .thawing → exec (.thawDone ctx) s = .next s) ∧
    -- creation (R377)
    (s.mayCreate ctx l = false → exec (.contextCreate ctx l) s = .next s) ∧
    (s.mayCreate ctx l = true → (∀ p ∈ s.ctxs, p.2.ckpt = none) → ∃ t, exec (.contextCreate ctx l) s = .next t ∧ t.ctx ctx = launchCtx l ∧
      (∀ cl ∈ (launchCtx l).clusterList, (t.cluster cl).ctx = some ctx) ∧
      (∀ a, (∀ p ∈ l.image, p.1 ≠ a) → memGet t.mem a = memGet s.mem a) ∧
      (MemOk s → ∀ (first later : List (Nat × BitVec 8)) (a : Nat) (v : BitVec 8), l.image = first ++ (a, v) :: later →
        (∀ p ∈ later, p.1 ≠ a) → memGet t.mem a = v))

/-- A page of a checkpoint is preserved once, into the next free shadow page, or the checkpoint fails; the archive
engine begins once mer has reached the tick of the checkpoint, archives a page that is dirty or preserved, with its
index entry, passes over any other, fails when the archive is full, and after the last page the checkpoint is complete.
An index entry holds the page's virtual address and the low 32 bits of the number (the model's reading, log 89); the
translations of a page whose D is cleared are dropped (log 91). The leaf that is read has no error, and nothing keeps it
off. (R390, R391, R392) -/
def Obligations.CheckpointSteps : Prop :=
  ∀ (ctx page n : Nat) (K : Ckpt) (P : CkPage) (s : State),
    let C := s.ctx ctx
    -- preservation and the archive (R390 to R392)
    (C.ckpt = some K → K.archived.contains page = false → (∀ p ∈ K.preserved, p.1 ≠ page) → K.pages[page]? = some P →
      (K.shadow = [] → exec (.pagePreserve ctx page) s = .next
        ((s.modCtx ctx fun c => { c with ckpt := none }).note 0 ctx 0x12 K.number 1 0)) ∧
      (∀ to_ rest, K.shadow = to_ :: rest → exec (.pagePreserve ctx page) s = .next
        (((s.copyPage P.pa to_).clearD ctx P).modCtx ctx fun c => { c with
          ckpt := some { K with shadow := rest, preserved := K.preserved ++ [(page, to_)] } }))) ∧
    (C.ckpt = some K → (K.archived.contains page = true ∨ ∃ p ∈ K.preserved, p.1 = page) →
      exec (.pagePreserve ctx page) s = .next s) ∧
    (C.ckpt = some K → K.started = false → C.st = .running →
      (C.mer.toNat < K.t * 65536 → exec (.archiveStart ctx) s = .next s) ∧
      (K.t * 65536 ≤ C.mer.toNat → exec (.archiveStart ctx) s = .next
        ((s.modCtx ctx fun c => { c with ckpt := some { K with started := true } }).post (.archivePage ctx 0)))) ∧
    (C.ckpt = some K → K.started = true → K.next = page → C.st = .running →
      let goesOn := fun (u : State) (K : Ckpt) => exec (.archivePage ctx page) s = .next ((u.modCtx ctx fun c => { c with
        ckpt := some { K with next := page + 1, archived := K.archived ++ [page] } }).post (.archivePage ctx (page + 1)))
      let dirty := memRead s.mem P.leaf 8 / 256 % 2 = 1
      let dst := K.arch.getD (K.count + 1) 0
      let index := fun (u : State) => (u.deviceWrite (K.arch.getD 0 0 + 16 * K.count) 8 P.va).deviceWrite
        (K.arch.getD 0 0 + 16 * K.count + 8) 8 (K.number.toNat % 2 ^ 32)
      (K.pages[page]? = none → exec (.archivePage ctx page) s = .next (s.post (.checkpointComplete ctx))) ∧
      (K.pages[page]? = some P → K.preserved = [] → s.deviceRead P.leaf 8 = s →
        (¬dirty → goesOn s K) ∧
        (dirty → K.acap ≤ K.count → exec (.archivePage ctx page) s = .next
          ((s.modCtx ctx fun c => { c with ckpt := none }).note 0 ctx 0x12 K.number 2 0)) ∧
        (dirty → K.count < K.acap → goesOn (index ((s.clearD ctx P).copyPage P.pa dst)) { K with count := K.count + 1 })) ∧
      (K.pages[page]? = some P → K.preserved = [(page, n)] → K.count < K.acap → s.deviceRead P.leaf 8 = s →
        goesOn (index (s.copyPage n dst)) { K with count := K.count + 1, shadow := K.shadow ++ [n], preserved := [] })) ∧
    (C.ckpt = some K → K.started = true → K.pages.length ≤ K.next → exec (.checkpointComplete ctx) s = .next
      ((s.modCtx ctx fun c => { c with cknum := K.number, ckpt := none }).note 0 ctx 0x11 K.number (Word.of K.count) (Word.of K.t)))
end

