-- ==== Sys2Proof/Laws/Map.lean ====
section
/-! SUPPORT. Reading a sparse map after a write, and its canonical form. -/

namespace Sys2Proof

@[simp] theorem Map.get_set_same {α : Type} (m : Map α) (k : Nat) (v d : α) : Map.get (Map.set m k v) k d = v := by
  induction m with
  | nil => simp [Map.set, Map.get]
  | cons p t ih =>
    obtain ⟨j, u⟩ := p
    simp only [Map.set]
    split
    · simp [Map.get]
    · split
      · simp [Map.get]
      · rename_i h; simp [Map.get, ih, Ne.symm h]

@[simp] theorem Map.find_set_same {α : Type} (m : Map α) (k : Nat) (v : α) : Map.find (Map.set m k v) k = some v := by
  induction m with
  | nil => simp [Map.set, Map.find]
  | cons p t ih =>
    simp only [Map.set]
    split
    · simp [Map.find]
    · split
      · simp [Map.find]
      · next h => simp [Map.find, Ne.symm h, ih]

theorem Map.get_set_ne {α : Type} (m : Map α) {k j : Nat} (v d : α) (h : j ≠ k) :
    Map.get (Map.set m k v) j d = Map.get m j d := by
  induction m with
  | nil => simp [Map.set, Map.get, h.symm]
  | cons p t ih =>
    obtain ⟨i, u⟩ := p
    simp only [Map.set]
    split
    · simp [Map.get, h.symm]
    · split
      · rename_i e; subst e; simp [Map.get, h.symm]
      · simp only [Map.get, ih]

/-- A map keeps its form under a write. -/
theorem Map.risesFrom_set {α : Type} (m : Map α) (lo k : Nat) (v : α) (h : Map.risesFrom lo m = true) (hk : lo ≤ k) :
    Map.risesFrom lo (Map.set m k v) = true := by
  induction m generalizing lo with
  | nil => simp [Map.set, Map.risesFrom, hk]
  | cons p t ih =>
    obtain ⟨j, u⟩ := p
    simp only [Map.risesFrom, Bool.and_eq_true, decide_eq_true_eq] at h
    simp only [Map.set]
    split
    · simp only [Map.risesFrom, Bool.and_eq_true, decide_eq_true_eq]
      exact ⟨hk, by omega, h.2⟩
    · split
      · subst k; simp only [Map.risesFrom, Bool.and_eq_true, decide_eq_true_eq]; exact ⟨hk, h.2⟩
      · simp only [Map.risesFrom, Bool.and_eq_true, decide_eq_true_eq]
        exact ⟨h.1, ih (j + 1) h.2 (by omega)⟩

end Sys2Proof
end

