-- ==== Sys2Proof/Laws/State.lean ====
section
/-! SUPPORT. What each update of the state leaves alone: one lemma per field per update, so that no proof unfolds a record
update. -/

namespace Sys2Proof.Machine

/-! ### State.setCore -/

@[simp] theorem State.setCore_cycle (s : State) (c : Nat) (k : Core) : (s.setCore c k).cycle = s.cycle := rfl
@[simp] theorem State.setCore_cur (s : State) (c : Nat) (k : Core) : (s.setCore c k).cur = s.cur := rfl
@[simp] theorem State.setCore_agenda (s : State) (c : Nat) (k : Core) : (s.setCore c k).agenda = s.agenda := rfl
@[simp] theorem State.setCore_fresh (s : State) (c : Nat) (k : Core) : (s.setCore c k).fresh = s.fresh := rfl
@[simp] theorem State.setCore_nextId (s : State) (c : Nat) (k : Core) : (s.setCore c k).nextId = s.nextId := rfl
@[simp] theorem State.setCore_mem (s : State) (c : Nat) (k : Core) : (s.setCore c k).mem = s.mem := rfl
@[simp] theorem State.setCore_poison (s : State) (c : Nat) (k : Core) : (s.setCore c k).poison = s.poison := rfl
@[simp] theorem State.setCore_soft (s : State) (c : Nat) (k : Core) : (s.setCore c k).soft = s.soft := rfl
@[simp] theorem State.setCore_clusters (s : State) (c : Nat) (k : Core) : (s.setCore c k).clusters = s.clusters := rfl
@[simp] theorem State.setCore_routers (s : State) (c : Nat) (k : Core) : (s.setCore c k).routers = s.routers := rfl
@[simp] theorem State.setCore_walkers (s : State) (c : Nat) (k : Core) : (s.setCore c k).walkers = s.walkers := rfl
@[simp] theorem State.setCore_slices (s : State) (c : Nat) (k : Core) : (s.setCore c k).slices = s.slices := rfl
@[simp] theorem State.setCore_ctxs (s : State) (c : Nat) (k : Core) : (s.setCore c k).ctxs = s.ctxs := rfl
@[simp] theorem State.setCore_reqs (s : State) (c : Nat) (k : Core) : (s.setCore c k).reqs = s.reqs := rfl
@[simp] theorem State.setCore_queries (s : State) (c : Nat) (k : Core) : (s.setCore c k).queries = s.queries := rfl
@[simp] theorem State.setCore_mcasts (s : State) (c : Nat) (k : Core) : (s.setCore c k).mcasts = s.mcasts := rfl
@[simp] theorem State.setCore_links (s : State) (c : Nat) (k : Core) : (s.setCore c k).links = s.links := rfl
@[simp] theorem State.setCore_slsel (s : State) (c : Nat) (k : Core) : (s.setCore c k).slsel = s.slsel := rfl
@[simp] theorem State.setCore_slcols (s : State) (c : Nat) (k : Core) : (s.setCore c k).slcols = s.slcols := rfl
@[simp] theorem State.setCore_slbusy (s : State) (c : Nat) (k : Core) : (s.setCore c k).slbusy = s.slbusy := rfl
@[simp] theorem State.setCore_slcolsNew (s : State) (c : Nat) (k : Core) : (s.setCore c k).slcolsNew = s.slcolsNew := rfl
@[simp] theorem State.setCore_slwinNew (s : State) (c : Nat) (k : Core) : (s.setCore c k).slwinNew = s.slwinNew := rfl
@[simp] theorem State.setCore_nlsel (s : State) (c : Nat) (k : Core) : (s.setCore c k).nlsel = s.nlsel := rfl
@[simp] theorem State.setCore_frz (s : State) (c : Nat) (k : Core) : (s.setCore c k).frz = s.frz := rfl
@[simp] theorem State.setCore_nlidx (s : State) (c : Nat) (k : Core) : (s.setCore c k).nlidx = s.nlidx := rfl
@[simp] theorem State.setCore_lnksel (s : State) (c : Nat) (k : Core) : (s.setCore c k).lnksel = s.lnksel := rfl
@[simp] theorem State.setCore_cnsel (s : State) (c : Nat) (k : Core) : (s.setCore c k).cnsel = s.cnsel := rfl
@[simp] theorem State.setCore_cnrect (s : State) (c : Nat) (k : Core) : (s.setCore c k).cnrect = s.cnrect := rfl
@[simp] theorem State.setCore_cnctl (s : State) (c : Nat) (k : Core) : (s.setCore c k).cnctl = s.cnctl := rfl
@[simp] theorem State.setCore_cnapplied (s : State) (c : Nat) (k : Core) : (s.setCore c k).cnapplied = s.cnapplied := rfl
@[simp] theorem State.setCore_cnnaks (s : State) (c : Nat) (k : Core) : (s.setCore c k).cnnaks = s.cnnaks := rfl
@[simp] theorem State.setCore_vfs (s : State) (c : Nat) (k : Core) : (s.setCore c k).vfs = s.vfs := rfl
@[simp] theorem State.setCore_routes (s : State) (c : Nat) (k : Core) : (s.setCore c k).routes = s.routes := rfl
@[simp] theorem State.setCore_devReady (s : State) (c : Nat) (k : Core) : (s.setCore c k).devReady = s.devReady := rfl
@[simp] theorem State.setCore_fnbase (s : State) (c : Nat) (k : Core) : (s.setCore c k).fnbase = s.fnbase := rfl
@[simp] theorem State.setCore_fncap (s : State) (c : Nat) (k : Core) : (s.setCore c k).fncap = s.fncap := rfl
@[simp] theorem State.setCore_fntail (s : State) (c : Nat) (k : Core) : (s.setCore c k).fntail = s.fntail := rfl
@[simp] theorem State.setCore_domid (s : State) (c : Nat) (k : Core) : (s.setCore c k).domid = s.domid := rfl
@[simp] theorem State.setCore_windows (s : State) (c : Nat) (k : Core) : (s.setCore c k).windows = s.windows := rfl
@[simp] theorem State.setCore_abroad (s : State) (c : Nat) (k : Core) : (s.setCore c k).abroad = s.abroad := rfl
@[simp] theorem State.setCore_taken (s : State) (c : Nat) (k : Core) : (s.setCore c k).taken = s.taken := rfl
@[simp] theorem State.setCore_throttled (s : State) (c : Nat) (k : Core) : (s.setCore c k).throttled = s.throttled := rfl
@[simp] theorem State.setCore_lagging (s : State) (c : Nat) (k : Core) : (s.setCore c k).lagging = s.lagging := rfl
@[simp] theorem State.setCore_thr (s : State) (c : Nat) (k : Core) : (s.setCore c k).thr = s.thr := rfl
@[simp] theorem State.setCore_fwPosts (s : State) (c : Nat) (k : Core) : (s.setCore c k).fwPosts = s.fwPosts := rfl
@[simp] theorem State.setCore_blocked (s : State) (c : Nat) (k : Core) : (s.setCore c k).blocked = s.blocked := rfl

/-! ### State.modCore -/

@[simp] theorem State.modCore_cycle (s : State) (c : Nat) (f : Core → Core) : (s.modCore c f).cycle = s.cycle := rfl
@[simp] theorem State.modCore_cur (s : State) (c : Nat) (f : Core → Core) : (s.modCore c f).cur = s.cur := rfl
@[simp] theorem State.modCore_agenda (s : State) (c : Nat) (f : Core → Core) : (s.modCore c f).agenda = s.agenda := rfl
@[simp] theorem State.modCore_fresh (s : State) (c : Nat) (f : Core → Core) : (s.modCore c f).fresh = s.fresh := rfl
@[simp] theorem State.modCore_nextId (s : State) (c : Nat) (f : Core → Core) : (s.modCore c f).nextId = s.nextId := rfl
@[simp] theorem State.modCore_mem (s : State) (c : Nat) (f : Core → Core) : (s.modCore c f).mem = s.mem := rfl
@[simp] theorem State.modCore_poison (s : State) (c : Nat) (f : Core → Core) : (s.modCore c f).poison = s.poison := rfl
@[simp] theorem State.modCore_soft (s : State) (c : Nat) (f : Core → Core) : (s.modCore c f).soft = s.soft := rfl
@[simp] theorem State.modCore_clusters (s : State) (c : Nat) (f : Core → Core) : (s.modCore c f).clusters = s.clusters := rfl
@[simp] theorem State.modCore_routers (s : State) (c : Nat) (f : Core → Core) : (s.modCore c f).routers = s.routers := rfl
@[simp] theorem State.modCore_walkers (s : State) (c : Nat) (f : Core → Core) : (s.modCore c f).walkers = s.walkers := rfl
@[simp] theorem State.modCore_slices (s : State) (c : Nat) (f : Core → Core) : (s.modCore c f).slices = s.slices := rfl
@[simp] theorem State.modCore_ctxs (s : State) (c : Nat) (f : Core → Core) : (s.modCore c f).ctxs = s.ctxs := rfl
@[simp] theorem State.modCore_reqs (s : State) (c : Nat) (f : Core → Core) : (s.modCore c f).reqs = s.reqs := rfl
@[simp] theorem State.modCore_queries (s : State) (c : Nat) (f : Core → Core) : (s.modCore c f).queries = s.queries := rfl
@[simp] theorem State.modCore_mcasts (s : State) (c : Nat) (f : Core → Core) : (s.modCore c f).mcasts = s.mcasts := rfl
@[simp] theorem State.modCore_links (s : State) (c : Nat) (f : Core → Core) : (s.modCore c f).links = s.links := rfl
@[simp] theorem State.modCore_slsel (s : State) (c : Nat) (f : Core → Core) : (s.modCore c f).slsel = s.slsel := rfl
@[simp] theorem State.modCore_slcols (s : State) (c : Nat) (f : Core → Core) : (s.modCore c f).slcols = s.slcols := rfl
@[simp] theorem State.modCore_slbusy (s : State) (c : Nat) (f : Core → Core) : (s.modCore c f).slbusy = s.slbusy := rfl
@[simp] theorem State.modCore_slcolsNew (s : State) (c : Nat) (f : Core → Core) : (s.modCore c f).slcolsNew = s.slcolsNew := rfl
@[simp] theorem State.modCore_slwinNew (s : State) (c : Nat) (f : Core → Core) : (s.modCore c f).slwinNew = s.slwinNew := rfl
@[simp] theorem State.modCore_nlsel (s : State) (c : Nat) (f : Core → Core) : (s.modCore c f).nlsel = s.nlsel := rfl
@[simp] theorem State.modCore_frz (s : State) (c : Nat) (f : Core → Core) : (s.modCore c f).frz = s.frz := rfl
@[simp] theorem State.modCore_nlidx (s : State) (c : Nat) (f : Core → Core) : (s.modCore c f).nlidx = s.nlidx := rfl
@[simp] theorem State.modCore_lnksel (s : State) (c : Nat) (f : Core → Core) : (s.modCore c f).lnksel = s.lnksel := rfl
@[simp] theorem State.modCore_cnsel (s : State) (c : Nat) (f : Core → Core) : (s.modCore c f).cnsel = s.cnsel := rfl
@[simp] theorem State.modCore_cnrect (s : State) (c : Nat) (f : Core → Core) : (s.modCore c f).cnrect = s.cnrect := rfl
@[simp] theorem State.modCore_cnctl (s : State) (c : Nat) (f : Core → Core) : (s.modCore c f).cnctl = s.cnctl := rfl
@[simp] theorem State.modCore_cnapplied (s : State) (c : Nat) (f : Core → Core) : (s.modCore c f).cnapplied = s.cnapplied := rfl
@[simp] theorem State.modCore_cnnaks (s : State) (c : Nat) (f : Core → Core) : (s.modCore c f).cnnaks = s.cnnaks := rfl
@[simp] theorem State.modCore_vfs (s : State) (c : Nat) (f : Core → Core) : (s.modCore c f).vfs = s.vfs := rfl
@[simp] theorem State.modCore_routes (s : State) (c : Nat) (f : Core → Core) : (s.modCore c f).routes = s.routes := rfl
@[simp] theorem State.modCore_devReady (s : State) (c : Nat) (f : Core → Core) : (s.modCore c f).devReady = s.devReady := rfl
@[simp] theorem State.modCore_fnbase (s : State) (c : Nat) (f : Core → Core) : (s.modCore c f).fnbase = s.fnbase := rfl
@[simp] theorem State.modCore_fncap (s : State) (c : Nat) (f : Core → Core) : (s.modCore c f).fncap = s.fncap := rfl
@[simp] theorem State.modCore_fntail (s : State) (c : Nat) (f : Core → Core) : (s.modCore c f).fntail = s.fntail := rfl
@[simp] theorem State.modCore_domid (s : State) (c : Nat) (f : Core → Core) : (s.modCore c f).domid = s.domid := rfl
@[simp] theorem State.modCore_windows (s : State) (c : Nat) (f : Core → Core) : (s.modCore c f).windows = s.windows := rfl
@[simp] theorem State.modCore_abroad (s : State) (c : Nat) (f : Core → Core) : (s.modCore c f).abroad = s.abroad := rfl
@[simp] theorem State.modCore_taken (s : State) (c : Nat) (f : Core → Core) : (s.modCore c f).taken = s.taken := rfl
@[simp] theorem State.modCore_throttled (s : State) (c : Nat) (f : Core → Core) : (s.modCore c f).throttled = s.throttled := rfl
@[simp] theorem State.modCore_lagging (s : State) (c : Nat) (f : Core → Core) : (s.modCore c f).lagging = s.lagging := rfl
@[simp] theorem State.modCore_thr (s : State) (c : Nat) (f : Core → Core) : (s.modCore c f).thr = s.thr := rfl
@[simp] theorem State.modCore_fwPosts (s : State) (c : Nat) (f : Core → Core) : (s.modCore c f).fwPosts = s.fwPosts := rfl
@[simp] theorem State.modCore_blocked (s : State) (c : Nat) (f : Core → Core) : (s.modCore c f).blocked = s.blocked := rfl

/-! ### State.modMe -/

@[simp] theorem State.modMe_cycle (s : State) (f : Core → Core) : (s.modMe f).cycle = s.cycle := rfl
@[simp] theorem State.modMe_cur (s : State) (f : Core → Core) : (s.modMe f).cur = s.cur := rfl
@[simp] theorem State.modMe_agenda (s : State) (f : Core → Core) : (s.modMe f).agenda = s.agenda := rfl
@[simp] theorem State.modMe_fresh (s : State) (f : Core → Core) : (s.modMe f).fresh = s.fresh := rfl
@[simp] theorem State.modMe_nextId (s : State) (f : Core → Core) : (s.modMe f).nextId = s.nextId := rfl
@[simp] theorem State.modMe_mem (s : State) (f : Core → Core) : (s.modMe f).mem = s.mem := rfl
@[simp] theorem State.modMe_poison (s : State) (f : Core → Core) : (s.modMe f).poison = s.poison := rfl
@[simp] theorem State.modMe_soft (s : State) (f : Core → Core) : (s.modMe f).soft = s.soft := rfl
@[simp] theorem State.modMe_clusters (s : State) (f : Core → Core) : (s.modMe f).clusters = s.clusters := rfl
@[simp] theorem State.modMe_routers (s : State) (f : Core → Core) : (s.modMe f).routers = s.routers := rfl
@[simp] theorem State.modMe_walkers (s : State) (f : Core → Core) : (s.modMe f).walkers = s.walkers := rfl
@[simp] theorem State.modMe_slices (s : State) (f : Core → Core) : (s.modMe f).slices = s.slices := rfl
@[simp] theorem State.modMe_ctxs (s : State) (f : Core → Core) : (s.modMe f).ctxs = s.ctxs := rfl
@[simp] theorem State.modMe_reqs (s : State) (f : Core → Core) : (s.modMe f).reqs = s.reqs := rfl
@[simp] theorem State.modMe_queries (s : State) (f : Core → Core) : (s.modMe f).queries = s.queries := rfl
@[simp] theorem State.modMe_mcasts (s : State) (f : Core → Core) : (s.modMe f).mcasts = s.mcasts := rfl
@[simp] theorem State.modMe_links (s : State) (f : Core → Core) : (s.modMe f).links = s.links := rfl
@[simp] theorem State.modMe_slsel (s : State) (f : Core → Core) : (s.modMe f).slsel = s.slsel := rfl
@[simp] theorem State.modMe_slcols (s : State) (f : Core → Core) : (s.modMe f).slcols = s.slcols := rfl
@[simp] theorem State.modMe_slbusy (s : State) (f : Core → Core) : (s.modMe f).slbusy = s.slbusy := rfl
@[simp] theorem State.modMe_slcolsNew (s : State) (f : Core → Core) : (s.modMe f).slcolsNew = s.slcolsNew := rfl
@[simp] theorem State.modMe_slwinNew (s : State) (f : Core → Core) : (s.modMe f).slwinNew = s.slwinNew := rfl
@[simp] theorem State.modMe_nlsel (s : State) (f : Core → Core) : (s.modMe f).nlsel = s.nlsel := rfl
@[simp] theorem State.modMe_frz (s : State) (f : Core → Core) : (s.modMe f).frz = s.frz := rfl
@[simp] theorem State.modMe_nlidx (s : State) (f : Core → Core) : (s.modMe f).nlidx = s.nlidx := rfl
@[simp] theorem State.modMe_lnksel (s : State) (f : Core → Core) : (s.modMe f).lnksel = s.lnksel := rfl
@[simp] theorem State.modMe_cnsel (s : State) (f : Core → Core) : (s.modMe f).cnsel = s.cnsel := rfl
@[simp] theorem State.modMe_cnrect (s : State) (f : Core → Core) : (s.modMe f).cnrect = s.cnrect := rfl
@[simp] theorem State.modMe_cnctl (s : State) (f : Core → Core) : (s.modMe f).cnctl = s.cnctl := rfl
@[simp] theorem State.modMe_cnapplied (s : State) (f : Core → Core) : (s.modMe f).cnapplied = s.cnapplied := rfl
@[simp] theorem State.modMe_cnnaks (s : State) (f : Core → Core) : (s.modMe f).cnnaks = s.cnnaks := rfl
@[simp] theorem State.modMe_vfs (s : State) (f : Core → Core) : (s.modMe f).vfs = s.vfs := rfl
@[simp] theorem State.modMe_routes (s : State) (f : Core → Core) : (s.modMe f).routes = s.routes := rfl
@[simp] theorem State.modMe_devReady (s : State) (f : Core → Core) : (s.modMe f).devReady = s.devReady := rfl
@[simp] theorem State.modMe_fnbase (s : State) (f : Core → Core) : (s.modMe f).fnbase = s.fnbase := rfl
@[simp] theorem State.modMe_fncap (s : State) (f : Core → Core) : (s.modMe f).fncap = s.fncap := rfl
@[simp] theorem State.modMe_fntail (s : State) (f : Core → Core) : (s.modMe f).fntail = s.fntail := rfl
@[simp] theorem State.modMe_domid (s : State) (f : Core → Core) : (s.modMe f).domid = s.domid := rfl
@[simp] theorem State.modMe_windows (s : State) (f : Core → Core) : (s.modMe f).windows = s.windows := rfl
@[simp] theorem State.modMe_abroad (s : State) (f : Core → Core) : (s.modMe f).abroad = s.abroad := rfl
@[simp] theorem State.modMe_taken (s : State) (f : Core → Core) : (s.modMe f).taken = s.taken := rfl
@[simp] theorem State.modMe_throttled (s : State) (f : Core → Core) : (s.modMe f).throttled = s.throttled := rfl
@[simp] theorem State.modMe_lagging (s : State) (f : Core → Core) : (s.modMe f).lagging = s.lagging := rfl
@[simp] theorem State.modMe_thr (s : State) (f : Core → Core) : (s.modMe f).thr = s.thr := rfl
@[simp] theorem State.modMe_fwPosts (s : State) (f : Core → Core) : (s.modMe f).fwPosts = s.fwPosts := rfl
@[simp] theorem State.modMe_blocked (s : State) (f : Core → Core) : (s.modMe f).blocked = s.blocked := rfl

/-! ### State.setCluster -/

@[simp] theorem State.setCluster_cycle (s : State) (c : Nat) (k : Cluster) : (s.setCluster c k).cycle = s.cycle := rfl
@[simp] theorem State.setCluster_cur (s : State) (c : Nat) (k : Cluster) : (s.setCluster c k).cur = s.cur := rfl
@[simp] theorem State.setCluster_agenda (s : State) (c : Nat) (k : Cluster) : (s.setCluster c k).agenda = s.agenda := rfl
@[simp] theorem State.setCluster_fresh (s : State) (c : Nat) (k : Cluster) : (s.setCluster c k).fresh = s.fresh := rfl
@[simp] theorem State.setCluster_nextId (s : State) (c : Nat) (k : Cluster) : (s.setCluster c k).nextId = s.nextId := rfl
@[simp] theorem State.setCluster_mem (s : State) (c : Nat) (k : Cluster) : (s.setCluster c k).mem = s.mem := rfl
@[simp] theorem State.setCluster_poison (s : State) (c : Nat) (k : Cluster) : (s.setCluster c k).poison = s.poison := rfl
@[simp] theorem State.setCluster_soft (s : State) (c : Nat) (k : Cluster) : (s.setCluster c k).soft = s.soft := rfl
@[simp] theorem State.setCluster_cores (s : State) (c : Nat) (k : Cluster) : (s.setCluster c k).cores = s.cores := rfl
@[simp] theorem State.setCluster_routers (s : State) (c : Nat) (k : Cluster) : (s.setCluster c k).routers = s.routers := rfl
@[simp] theorem State.setCluster_walkers (s : State) (c : Nat) (k : Cluster) : (s.setCluster c k).walkers = s.walkers := rfl
@[simp] theorem State.setCluster_slices (s : State) (c : Nat) (k : Cluster) : (s.setCluster c k).slices = s.slices := rfl
@[simp] theorem State.setCluster_ctxs (s : State) (c : Nat) (k : Cluster) : (s.setCluster c k).ctxs = s.ctxs := rfl
@[simp] theorem State.setCluster_reqs (s : State) (c : Nat) (k : Cluster) : (s.setCluster c k).reqs = s.reqs := rfl
@[simp] theorem State.setCluster_queries (s : State) (c : Nat) (k : Cluster) : (s.setCluster c k).queries = s.queries := rfl
@[simp] theorem State.setCluster_mcasts (s : State) (c : Nat) (k : Cluster) : (s.setCluster c k).mcasts = s.mcasts := rfl
@[simp] theorem State.setCluster_links (s : State) (c : Nat) (k : Cluster) : (s.setCluster c k).links = s.links := rfl
@[simp] theorem State.setCluster_slsel (s : State) (c : Nat) (k : Cluster) : (s.setCluster c k).slsel = s.slsel := rfl
@[simp] theorem State.setCluster_slcols (s : State) (c : Nat) (k : Cluster) : (s.setCluster c k).slcols = s.slcols := rfl
@[simp] theorem State.setCluster_slbusy (s : State) (c : Nat) (k : Cluster) : (s.setCluster c k).slbusy = s.slbusy := rfl
@[simp] theorem State.setCluster_slcolsNew (s : State) (c : Nat) (k : Cluster) : (s.setCluster c k).slcolsNew = s.slcolsNew := rfl
@[simp] theorem State.setCluster_slwinNew (s : State) (c : Nat) (k : Cluster) : (s.setCluster c k).slwinNew = s.slwinNew := rfl
@[simp] theorem State.setCluster_nlsel (s : State) (c : Nat) (k : Cluster) : (s.setCluster c k).nlsel = s.nlsel := rfl
@[simp] theorem State.setCluster_frz (s : State) (c : Nat) (k : Cluster) : (s.setCluster c k).frz = s.frz := rfl
@[simp] theorem State.setCluster_nlidx (s : State) (c : Nat) (k : Cluster) : (s.setCluster c k).nlidx = s.nlidx := rfl
@[simp] theorem State.setCluster_lnksel (s : State) (c : Nat) (k : Cluster) : (s.setCluster c k).lnksel = s.lnksel := rfl
@[simp] theorem State.setCluster_cnsel (s : State) (c : Nat) (k : Cluster) : (s.setCluster c k).cnsel = s.cnsel := rfl
@[simp] theorem State.setCluster_cnrect (s : State) (c : Nat) (k : Cluster) : (s.setCluster c k).cnrect = s.cnrect := rfl
@[simp] theorem State.setCluster_cnctl (s : State) (c : Nat) (k : Cluster) : (s.setCluster c k).cnctl = s.cnctl := rfl
@[simp] theorem State.setCluster_cnapplied (s : State) (c : Nat) (k : Cluster) : (s.setCluster c k).cnapplied = s.cnapplied := rfl
@[simp] theorem State.setCluster_cnnaks (s : State) (c : Nat) (k : Cluster) : (s.setCluster c k).cnnaks = s.cnnaks := rfl
@[simp] theorem State.setCluster_vfs (s : State) (c : Nat) (k : Cluster) : (s.setCluster c k).vfs = s.vfs := rfl
@[simp] theorem State.setCluster_routes (s : State) (c : Nat) (k : Cluster) : (s.setCluster c k).routes = s.routes := rfl
@[simp] theorem State.setCluster_devReady (s : State) (c : Nat) (k : Cluster) : (s.setCluster c k).devReady = s.devReady := rfl
@[simp] theorem State.setCluster_fnbase (s : State) (c : Nat) (k : Cluster) : (s.setCluster c k).fnbase = s.fnbase := rfl
@[simp] theorem State.setCluster_fncap (s : State) (c : Nat) (k : Cluster) : (s.setCluster c k).fncap = s.fncap := rfl
@[simp] theorem State.setCluster_fntail (s : State) (c : Nat) (k : Cluster) : (s.setCluster c k).fntail = s.fntail := rfl
@[simp] theorem State.setCluster_domid (s : State) (c : Nat) (k : Cluster) : (s.setCluster c k).domid = s.domid := rfl
@[simp] theorem State.setCluster_windows (s : State) (c : Nat) (k : Cluster) : (s.setCluster c k).windows = s.windows := rfl
@[simp] theorem State.setCluster_abroad (s : State) (c : Nat) (k : Cluster) : (s.setCluster c k).abroad = s.abroad := rfl
@[simp] theorem State.setCluster_taken (s : State) (c : Nat) (k : Cluster) : (s.setCluster c k).taken = s.taken := rfl
@[simp] theorem State.setCluster_throttled (s : State) (c : Nat) (k : Cluster) : (s.setCluster c k).throttled = s.throttled := rfl
@[simp] theorem State.setCluster_lagging (s : State) (c : Nat) (k : Cluster) : (s.setCluster c k).lagging = s.lagging := rfl
@[simp] theorem State.setCluster_thr (s : State) (c : Nat) (k : Cluster) : (s.setCluster c k).thr = s.thr := rfl
@[simp] theorem State.setCluster_fwPosts (s : State) (c : Nat) (k : Cluster) : (s.setCluster c k).fwPosts = s.fwPosts := rfl
@[simp] theorem State.setCluster_blocked (s : State) (c : Nat) (k : Cluster) : (s.setCluster c k).blocked = s.blocked := rfl

/-! ### State.modCluster -/

@[simp] theorem State.modCluster_cycle (s : State) (c : Nat) (f : Cluster → Cluster) : (s.modCluster c f).cycle = s.cycle := rfl
@[simp] theorem State.modCluster_cur (s : State) (c : Nat) (f : Cluster → Cluster) : (s.modCluster c f).cur = s.cur := rfl
@[simp] theorem State.modCluster_agenda (s : State) (c : Nat) (f : Cluster → Cluster) : (s.modCluster c f).agenda = s.agenda := rfl
@[simp] theorem State.modCluster_fresh (s : State) (c : Nat) (f : Cluster → Cluster) : (s.modCluster c f).fresh = s.fresh := rfl
@[simp] theorem State.modCluster_nextId (s : State) (c : Nat) (f : Cluster → Cluster) : (s.modCluster c f).nextId = s.nextId := rfl
@[simp] theorem State.modCluster_mem (s : State) (c : Nat) (f : Cluster → Cluster) : (s.modCluster c f).mem = s.mem := rfl
@[simp] theorem State.modCluster_poison (s : State) (c : Nat) (f : Cluster → Cluster) : (s.modCluster c f).poison = s.poison := rfl
@[simp] theorem State.modCluster_soft (s : State) (c : Nat) (f : Cluster → Cluster) : (s.modCluster c f).soft = s.soft := rfl
@[simp] theorem State.modCluster_cores (s : State) (c : Nat) (f : Cluster → Cluster) : (s.modCluster c f).cores = s.cores := rfl
@[simp] theorem State.modCluster_routers (s : State) (c : Nat) (f : Cluster → Cluster) : (s.modCluster c f).routers = s.routers := rfl
@[simp] theorem State.modCluster_walkers (s : State) (c : Nat) (f : Cluster → Cluster) : (s.modCluster c f).walkers = s.walkers := rfl
@[simp] theorem State.modCluster_slices (s : State) (c : Nat) (f : Cluster → Cluster) : (s.modCluster c f).slices = s.slices := rfl
@[simp] theorem State.modCluster_ctxs (s : State) (c : Nat) (f : Cluster → Cluster) : (s.modCluster c f).ctxs = s.ctxs := rfl
@[simp] theorem State.modCluster_reqs (s : State) (c : Nat) (f : Cluster → Cluster) : (s.modCluster c f).reqs = s.reqs := rfl
@[simp] theorem State.modCluster_queries (s : State) (c : Nat) (f : Cluster → Cluster) : (s.modCluster c f).queries = s.queries := rfl
@[simp] theorem State.modCluster_mcasts (s : State) (c : Nat) (f : Cluster → Cluster) : (s.modCluster c f).mcasts = s.mcasts := rfl
@[simp] theorem State.modCluster_links (s : State) (c : Nat) (f : Cluster → Cluster) : (s.modCluster c f).links = s.links := rfl
@[simp] theorem State.modCluster_slsel (s : State) (c : Nat) (f : Cluster → Cluster) : (s.modCluster c f).slsel = s.slsel := rfl
@[simp] theorem State.modCluster_slcols (s : State) (c : Nat) (f : Cluster → Cluster) : (s.modCluster c f).slcols = s.slcols := rfl
@[simp] theorem State.modCluster_slbusy (s : State) (c : Nat) (f : Cluster → Cluster) : (s.modCluster c f).slbusy = s.slbusy := rfl
@[simp] theorem State.modCluster_slcolsNew (s : State) (c : Nat) (f : Cluster → Cluster) : (s.modCluster c f).slcolsNew = s.slcolsNew := rfl
@[simp] theorem State.modCluster_slwinNew (s : State) (c : Nat) (f : Cluster → Cluster) : (s.modCluster c f).slwinNew = s.slwinNew := rfl
@[simp] theorem State.modCluster_nlsel (s : State) (c : Nat) (f : Cluster → Cluster) : (s.modCluster c f).nlsel = s.nlsel := rfl
@[simp] theorem State.modCluster_frz (s : State) (c : Nat) (f : Cluster → Cluster) : (s.modCluster c f).frz = s.frz := rfl
@[simp] theorem State.modCluster_nlidx (s : State) (c : Nat) (f : Cluster → Cluster) : (s.modCluster c f).nlidx = s.nlidx := rfl
@[simp] theorem State.modCluster_lnksel (s : State) (c : Nat) (f : Cluster → Cluster) : (s.modCluster c f).lnksel = s.lnksel := rfl
@[simp] theorem State.modCluster_cnsel (s : State) (c : Nat) (f : Cluster → Cluster) : (s.modCluster c f).cnsel = s.cnsel := rfl
@[simp] theorem State.modCluster_cnrect (s : State) (c : Nat) (f : Cluster → Cluster) : (s.modCluster c f).cnrect = s.cnrect := rfl
@[simp] theorem State.modCluster_cnctl (s : State) (c : Nat) (f : Cluster → Cluster) : (s.modCluster c f).cnctl = s.cnctl := rfl
@[simp] theorem State.modCluster_cnapplied (s : State) (c : Nat) (f : Cluster → Cluster) : (s.modCluster c f).cnapplied = s.cnapplied := rfl
@[simp] theorem State.modCluster_cnnaks (s : State) (c : Nat) (f : Cluster → Cluster) : (s.modCluster c f).cnnaks = s.cnnaks := rfl
@[simp] theorem State.modCluster_vfs (s : State) (c : Nat) (f : Cluster → Cluster) : (s.modCluster c f).vfs = s.vfs := rfl
@[simp] theorem State.modCluster_routes (s : State) (c : Nat) (f : Cluster → Cluster) : (s.modCluster c f).routes = s.routes := rfl
@[simp] theorem State.modCluster_devReady (s : State) (c : Nat) (f : Cluster → Cluster) : (s.modCluster c f).devReady = s.devReady := rfl
@[simp] theorem State.modCluster_fnbase (s : State) (c : Nat) (f : Cluster → Cluster) : (s.modCluster c f).fnbase = s.fnbase := rfl
@[simp] theorem State.modCluster_fncap (s : State) (c : Nat) (f : Cluster → Cluster) : (s.modCluster c f).fncap = s.fncap := rfl
@[simp] theorem State.modCluster_fntail (s : State) (c : Nat) (f : Cluster → Cluster) : (s.modCluster c f).fntail = s.fntail := rfl
@[simp] theorem State.modCluster_domid (s : State) (c : Nat) (f : Cluster → Cluster) : (s.modCluster c f).domid = s.domid := rfl
@[simp] theorem State.modCluster_windows (s : State) (c : Nat) (f : Cluster → Cluster) : (s.modCluster c f).windows = s.windows := rfl
@[simp] theorem State.modCluster_abroad (s : State) (c : Nat) (f : Cluster → Cluster) : (s.modCluster c f).abroad = s.abroad := rfl
@[simp] theorem State.modCluster_taken (s : State) (c : Nat) (f : Cluster → Cluster) : (s.modCluster c f).taken = s.taken := rfl
@[simp] theorem State.modCluster_throttled (s : State) (c : Nat) (f : Cluster → Cluster) : (s.modCluster c f).throttled = s.throttled := rfl
@[simp] theorem State.modCluster_lagging (s : State) (c : Nat) (f : Cluster → Cluster) : (s.modCluster c f).lagging = s.lagging := rfl
@[simp] theorem State.modCluster_thr (s : State) (c : Nat) (f : Cluster → Cluster) : (s.modCluster c f).thr = s.thr := rfl
@[simp] theorem State.modCluster_fwPosts (s : State) (c : Nat) (f : Cluster → Cluster) : (s.modCluster c f).fwPosts = s.fwPosts := rfl
@[simp] theorem State.modCluster_blocked (s : State) (c : Nat) (f : Cluster → Cluster) : (s.modCluster c f).blocked = s.blocked := rfl

/-! ### State.modRouter -/

@[simp] theorem State.modRouter_cycle (s : State) (r : Nat) (f : Router → Router) : (s.modRouter r f).cycle = s.cycle := rfl
@[simp] theorem State.modRouter_cur (s : State) (r : Nat) (f : Router → Router) : (s.modRouter r f).cur = s.cur := rfl
@[simp] theorem State.modRouter_agenda (s : State) (r : Nat) (f : Router → Router) : (s.modRouter r f).agenda = s.agenda := rfl
@[simp] theorem State.modRouter_fresh (s : State) (r : Nat) (f : Router → Router) : (s.modRouter r f).fresh = s.fresh := rfl
@[simp] theorem State.modRouter_nextId (s : State) (r : Nat) (f : Router → Router) : (s.modRouter r f).nextId = s.nextId := rfl
@[simp] theorem State.modRouter_mem (s : State) (r : Nat) (f : Router → Router) : (s.modRouter r f).mem = s.mem := rfl
@[simp] theorem State.modRouter_poison (s : State) (r : Nat) (f : Router → Router) : (s.modRouter r f).poison = s.poison := rfl
@[simp] theorem State.modRouter_soft (s : State) (r : Nat) (f : Router → Router) : (s.modRouter r f).soft = s.soft := rfl
@[simp] theorem State.modRouter_cores (s : State) (r : Nat) (f : Router → Router) : (s.modRouter r f).cores = s.cores := rfl
@[simp] theorem State.modRouter_clusters (s : State) (r : Nat) (f : Router → Router) : (s.modRouter r f).clusters = s.clusters := rfl
@[simp] theorem State.modRouter_walkers (s : State) (r : Nat) (f : Router → Router) : (s.modRouter r f).walkers = s.walkers := rfl
@[simp] theorem State.modRouter_slices (s : State) (r : Nat) (f : Router → Router) : (s.modRouter r f).slices = s.slices := rfl
@[simp] theorem State.modRouter_ctxs (s : State) (r : Nat) (f : Router → Router) : (s.modRouter r f).ctxs = s.ctxs := rfl
@[simp] theorem State.modRouter_reqs (s : State) (r : Nat) (f : Router → Router) : (s.modRouter r f).reqs = s.reqs := rfl
@[simp] theorem State.modRouter_queries (s : State) (r : Nat) (f : Router → Router) : (s.modRouter r f).queries = s.queries := rfl
@[simp] theorem State.modRouter_mcasts (s : State) (r : Nat) (f : Router → Router) : (s.modRouter r f).mcasts = s.mcasts := rfl
@[simp] theorem State.modRouter_links (s : State) (r : Nat) (f : Router → Router) : (s.modRouter r f).links = s.links := rfl
@[simp] theorem State.modRouter_slsel (s : State) (r : Nat) (f : Router → Router) : (s.modRouter r f).slsel = s.slsel := rfl
@[simp] theorem State.modRouter_slcols (s : State) (r : Nat) (f : Router → Router) : (s.modRouter r f).slcols = s.slcols := rfl
@[simp] theorem State.modRouter_slbusy (s : State) (r : Nat) (f : Router → Router) : (s.modRouter r f).slbusy = s.slbusy := rfl
@[simp] theorem State.modRouter_slcolsNew (s : State) (r : Nat) (f : Router → Router) : (s.modRouter r f).slcolsNew = s.slcolsNew := rfl
@[simp] theorem State.modRouter_slwinNew (s : State) (r : Nat) (f : Router → Router) : (s.modRouter r f).slwinNew = s.slwinNew := rfl
@[simp] theorem State.modRouter_nlsel (s : State) (r : Nat) (f : Router → Router) : (s.modRouter r f).nlsel = s.nlsel := rfl
@[simp] theorem State.modRouter_frz (s : State) (r : Nat) (f : Router → Router) : (s.modRouter r f).frz = s.frz := rfl
@[simp] theorem State.modRouter_nlidx (s : State) (r : Nat) (f : Router → Router) : (s.modRouter r f).nlidx = s.nlidx := rfl
@[simp] theorem State.modRouter_lnksel (s : State) (r : Nat) (f : Router → Router) : (s.modRouter r f).lnksel = s.lnksel := rfl
@[simp] theorem State.modRouter_cnsel (s : State) (r : Nat) (f : Router → Router) : (s.modRouter r f).cnsel = s.cnsel := rfl
@[simp] theorem State.modRouter_cnrect (s : State) (r : Nat) (f : Router → Router) : (s.modRouter r f).cnrect = s.cnrect := rfl
@[simp] theorem State.modRouter_cnctl (s : State) (r : Nat) (f : Router → Router) : (s.modRouter r f).cnctl = s.cnctl := rfl
@[simp] theorem State.modRouter_cnapplied (s : State) (r : Nat) (f : Router → Router) : (s.modRouter r f).cnapplied = s.cnapplied := rfl
@[simp] theorem State.modRouter_cnnaks (s : State) (r : Nat) (f : Router → Router) : (s.modRouter r f).cnnaks = s.cnnaks := rfl
@[simp] theorem State.modRouter_vfs (s : State) (r : Nat) (f : Router → Router) : (s.modRouter r f).vfs = s.vfs := rfl
@[simp] theorem State.modRouter_routes (s : State) (r : Nat) (f : Router → Router) : (s.modRouter r f).routes = s.routes := rfl
@[simp] theorem State.modRouter_devReady (s : State) (r : Nat) (f : Router → Router) : (s.modRouter r f).devReady = s.devReady := rfl
@[simp] theorem State.modRouter_fnbase (s : State) (r : Nat) (f : Router → Router) : (s.modRouter r f).fnbase = s.fnbase := rfl
@[simp] theorem State.modRouter_fncap (s : State) (r : Nat) (f : Router → Router) : (s.modRouter r f).fncap = s.fncap := rfl
@[simp] theorem State.modRouter_fntail (s : State) (r : Nat) (f : Router → Router) : (s.modRouter r f).fntail = s.fntail := rfl
@[simp] theorem State.modRouter_domid (s : State) (r : Nat) (f : Router → Router) : (s.modRouter r f).domid = s.domid := rfl
@[simp] theorem State.modRouter_windows (s : State) (r : Nat) (f : Router → Router) : (s.modRouter r f).windows = s.windows := rfl
@[simp] theorem State.modRouter_abroad (s : State) (r : Nat) (f : Router → Router) : (s.modRouter r f).abroad = s.abroad := rfl
@[simp] theorem State.modRouter_taken (s : State) (r : Nat) (f : Router → Router) : (s.modRouter r f).taken = s.taken := rfl
@[simp] theorem State.modRouter_throttled (s : State) (r : Nat) (f : Router → Router) : (s.modRouter r f).throttled = s.throttled := rfl
@[simp] theorem State.modRouter_lagging (s : State) (r : Nat) (f : Router → Router) : (s.modRouter r f).lagging = s.lagging := rfl
@[simp] theorem State.modRouter_thr (s : State) (r : Nat) (f : Router → Router) : (s.modRouter r f).thr = s.thr := rfl
@[simp] theorem State.modRouter_fwPosts (s : State) (r : Nat) (f : Router → Router) : (s.modRouter r f).fwPosts = s.fwPosts := rfl
@[simp] theorem State.modRouter_blocked (s : State) (r : Nat) (f : Router → Router) : (s.modRouter r f).blocked = s.blocked := rfl

/-! ### State.modWalker -/

@[simp] theorem State.modWalker_cycle (s : State) (i : Nat) (f : Walker → Walker) : (s.modWalker i f).cycle = s.cycle := rfl
@[simp] theorem State.modWalker_cur (s : State) (i : Nat) (f : Walker → Walker) : (s.modWalker i f).cur = s.cur := rfl
@[simp] theorem State.modWalker_agenda (s : State) (i : Nat) (f : Walker → Walker) : (s.modWalker i f).agenda = s.agenda := rfl
@[simp] theorem State.modWalker_fresh (s : State) (i : Nat) (f : Walker → Walker) : (s.modWalker i f).fresh = s.fresh := rfl
@[simp] theorem State.modWalker_nextId (s : State) (i : Nat) (f : Walker → Walker) : (s.modWalker i f).nextId = s.nextId := rfl
@[simp] theorem State.modWalker_mem (s : State) (i : Nat) (f : Walker → Walker) : (s.modWalker i f).mem = s.mem := rfl
@[simp] theorem State.modWalker_poison (s : State) (i : Nat) (f : Walker → Walker) : (s.modWalker i f).poison = s.poison := rfl
@[simp] theorem State.modWalker_soft (s : State) (i : Nat) (f : Walker → Walker) : (s.modWalker i f).soft = s.soft := rfl
@[simp] theorem State.modWalker_cores (s : State) (i : Nat) (f : Walker → Walker) : (s.modWalker i f).cores = s.cores := rfl
@[simp] theorem State.modWalker_clusters (s : State) (i : Nat) (f : Walker → Walker) : (s.modWalker i f).clusters = s.clusters := rfl
@[simp] theorem State.modWalker_routers (s : State) (i : Nat) (f : Walker → Walker) : (s.modWalker i f).routers = s.routers := rfl
@[simp] theorem State.modWalker_slices (s : State) (i : Nat) (f : Walker → Walker) : (s.modWalker i f).slices = s.slices := rfl
@[simp] theorem State.modWalker_ctxs (s : State) (i : Nat) (f : Walker → Walker) : (s.modWalker i f).ctxs = s.ctxs := rfl
@[simp] theorem State.modWalker_reqs (s : State) (i : Nat) (f : Walker → Walker) : (s.modWalker i f).reqs = s.reqs := rfl
@[simp] theorem State.modWalker_queries (s : State) (i : Nat) (f : Walker → Walker) : (s.modWalker i f).queries = s.queries := rfl
@[simp] theorem State.modWalker_mcasts (s : State) (i : Nat) (f : Walker → Walker) : (s.modWalker i f).mcasts = s.mcasts := rfl
@[simp] theorem State.modWalker_links (s : State) (i : Nat) (f : Walker → Walker) : (s.modWalker i f).links = s.links := rfl
@[simp] theorem State.modWalker_slsel (s : State) (i : Nat) (f : Walker → Walker) : (s.modWalker i f).slsel = s.slsel := rfl
@[simp] theorem State.modWalker_slcols (s : State) (i : Nat) (f : Walker → Walker) : (s.modWalker i f).slcols = s.slcols := rfl
@[simp] theorem State.modWalker_slbusy (s : State) (i : Nat) (f : Walker → Walker) : (s.modWalker i f).slbusy = s.slbusy := rfl
@[simp] theorem State.modWalker_slcolsNew (s : State) (i : Nat) (f : Walker → Walker) : (s.modWalker i f).slcolsNew = s.slcolsNew := rfl
@[simp] theorem State.modWalker_slwinNew (s : State) (i : Nat) (f : Walker → Walker) : (s.modWalker i f).slwinNew = s.slwinNew := rfl
@[simp] theorem State.modWalker_nlsel (s : State) (i : Nat) (f : Walker → Walker) : (s.modWalker i f).nlsel = s.nlsel := rfl
@[simp] theorem State.modWalker_frz (s : State) (i : Nat) (f : Walker → Walker) : (s.modWalker i f).frz = s.frz := rfl
@[simp] theorem State.modWalker_nlidx (s : State) (i : Nat) (f : Walker → Walker) : (s.modWalker i f).nlidx = s.nlidx := rfl
@[simp] theorem State.modWalker_lnksel (s : State) (i : Nat) (f : Walker → Walker) : (s.modWalker i f).lnksel = s.lnksel := rfl
@[simp] theorem State.modWalker_cnsel (s : State) (i : Nat) (f : Walker → Walker) : (s.modWalker i f).cnsel = s.cnsel := rfl
@[simp] theorem State.modWalker_cnrect (s : State) (i : Nat) (f : Walker → Walker) : (s.modWalker i f).cnrect = s.cnrect := rfl
@[simp] theorem State.modWalker_cnctl (s : State) (i : Nat) (f : Walker → Walker) : (s.modWalker i f).cnctl = s.cnctl := rfl
@[simp] theorem State.modWalker_cnapplied (s : State) (i : Nat) (f : Walker → Walker) : (s.modWalker i f).cnapplied = s.cnapplied := rfl
@[simp] theorem State.modWalker_cnnaks (s : State) (i : Nat) (f : Walker → Walker) : (s.modWalker i f).cnnaks = s.cnnaks := rfl
@[simp] theorem State.modWalker_vfs (s : State) (i : Nat) (f : Walker → Walker) : (s.modWalker i f).vfs = s.vfs := rfl
@[simp] theorem State.modWalker_routes (s : State) (i : Nat) (f : Walker → Walker) : (s.modWalker i f).routes = s.routes := rfl
@[simp] theorem State.modWalker_devReady (s : State) (i : Nat) (f : Walker → Walker) : (s.modWalker i f).devReady = s.devReady := rfl
@[simp] theorem State.modWalker_fnbase (s : State) (i : Nat) (f : Walker → Walker) : (s.modWalker i f).fnbase = s.fnbase := rfl
@[simp] theorem State.modWalker_fncap (s : State) (i : Nat) (f : Walker → Walker) : (s.modWalker i f).fncap = s.fncap := rfl
@[simp] theorem State.modWalker_fntail (s : State) (i : Nat) (f : Walker → Walker) : (s.modWalker i f).fntail = s.fntail := rfl
@[simp] theorem State.modWalker_domid (s : State) (i : Nat) (f : Walker → Walker) : (s.modWalker i f).domid = s.domid := rfl
@[simp] theorem State.modWalker_windows (s : State) (i : Nat) (f : Walker → Walker) : (s.modWalker i f).windows = s.windows := rfl
@[simp] theorem State.modWalker_abroad (s : State) (i : Nat) (f : Walker → Walker) : (s.modWalker i f).abroad = s.abroad := rfl
@[simp] theorem State.modWalker_taken (s : State) (i : Nat) (f : Walker → Walker) : (s.modWalker i f).taken = s.taken := rfl
@[simp] theorem State.modWalker_throttled (s : State) (i : Nat) (f : Walker → Walker) : (s.modWalker i f).throttled = s.throttled := rfl
@[simp] theorem State.modWalker_lagging (s : State) (i : Nat) (f : Walker → Walker) : (s.modWalker i f).lagging = s.lagging := rfl
@[simp] theorem State.modWalker_thr (s : State) (i : Nat) (f : Walker → Walker) : (s.modWalker i f).thr = s.thr := rfl
@[simp] theorem State.modWalker_fwPosts (s : State) (i : Nat) (f : Walker → Walker) : (s.modWalker i f).fwPosts = s.fwPosts := rfl
@[simp] theorem State.modWalker_blocked (s : State) (i : Nat) (f : Walker → Walker) : (s.modWalker i f).blocked = s.blocked := rfl

/-! ### State.modSlice -/

@[simp] theorem State.modSlice_cycle (s : State) (i : Nat) (f : Slice → Slice) : (s.modSlice i f).cycle = s.cycle := rfl
@[simp] theorem State.modSlice_cur (s : State) (i : Nat) (f : Slice → Slice) : (s.modSlice i f).cur = s.cur := rfl
@[simp] theorem State.modSlice_agenda (s : State) (i : Nat) (f : Slice → Slice) : (s.modSlice i f).agenda = s.agenda := rfl
@[simp] theorem State.modSlice_fresh (s : State) (i : Nat) (f : Slice → Slice) : (s.modSlice i f).fresh = s.fresh := rfl
@[simp] theorem State.modSlice_nextId (s : State) (i : Nat) (f : Slice → Slice) : (s.modSlice i f).nextId = s.nextId := rfl
@[simp] theorem State.modSlice_mem (s : State) (i : Nat) (f : Slice → Slice) : (s.modSlice i f).mem = s.mem := rfl
@[simp] theorem State.modSlice_poison (s : State) (i : Nat) (f : Slice → Slice) : (s.modSlice i f).poison = s.poison := rfl
@[simp] theorem State.modSlice_soft (s : State) (i : Nat) (f : Slice → Slice) : (s.modSlice i f).soft = s.soft := rfl
@[simp] theorem State.modSlice_cores (s : State) (i : Nat) (f : Slice → Slice) : (s.modSlice i f).cores = s.cores := rfl
@[simp] theorem State.modSlice_clusters (s : State) (i : Nat) (f : Slice → Slice) : (s.modSlice i f).clusters = s.clusters := rfl
@[simp] theorem State.modSlice_routers (s : State) (i : Nat) (f : Slice → Slice) : (s.modSlice i f).routers = s.routers := rfl
@[simp] theorem State.modSlice_walkers (s : State) (i : Nat) (f : Slice → Slice) : (s.modSlice i f).walkers = s.walkers := rfl
@[simp] theorem State.modSlice_ctxs (s : State) (i : Nat) (f : Slice → Slice) : (s.modSlice i f).ctxs = s.ctxs := rfl
@[simp] theorem State.modSlice_reqs (s : State) (i : Nat) (f : Slice → Slice) : (s.modSlice i f).reqs = s.reqs := rfl
@[simp] theorem State.modSlice_queries (s : State) (i : Nat) (f : Slice → Slice) : (s.modSlice i f).queries = s.queries := rfl
@[simp] theorem State.modSlice_mcasts (s : State) (i : Nat) (f : Slice → Slice) : (s.modSlice i f).mcasts = s.mcasts := rfl
@[simp] theorem State.modSlice_links (s : State) (i : Nat) (f : Slice → Slice) : (s.modSlice i f).links = s.links := rfl
@[simp] theorem State.modSlice_slsel (s : State) (i : Nat) (f : Slice → Slice) : (s.modSlice i f).slsel = s.slsel := rfl
@[simp] theorem State.modSlice_slcols (s : State) (i : Nat) (f : Slice → Slice) : (s.modSlice i f).slcols = s.slcols := rfl
@[simp] theorem State.modSlice_slbusy (s : State) (i : Nat) (f : Slice → Slice) : (s.modSlice i f).slbusy = s.slbusy := rfl
@[simp] theorem State.modSlice_slcolsNew (s : State) (i : Nat) (f : Slice → Slice) : (s.modSlice i f).slcolsNew = s.slcolsNew := rfl
@[simp] theorem State.modSlice_slwinNew (s : State) (i : Nat) (f : Slice → Slice) : (s.modSlice i f).slwinNew = s.slwinNew := rfl
@[simp] theorem State.modSlice_nlsel (s : State) (i : Nat) (f : Slice → Slice) : (s.modSlice i f).nlsel = s.nlsel := rfl
@[simp] theorem State.modSlice_frz (s : State) (i : Nat) (f : Slice → Slice) : (s.modSlice i f).frz = s.frz := rfl
@[simp] theorem State.modSlice_nlidx (s : State) (i : Nat) (f : Slice → Slice) : (s.modSlice i f).nlidx = s.nlidx := rfl
@[simp] theorem State.modSlice_lnksel (s : State) (i : Nat) (f : Slice → Slice) : (s.modSlice i f).lnksel = s.lnksel := rfl
@[simp] theorem State.modSlice_cnsel (s : State) (i : Nat) (f : Slice → Slice) : (s.modSlice i f).cnsel = s.cnsel := rfl
@[simp] theorem State.modSlice_cnrect (s : State) (i : Nat) (f : Slice → Slice) : (s.modSlice i f).cnrect = s.cnrect := rfl
@[simp] theorem State.modSlice_cnctl (s : State) (i : Nat) (f : Slice → Slice) : (s.modSlice i f).cnctl = s.cnctl := rfl
@[simp] theorem State.modSlice_cnapplied (s : State) (i : Nat) (f : Slice → Slice) : (s.modSlice i f).cnapplied = s.cnapplied := rfl
@[simp] theorem State.modSlice_cnnaks (s : State) (i : Nat) (f : Slice → Slice) : (s.modSlice i f).cnnaks = s.cnnaks := rfl
@[simp] theorem State.modSlice_vfs (s : State) (i : Nat) (f : Slice → Slice) : (s.modSlice i f).vfs = s.vfs := rfl
@[simp] theorem State.modSlice_routes (s : State) (i : Nat) (f : Slice → Slice) : (s.modSlice i f).routes = s.routes := rfl
@[simp] theorem State.modSlice_devReady (s : State) (i : Nat) (f : Slice → Slice) : (s.modSlice i f).devReady = s.devReady := rfl
@[simp] theorem State.modSlice_fnbase (s : State) (i : Nat) (f : Slice → Slice) : (s.modSlice i f).fnbase = s.fnbase := rfl
@[simp] theorem State.modSlice_fncap (s : State) (i : Nat) (f : Slice → Slice) : (s.modSlice i f).fncap = s.fncap := rfl
@[simp] theorem State.modSlice_fntail (s : State) (i : Nat) (f : Slice → Slice) : (s.modSlice i f).fntail = s.fntail := rfl
@[simp] theorem State.modSlice_domid (s : State) (i : Nat) (f : Slice → Slice) : (s.modSlice i f).domid = s.domid := rfl
@[simp] theorem State.modSlice_windows (s : State) (i : Nat) (f : Slice → Slice) : (s.modSlice i f).windows = s.windows := rfl
@[simp] theorem State.modSlice_abroad (s : State) (i : Nat) (f : Slice → Slice) : (s.modSlice i f).abroad = s.abroad := rfl
@[simp] theorem State.modSlice_taken (s : State) (i : Nat) (f : Slice → Slice) : (s.modSlice i f).taken = s.taken := rfl
@[simp] theorem State.modSlice_throttled (s : State) (i : Nat) (f : Slice → Slice) : (s.modSlice i f).throttled = s.throttled := rfl
@[simp] theorem State.modSlice_lagging (s : State) (i : Nat) (f : Slice → Slice) : (s.modSlice i f).lagging = s.lagging := rfl
@[simp] theorem State.modSlice_thr (s : State) (i : Nat) (f : Slice → Slice) : (s.modSlice i f).thr = s.thr := rfl
@[simp] theorem State.modSlice_fwPosts (s : State) (i : Nat) (f : Slice → Slice) : (s.modSlice i f).fwPosts = s.fwPosts := rfl
@[simp] theorem State.modSlice_blocked (s : State) (i : Nat) (f : Slice → Slice) : (s.modSlice i f).blocked = s.blocked := rfl

/-! ### State.modCtx -/

@[simp] theorem State.modCtx_cycle (s : State) (x : Nat) (f : Ctx → Ctx) : (s.modCtx x f).cycle = s.cycle := rfl
@[simp] theorem State.modCtx_cur (s : State) (x : Nat) (f : Ctx → Ctx) : (s.modCtx x f).cur = s.cur := rfl
@[simp] theorem State.modCtx_agenda (s : State) (x : Nat) (f : Ctx → Ctx) : (s.modCtx x f).agenda = s.agenda := rfl
@[simp] theorem State.modCtx_fresh (s : State) (x : Nat) (f : Ctx → Ctx) : (s.modCtx x f).fresh = s.fresh := rfl
@[simp] theorem State.modCtx_nextId (s : State) (x : Nat) (f : Ctx → Ctx) : (s.modCtx x f).nextId = s.nextId := rfl
@[simp] theorem State.modCtx_mem (s : State) (x : Nat) (f : Ctx → Ctx) : (s.modCtx x f).mem = s.mem := rfl
@[simp] theorem State.modCtx_poison (s : State) (x : Nat) (f : Ctx → Ctx) : (s.modCtx x f).poison = s.poison := rfl
@[simp] theorem State.modCtx_soft (s : State) (x : Nat) (f : Ctx → Ctx) : (s.modCtx x f).soft = s.soft := rfl
@[simp] theorem State.modCtx_cores (s : State) (x : Nat) (f : Ctx → Ctx) : (s.modCtx x f).cores = s.cores := rfl
@[simp] theorem State.modCtx_clusters (s : State) (x : Nat) (f : Ctx → Ctx) : (s.modCtx x f).clusters = s.clusters := rfl
@[simp] theorem State.modCtx_routers (s : State) (x : Nat) (f : Ctx → Ctx) : (s.modCtx x f).routers = s.routers := rfl
@[simp] theorem State.modCtx_walkers (s : State) (x : Nat) (f : Ctx → Ctx) : (s.modCtx x f).walkers = s.walkers := rfl
@[simp] theorem State.modCtx_slices (s : State) (x : Nat) (f : Ctx → Ctx) : (s.modCtx x f).slices = s.slices := rfl
@[simp] theorem State.modCtx_reqs (s : State) (x : Nat) (f : Ctx → Ctx) : (s.modCtx x f).reqs = s.reqs := rfl
@[simp] theorem State.modCtx_queries (s : State) (x : Nat) (f : Ctx → Ctx) : (s.modCtx x f).queries = s.queries := rfl
@[simp] theorem State.modCtx_mcasts (s : State) (x : Nat) (f : Ctx → Ctx) : (s.modCtx x f).mcasts = s.mcasts := rfl
@[simp] theorem State.modCtx_links (s : State) (x : Nat) (f : Ctx → Ctx) : (s.modCtx x f).links = s.links := rfl
@[simp] theorem State.modCtx_slsel (s : State) (x : Nat) (f : Ctx → Ctx) : (s.modCtx x f).slsel = s.slsel := rfl
@[simp] theorem State.modCtx_slcols (s : State) (x : Nat) (f : Ctx → Ctx) : (s.modCtx x f).slcols = s.slcols := rfl
@[simp] theorem State.modCtx_slbusy (s : State) (x : Nat) (f : Ctx → Ctx) : (s.modCtx x f).slbusy = s.slbusy := rfl
@[simp] theorem State.modCtx_slcolsNew (s : State) (x : Nat) (f : Ctx → Ctx) : (s.modCtx x f).slcolsNew = s.slcolsNew := rfl
@[simp] theorem State.modCtx_slwinNew (s : State) (x : Nat) (f : Ctx → Ctx) : (s.modCtx x f).slwinNew = s.slwinNew := rfl
@[simp] theorem State.modCtx_nlsel (s : State) (x : Nat) (f : Ctx → Ctx) : (s.modCtx x f).nlsel = s.nlsel := rfl
@[simp] theorem State.modCtx_frz (s : State) (x : Nat) (f : Ctx → Ctx) : (s.modCtx x f).frz = s.frz := rfl
@[simp] theorem State.modCtx_nlidx (s : State) (x : Nat) (f : Ctx → Ctx) : (s.modCtx x f).nlidx = s.nlidx := rfl
@[simp] theorem State.modCtx_lnksel (s : State) (x : Nat) (f : Ctx → Ctx) : (s.modCtx x f).lnksel = s.lnksel := rfl
@[simp] theorem State.modCtx_cnsel (s : State) (x : Nat) (f : Ctx → Ctx) : (s.modCtx x f).cnsel = s.cnsel := rfl
@[simp] theorem State.modCtx_cnrect (s : State) (x : Nat) (f : Ctx → Ctx) : (s.modCtx x f).cnrect = s.cnrect := rfl
@[simp] theorem State.modCtx_cnctl (s : State) (x : Nat) (f : Ctx → Ctx) : (s.modCtx x f).cnctl = s.cnctl := rfl
@[simp] theorem State.modCtx_cnapplied (s : State) (x : Nat) (f : Ctx → Ctx) : (s.modCtx x f).cnapplied = s.cnapplied := rfl
@[simp] theorem State.modCtx_cnnaks (s : State) (x : Nat) (f : Ctx → Ctx) : (s.modCtx x f).cnnaks = s.cnnaks := rfl
@[simp] theorem State.modCtx_vfs (s : State) (x : Nat) (f : Ctx → Ctx) : (s.modCtx x f).vfs = s.vfs := rfl
@[simp] theorem State.modCtx_routes (s : State) (x : Nat) (f : Ctx → Ctx) : (s.modCtx x f).routes = s.routes := rfl
@[simp] theorem State.modCtx_devReady (s : State) (x : Nat) (f : Ctx → Ctx) : (s.modCtx x f).devReady = s.devReady := rfl
@[simp] theorem State.modCtx_fnbase (s : State) (x : Nat) (f : Ctx → Ctx) : (s.modCtx x f).fnbase = s.fnbase := rfl
@[simp] theorem State.modCtx_fncap (s : State) (x : Nat) (f : Ctx → Ctx) : (s.modCtx x f).fncap = s.fncap := rfl
@[simp] theorem State.modCtx_fntail (s : State) (x : Nat) (f : Ctx → Ctx) : (s.modCtx x f).fntail = s.fntail := rfl
@[simp] theorem State.modCtx_domid (s : State) (x : Nat) (f : Ctx → Ctx) : (s.modCtx x f).domid = s.domid := rfl
@[simp] theorem State.modCtx_windows (s : State) (x : Nat) (f : Ctx → Ctx) : (s.modCtx x f).windows = s.windows := rfl
@[simp] theorem State.modCtx_abroad (s : State) (x : Nat) (f : Ctx → Ctx) : (s.modCtx x f).abroad = s.abroad := rfl
@[simp] theorem State.modCtx_taken (s : State) (x : Nat) (f : Ctx → Ctx) : (s.modCtx x f).taken = s.taken := rfl
@[simp] theorem State.modCtx_throttled (s : State) (x : Nat) (f : Ctx → Ctx) : (s.modCtx x f).throttled = s.throttled := rfl
@[simp] theorem State.modCtx_lagging (s : State) (x : Nat) (f : Ctx → Ctx) : (s.modCtx x f).lagging = s.lagging := rfl
@[simp] theorem State.modCtx_thr (s : State) (x : Nat) (f : Ctx → Ctx) : (s.modCtx x f).thr = s.thr := rfl
@[simp] theorem State.modCtx_fwPosts (s : State) (x : Nat) (f : Ctx → Ctx) : (s.modCtx x f).fwPosts = s.fwPosts := rfl
@[simp] theorem State.modCtx_blocked (s : State) (x : Nat) (f : Ctx → Ctx) : (s.modCtx x f).blocked = s.blocked := rfl

/-! ### State.modLink -/

@[simp] theorem State.modLink_cycle (s : State) (l : Nat) (f : Link → Link) : (s.modLink l f).cycle = s.cycle := rfl
@[simp] theorem State.modLink_cur (s : State) (l : Nat) (f : Link → Link) : (s.modLink l f).cur = s.cur := rfl
@[simp] theorem State.modLink_agenda (s : State) (l : Nat) (f : Link → Link) : (s.modLink l f).agenda = s.agenda := rfl
@[simp] theorem State.modLink_fresh (s : State) (l : Nat) (f : Link → Link) : (s.modLink l f).fresh = s.fresh := rfl
@[simp] theorem State.modLink_nextId (s : State) (l : Nat) (f : Link → Link) : (s.modLink l f).nextId = s.nextId := rfl
@[simp] theorem State.modLink_mem (s : State) (l : Nat) (f : Link → Link) : (s.modLink l f).mem = s.mem := rfl
@[simp] theorem State.modLink_poison (s : State) (l : Nat) (f : Link → Link) : (s.modLink l f).poison = s.poison := rfl
@[simp] theorem State.modLink_soft (s : State) (l : Nat) (f : Link → Link) : (s.modLink l f).soft = s.soft := rfl
@[simp] theorem State.modLink_cores (s : State) (l : Nat) (f : Link → Link) : (s.modLink l f).cores = s.cores := rfl
@[simp] theorem State.modLink_clusters (s : State) (l : Nat) (f : Link → Link) : (s.modLink l f).clusters = s.clusters := rfl
@[simp] theorem State.modLink_routers (s : State) (l : Nat) (f : Link → Link) : (s.modLink l f).routers = s.routers := rfl
@[simp] theorem State.modLink_walkers (s : State) (l : Nat) (f : Link → Link) : (s.modLink l f).walkers = s.walkers := rfl
@[simp] theorem State.modLink_slices (s : State) (l : Nat) (f : Link → Link) : (s.modLink l f).slices = s.slices := rfl
@[simp] theorem State.modLink_ctxs (s : State) (l : Nat) (f : Link → Link) : (s.modLink l f).ctxs = s.ctxs := rfl
@[simp] theorem State.modLink_reqs (s : State) (l : Nat) (f : Link → Link) : (s.modLink l f).reqs = s.reqs := rfl
@[simp] theorem State.modLink_queries (s : State) (l : Nat) (f : Link → Link) : (s.modLink l f).queries = s.queries := rfl
@[simp] theorem State.modLink_mcasts (s : State) (l : Nat) (f : Link → Link) : (s.modLink l f).mcasts = s.mcasts := rfl
@[simp] theorem State.modLink_slsel (s : State) (l : Nat) (f : Link → Link) : (s.modLink l f).slsel = s.slsel := rfl
@[simp] theorem State.modLink_slcols (s : State) (l : Nat) (f : Link → Link) : (s.modLink l f).slcols = s.slcols := rfl
@[simp] theorem State.modLink_slbusy (s : State) (l : Nat) (f : Link → Link) : (s.modLink l f).slbusy = s.slbusy := rfl
@[simp] theorem State.modLink_slcolsNew (s : State) (l : Nat) (f : Link → Link) : (s.modLink l f).slcolsNew = s.slcolsNew := rfl
@[simp] theorem State.modLink_slwinNew (s : State) (l : Nat) (f : Link → Link) : (s.modLink l f).slwinNew = s.slwinNew := rfl
@[simp] theorem State.modLink_nlsel (s : State) (l : Nat) (f : Link → Link) : (s.modLink l f).nlsel = s.nlsel := rfl
@[simp] theorem State.modLink_frz (s : State) (l : Nat) (f : Link → Link) : (s.modLink l f).frz = s.frz := rfl
@[simp] theorem State.modLink_nlidx (s : State) (l : Nat) (f : Link → Link) : (s.modLink l f).nlidx = s.nlidx := rfl
@[simp] theorem State.modLink_lnksel (s : State) (l : Nat) (f : Link → Link) : (s.modLink l f).lnksel = s.lnksel := rfl
@[simp] theorem State.modLink_cnsel (s : State) (l : Nat) (f : Link → Link) : (s.modLink l f).cnsel = s.cnsel := rfl
@[simp] theorem State.modLink_cnrect (s : State) (l : Nat) (f : Link → Link) : (s.modLink l f).cnrect = s.cnrect := rfl
@[simp] theorem State.modLink_cnctl (s : State) (l : Nat) (f : Link → Link) : (s.modLink l f).cnctl = s.cnctl := rfl
@[simp] theorem State.modLink_cnapplied (s : State) (l : Nat) (f : Link → Link) : (s.modLink l f).cnapplied = s.cnapplied := rfl
@[simp] theorem State.modLink_cnnaks (s : State) (l : Nat) (f : Link → Link) : (s.modLink l f).cnnaks = s.cnnaks := rfl
@[simp] theorem State.modLink_vfs (s : State) (l : Nat) (f : Link → Link) : (s.modLink l f).vfs = s.vfs := rfl
@[simp] theorem State.modLink_routes (s : State) (l : Nat) (f : Link → Link) : (s.modLink l f).routes = s.routes := rfl
@[simp] theorem State.modLink_devReady (s : State) (l : Nat) (f : Link → Link) : (s.modLink l f).devReady = s.devReady := rfl
@[simp] theorem State.modLink_fnbase (s : State) (l : Nat) (f : Link → Link) : (s.modLink l f).fnbase = s.fnbase := rfl
@[simp] theorem State.modLink_fncap (s : State) (l : Nat) (f : Link → Link) : (s.modLink l f).fncap = s.fncap := rfl
@[simp] theorem State.modLink_fntail (s : State) (l : Nat) (f : Link → Link) : (s.modLink l f).fntail = s.fntail := rfl
@[simp] theorem State.modLink_domid (s : State) (l : Nat) (f : Link → Link) : (s.modLink l f).domid = s.domid := rfl
@[simp] theorem State.modLink_windows (s : State) (l : Nat) (f : Link → Link) : (s.modLink l f).windows = s.windows := rfl
@[simp] theorem State.modLink_abroad (s : State) (l : Nat) (f : Link → Link) : (s.modLink l f).abroad = s.abroad := rfl
@[simp] theorem State.modLink_taken (s : State) (l : Nat) (f : Link → Link) : (s.modLink l f).taken = s.taken := rfl
@[simp] theorem State.modLink_throttled (s : State) (l : Nat) (f : Link → Link) : (s.modLink l f).throttled = s.throttled := rfl
@[simp] theorem State.modLink_lagging (s : State) (l : Nat) (f : Link → Link) : (s.modLink l f).lagging = s.lagging := rfl
@[simp] theorem State.modLink_thr (s : State) (l : Nat) (f : Link → Link) : (s.modLink l f).thr = s.thr := rfl
@[simp] theorem State.modLink_fwPosts (s : State) (l : Nat) (f : Link → Link) : (s.modLink l f).fwPosts = s.fwPosts := rfl
@[simp] theorem State.modLink_blocked (s : State) (l : Nat) (f : Link → Link) : (s.modLink l f).blocked = s.blocked := rfl

/-! ### State.postIn -/

@[simp] theorem State.postIn_cycle (s : State) (d : Nat) (e : Event) : (s.postIn d e).cycle = s.cycle := rfl
@[simp] theorem State.postIn_cur (s : State) (d : Nat) (e : Event) : (s.postIn d e).cur = s.cur := rfl
@[simp] theorem State.postIn_fresh (s : State) (d : Nat) (e : Event) : (s.postIn d e).fresh = s.fresh := rfl
@[simp] theorem State.postIn_nextId (s : State) (d : Nat) (e : Event) : (s.postIn d e).nextId = s.nextId := rfl
@[simp] theorem State.postIn_mem (s : State) (d : Nat) (e : Event) : (s.postIn d e).mem = s.mem := rfl
@[simp] theorem State.postIn_poison (s : State) (d : Nat) (e : Event) : (s.postIn d e).poison = s.poison := rfl
@[simp] theorem State.postIn_soft (s : State) (d : Nat) (e : Event) : (s.postIn d e).soft = s.soft := rfl
@[simp] theorem State.postIn_cores (s : State) (d : Nat) (e : Event) : (s.postIn d e).cores = s.cores := rfl
@[simp] theorem State.postIn_clusters (s : State) (d : Nat) (e : Event) : (s.postIn d e).clusters = s.clusters := rfl
@[simp] theorem State.postIn_routers (s : State) (d : Nat) (e : Event) : (s.postIn d e).routers = s.routers := rfl
@[simp] theorem State.postIn_walkers (s : State) (d : Nat) (e : Event) : (s.postIn d e).walkers = s.walkers := rfl
@[simp] theorem State.postIn_slices (s : State) (d : Nat) (e : Event) : (s.postIn d e).slices = s.slices := rfl
@[simp] theorem State.postIn_ctxs (s : State) (d : Nat) (e : Event) : (s.postIn d e).ctxs = s.ctxs := rfl
@[simp] theorem State.postIn_reqs (s : State) (d : Nat) (e : Event) : (s.postIn d e).reqs = s.reqs := rfl
@[simp] theorem State.postIn_queries (s : State) (d : Nat) (e : Event) : (s.postIn d e).queries = s.queries := rfl
@[simp] theorem State.postIn_mcasts (s : State) (d : Nat) (e : Event) : (s.postIn d e).mcasts = s.mcasts := rfl
@[simp] theorem State.postIn_links (s : State) (d : Nat) (e : Event) : (s.postIn d e).links = s.links := rfl
@[simp] theorem State.postIn_slsel (s : State) (d : Nat) (e : Event) : (s.postIn d e).slsel = s.slsel := rfl
@[simp] theorem State.postIn_slcols (s : State) (d : Nat) (e : Event) : (s.postIn d e).slcols = s.slcols := rfl
@[simp] theorem State.postIn_slbusy (s : State) (d : Nat) (e : Event) : (s.postIn d e).slbusy = s.slbusy := rfl
@[simp] theorem State.postIn_slcolsNew (s : State) (d : Nat) (e : Event) : (s.postIn d e).slcolsNew = s.slcolsNew := rfl
@[simp] theorem State.postIn_slwinNew (s : State) (d : Nat) (e : Event) : (s.postIn d e).slwinNew = s.slwinNew := rfl
@[simp] theorem State.postIn_nlsel (s : State) (d : Nat) (e : Event) : (s.postIn d e).nlsel = s.nlsel := rfl
@[simp] theorem State.postIn_frz (s : State) (d : Nat) (e : Event) : (s.postIn d e).frz = s.frz := rfl
@[simp] theorem State.postIn_nlidx (s : State) (d : Nat) (e : Event) : (s.postIn d e).nlidx = s.nlidx := rfl
@[simp] theorem State.postIn_lnksel (s : State) (d : Nat) (e : Event) : (s.postIn d e).lnksel = s.lnksel := rfl
@[simp] theorem State.postIn_cnsel (s : State) (d : Nat) (e : Event) : (s.postIn d e).cnsel = s.cnsel := rfl
@[simp] theorem State.postIn_cnrect (s : State) (d : Nat) (e : Event) : (s.postIn d e).cnrect = s.cnrect := rfl
@[simp] theorem State.postIn_cnctl (s : State) (d : Nat) (e : Event) : (s.postIn d e).cnctl = s.cnctl := rfl
@[simp] theorem State.postIn_cnapplied (s : State) (d : Nat) (e : Event) : (s.postIn d e).cnapplied = s.cnapplied := rfl
@[simp] theorem State.postIn_cnnaks (s : State) (d : Nat) (e : Event) : (s.postIn d e).cnnaks = s.cnnaks := rfl
@[simp] theorem State.postIn_vfs (s : State) (d : Nat) (e : Event) : (s.postIn d e).vfs = s.vfs := rfl
@[simp] theorem State.postIn_routes (s : State) (d : Nat) (e : Event) : (s.postIn d e).routes = s.routes := rfl
@[simp] theorem State.postIn_devReady (s : State) (d : Nat) (e : Event) : (s.postIn d e).devReady = s.devReady := rfl
@[simp] theorem State.postIn_fnbase (s : State) (d : Nat) (e : Event) : (s.postIn d e).fnbase = s.fnbase := rfl
@[simp] theorem State.postIn_fncap (s : State) (d : Nat) (e : Event) : (s.postIn d e).fncap = s.fncap := rfl
@[simp] theorem State.postIn_fntail (s : State) (d : Nat) (e : Event) : (s.postIn d e).fntail = s.fntail := rfl
@[simp] theorem State.postIn_domid (s : State) (d : Nat) (e : Event) : (s.postIn d e).domid = s.domid := rfl
@[simp] theorem State.postIn_windows (s : State) (d : Nat) (e : Event) : (s.postIn d e).windows = s.windows := rfl
@[simp] theorem State.postIn_abroad (s : State) (d : Nat) (e : Event) : (s.postIn d e).abroad = s.abroad := rfl
@[simp] theorem State.postIn_taken (s : State) (d : Nat) (e : Event) : (s.postIn d e).taken = s.taken := rfl
@[simp] theorem State.postIn_throttled (s : State) (d : Nat) (e : Event) : (s.postIn d e).throttled = s.throttled := rfl
@[simp] theorem State.postIn_lagging (s : State) (d : Nat) (e : Event) : (s.postIn d e).lagging = s.lagging := rfl
@[simp] theorem State.postIn_thr (s : State) (d : Nat) (e : Event) : (s.postIn d e).thr = s.thr := rfl
@[simp] theorem State.postIn_fwPosts (s : State) (d : Nat) (e : Event) : (s.postIn d e).fwPosts = s.fwPosts := rfl
@[simp] theorem State.postIn_blocked (s : State) (d : Nat) (e : Event) : (s.postIn d e).blocked = s.blocked := rfl

/-! ### State.post -/

@[simp] theorem State.post_cycle (s : State) (e : Event) : (s.post e).cycle = s.cycle := rfl
@[simp] theorem State.post_cur (s : State) (e : Event) : (s.post e).cur = s.cur := rfl
@[simp] theorem State.post_fresh (s : State) (e : Event) : (s.post e).fresh = s.fresh := rfl
@[simp] theorem State.post_nextId (s : State) (e : Event) : (s.post e).nextId = s.nextId := rfl
@[simp] theorem State.post_mem (s : State) (e : Event) : (s.post e).mem = s.mem := rfl
@[simp] theorem State.post_poison (s : State) (e : Event) : (s.post e).poison = s.poison := rfl
@[simp] theorem State.post_soft (s : State) (e : Event) : (s.post e).soft = s.soft := rfl
@[simp] theorem State.post_cores (s : State) (e : Event) : (s.post e).cores = s.cores := rfl
@[simp] theorem State.post_clusters (s : State) (e : Event) : (s.post e).clusters = s.clusters := rfl
@[simp] theorem State.post_routers (s : State) (e : Event) : (s.post e).routers = s.routers := rfl
@[simp] theorem State.post_walkers (s : State) (e : Event) : (s.post e).walkers = s.walkers := rfl
@[simp] theorem State.post_slices (s : State) (e : Event) : (s.post e).slices = s.slices := rfl
@[simp] theorem State.post_ctxs (s : State) (e : Event) : (s.post e).ctxs = s.ctxs := rfl
@[simp] theorem State.post_reqs (s : State) (e : Event) : (s.post e).reqs = s.reqs := rfl
@[simp] theorem State.post_queries (s : State) (e : Event) : (s.post e).queries = s.queries := rfl
@[simp] theorem State.post_mcasts (s : State) (e : Event) : (s.post e).mcasts = s.mcasts := rfl
@[simp] theorem State.post_links (s : State) (e : Event) : (s.post e).links = s.links := rfl
@[simp] theorem State.post_slsel (s : State) (e : Event) : (s.post e).slsel = s.slsel := rfl
@[simp] theorem State.post_slcols (s : State) (e : Event) : (s.post e).slcols = s.slcols := rfl
@[simp] theorem State.post_slbusy (s : State) (e : Event) : (s.post e).slbusy = s.slbusy := rfl
@[simp] theorem State.post_slcolsNew (s : State) (e : Event) : (s.post e).slcolsNew = s.slcolsNew := rfl
@[simp] theorem State.post_slwinNew (s : State) (e : Event) : (s.post e).slwinNew = s.slwinNew := rfl
@[simp] theorem State.post_nlsel (s : State) (e : Event) : (s.post e).nlsel = s.nlsel := rfl
@[simp] theorem State.post_frz (s : State) (e : Event) : (s.post e).frz = s.frz := rfl
@[simp] theorem State.post_nlidx (s : State) (e : Event) : (s.post e).nlidx = s.nlidx := rfl
@[simp] theorem State.post_lnksel (s : State) (e : Event) : (s.post e).lnksel = s.lnksel := rfl
@[simp] theorem State.post_cnsel (s : State) (e : Event) : (s.post e).cnsel = s.cnsel := rfl
@[simp] theorem State.post_cnrect (s : State) (e : Event) : (s.post e).cnrect = s.cnrect := rfl
@[simp] theorem State.post_cnctl (s : State) (e : Event) : (s.post e).cnctl = s.cnctl := rfl
@[simp] theorem State.post_cnapplied (s : State) (e : Event) : (s.post e).cnapplied = s.cnapplied := rfl
@[simp] theorem State.post_cnnaks (s : State) (e : Event) : (s.post e).cnnaks = s.cnnaks := rfl
@[simp] theorem State.post_vfs (s : State) (e : Event) : (s.post e).vfs = s.vfs := rfl
@[simp] theorem State.post_routes (s : State) (e : Event) : (s.post e).routes = s.routes := rfl
@[simp] theorem State.post_devReady (s : State) (e : Event) : (s.post e).devReady = s.devReady := rfl
@[simp] theorem State.post_fnbase (s : State) (e : Event) : (s.post e).fnbase = s.fnbase := rfl
@[simp] theorem State.post_fncap (s : State) (e : Event) : (s.post e).fncap = s.fncap := rfl
@[simp] theorem State.post_fntail (s : State) (e : Event) : (s.post e).fntail = s.fntail := rfl
@[simp] theorem State.post_domid (s : State) (e : Event) : (s.post e).domid = s.domid := rfl
@[simp] theorem State.post_windows (s : State) (e : Event) : (s.post e).windows = s.windows := rfl
@[simp] theorem State.post_abroad (s : State) (e : Event) : (s.post e).abroad = s.abroad := rfl
@[simp] theorem State.post_taken (s : State) (e : Event) : (s.post e).taken = s.taken := rfl
@[simp] theorem State.post_throttled (s : State) (e : Event) : (s.post e).throttled = s.throttled := rfl
@[simp] theorem State.post_lagging (s : State) (e : Event) : (s.post e).lagging = s.lagging := rfl
@[simp] theorem State.post_thr (s : State) (e : Event) : (s.post e).thr = s.thr := rfl
@[simp] theorem State.post_fwPosts (s : State) (e : Event) : (s.post e).fwPosts = s.fwPosts := rfl
@[simp] theorem State.post_blocked (s : State) (e : Event) : (s.post e).blocked = s.blocked := rfl

/-! ### State.clean -/

@[simp] theorem State.clean_cycle (s : State) (a n : Nat) : (s.clean a n).cycle = s.cycle := rfl
@[simp] theorem State.clean_cur (s : State) (a n : Nat) : (s.clean a n).cur = s.cur := rfl
@[simp] theorem State.clean_agenda (s : State) (a n : Nat) : (s.clean a n).agenda = s.agenda := rfl
@[simp] theorem State.clean_fresh (s : State) (a n : Nat) : (s.clean a n).fresh = s.fresh := rfl
@[simp] theorem State.clean_nextId (s : State) (a n : Nat) : (s.clean a n).nextId = s.nextId := rfl
@[simp] theorem State.clean_mem (s : State) (a n : Nat) : (s.clean a n).mem = s.mem := rfl
@[simp] theorem State.clean_soft (s : State) (a n : Nat) : (s.clean a n).soft = s.soft := rfl
@[simp] theorem State.clean_cores (s : State) (a n : Nat) : (s.clean a n).cores = s.cores := rfl
@[simp] theorem State.clean_clusters (s : State) (a n : Nat) : (s.clean a n).clusters = s.clusters := rfl
@[simp] theorem State.clean_routers (s : State) (a n : Nat) : (s.clean a n).routers = s.routers := rfl
@[simp] theorem State.clean_walkers (s : State) (a n : Nat) : (s.clean a n).walkers = s.walkers := rfl
@[simp] theorem State.clean_slices (s : State) (a n : Nat) : (s.clean a n).slices = s.slices := rfl
@[simp] theorem State.clean_ctxs (s : State) (a n : Nat) : (s.clean a n).ctxs = s.ctxs := rfl
@[simp] theorem State.clean_reqs (s : State) (a n : Nat) : (s.clean a n).reqs = s.reqs := rfl
@[simp] theorem State.clean_queries (s : State) (a n : Nat) : (s.clean a n).queries = s.queries := rfl
@[simp] theorem State.clean_mcasts (s : State) (a n : Nat) : (s.clean a n).mcasts = s.mcasts := rfl
@[simp] theorem State.clean_links (s : State) (a n : Nat) : (s.clean a n).links = s.links := rfl
@[simp] theorem State.clean_slsel (s : State) (a n : Nat) : (s.clean a n).slsel = s.slsel := rfl
@[simp] theorem State.clean_slcols (s : State) (a n : Nat) : (s.clean a n).slcols = s.slcols := rfl
@[simp] theorem State.clean_slbusy (s : State) (a n : Nat) : (s.clean a n).slbusy = s.slbusy := rfl
@[simp] theorem State.clean_slcolsNew (s : State) (a n : Nat) : (s.clean a n).slcolsNew = s.slcolsNew := rfl
@[simp] theorem State.clean_slwinNew (s : State) (a n : Nat) : (s.clean a n).slwinNew = s.slwinNew := rfl
@[simp] theorem State.clean_nlsel (s : State) (a n : Nat) : (s.clean a n).nlsel = s.nlsel := rfl
@[simp] theorem State.clean_frz (s : State) (a n : Nat) : (s.clean a n).frz = s.frz := rfl
@[simp] theorem State.clean_nlidx (s : State) (a n : Nat) : (s.clean a n).nlidx = s.nlidx := rfl
@[simp] theorem State.clean_lnksel (s : State) (a n : Nat) : (s.clean a n).lnksel = s.lnksel := rfl
@[simp] theorem State.clean_cnsel (s : State) (a n : Nat) : (s.clean a n).cnsel = s.cnsel := rfl
@[simp] theorem State.clean_cnrect (s : State) (a n : Nat) : (s.clean a n).cnrect = s.cnrect := rfl
@[simp] theorem State.clean_cnctl (s : State) (a n : Nat) : (s.clean a n).cnctl = s.cnctl := rfl
@[simp] theorem State.clean_cnapplied (s : State) (a n : Nat) : (s.clean a n).cnapplied = s.cnapplied := rfl
@[simp] theorem State.clean_cnnaks (s : State) (a n : Nat) : (s.clean a n).cnnaks = s.cnnaks := rfl
@[simp] theorem State.clean_vfs (s : State) (a n : Nat) : (s.clean a n).vfs = s.vfs := rfl
@[simp] theorem State.clean_routes (s : State) (a n : Nat) : (s.clean a n).routes = s.routes := rfl
@[simp] theorem State.clean_devReady (s : State) (a n : Nat) : (s.clean a n).devReady = s.devReady := rfl
@[simp] theorem State.clean_fnbase (s : State) (a n : Nat) : (s.clean a n).fnbase = s.fnbase := rfl
@[simp] theorem State.clean_fncap (s : State) (a n : Nat) : (s.clean a n).fncap = s.fncap := rfl
@[simp] theorem State.clean_fntail (s : State) (a n : Nat) : (s.clean a n).fntail = s.fntail := rfl
@[simp] theorem State.clean_domid (s : State) (a n : Nat) : (s.clean a n).domid = s.domid := rfl
@[simp] theorem State.clean_windows (s : State) (a n : Nat) : (s.clean a n).windows = s.windows := rfl
@[simp] theorem State.clean_abroad (s : State) (a n : Nat) : (s.clean a n).abroad = s.abroad := rfl
@[simp] theorem State.clean_taken (s : State) (a n : Nat) : (s.clean a n).taken = s.taken := rfl
@[simp] theorem State.clean_throttled (s : State) (a n : Nat) : (s.clean a n).throttled = s.throttled := rfl
@[simp] theorem State.clean_lagging (s : State) (a n : Nat) : (s.clean a n).lagging = s.lagging := rfl
@[simp] theorem State.clean_thr (s : State) (a n : Nat) : (s.clean a n).thr = s.thr := rfl
@[simp] theorem State.clean_fwPosts (s : State) (a n : Nat) : (s.clean a n).fwPosts = s.fwPosts := rfl
@[simp] theorem State.clean_blocked (s : State) (a n : Nat) : (s.clean a n).blocked = s.blocked := rfl

/-! ### State.writeMem -/

@[simp] theorem State.writeMem_cycle (s : State) (a n v : Nat) : (s.writeMem a n v).cycle = s.cycle := rfl
@[simp] theorem State.writeMem_cur (s : State) (a n v : Nat) : (s.writeMem a n v).cur = s.cur := rfl
@[simp] theorem State.writeMem_agenda (s : State) (a n v : Nat) : (s.writeMem a n v).agenda = s.agenda := rfl
@[simp] theorem State.writeMem_fresh (s : State) (a n v : Nat) : (s.writeMem a n v).fresh = s.fresh := rfl
@[simp] theorem State.writeMem_nextId (s : State) (a n v : Nat) : (s.writeMem a n v).nextId = s.nextId := rfl
@[simp] theorem State.writeMem_soft (s : State) (a n v : Nat) : (s.writeMem a n v).soft = s.soft := rfl
@[simp] theorem State.writeMem_cores (s : State) (a n v : Nat) : (s.writeMem a n v).cores = s.cores := rfl
@[simp] theorem State.writeMem_clusters (s : State) (a n v : Nat) : (s.writeMem a n v).clusters = s.clusters := rfl
@[simp] theorem State.writeMem_routers (s : State) (a n v : Nat) : (s.writeMem a n v).routers = s.routers := rfl
@[simp] theorem State.writeMem_walkers (s : State) (a n v : Nat) : (s.writeMem a n v).walkers = s.walkers := rfl
@[simp] theorem State.writeMem_slices (s : State) (a n v : Nat) : (s.writeMem a n v).slices = s.slices := rfl
@[simp] theorem State.writeMem_ctxs (s : State) (a n v : Nat) : (s.writeMem a n v).ctxs = s.ctxs := rfl
@[simp] theorem State.writeMem_reqs (s : State) (a n v : Nat) : (s.writeMem a n v).reqs = s.reqs := rfl
@[simp] theorem State.writeMem_queries (s : State) (a n v : Nat) : (s.writeMem a n v).queries = s.queries := rfl
@[simp] theorem State.writeMem_mcasts (s : State) (a n v : Nat) : (s.writeMem a n v).mcasts = s.mcasts := rfl
@[simp] theorem State.writeMem_links (s : State) (a n v : Nat) : (s.writeMem a n v).links = s.links := rfl
@[simp] theorem State.writeMem_slsel (s : State) (a n v : Nat) : (s.writeMem a n v).slsel = s.slsel := rfl
@[simp] theorem State.writeMem_slcols (s : State) (a n v : Nat) : (s.writeMem a n v).slcols = s.slcols := rfl
@[simp] theorem State.writeMem_slbusy (s : State) (a n v : Nat) : (s.writeMem a n v).slbusy = s.slbusy := rfl
@[simp] theorem State.writeMem_slcolsNew (s : State) (a n v : Nat) : (s.writeMem a n v).slcolsNew = s.slcolsNew := rfl
@[simp] theorem State.writeMem_slwinNew (s : State) (a n v : Nat) : (s.writeMem a n v).slwinNew = s.slwinNew := rfl
@[simp] theorem State.writeMem_nlsel (s : State) (a n v : Nat) : (s.writeMem a n v).nlsel = s.nlsel := rfl
@[simp] theorem State.writeMem_frz (s : State) (a n v : Nat) : (s.writeMem a n v).frz = s.frz := rfl
@[simp] theorem State.writeMem_nlidx (s : State) (a n v : Nat) : (s.writeMem a n v).nlidx = s.nlidx := rfl
@[simp] theorem State.writeMem_lnksel (s : State) (a n v : Nat) : (s.writeMem a n v).lnksel = s.lnksel := rfl
@[simp] theorem State.writeMem_cnsel (s : State) (a n v : Nat) : (s.writeMem a n v).cnsel = s.cnsel := rfl
@[simp] theorem State.writeMem_cnrect (s : State) (a n v : Nat) : (s.writeMem a n v).cnrect = s.cnrect := rfl
@[simp] theorem State.writeMem_cnctl (s : State) (a n v : Nat) : (s.writeMem a n v).cnctl = s.cnctl := rfl
@[simp] theorem State.writeMem_cnapplied (s : State) (a n v : Nat) : (s.writeMem a n v).cnapplied = s.cnapplied := rfl
@[simp] theorem State.writeMem_cnnaks (s : State) (a n v : Nat) : (s.writeMem a n v).cnnaks = s.cnnaks := rfl
@[simp] theorem State.writeMem_vfs (s : State) (a n v : Nat) : (s.writeMem a n v).vfs = s.vfs := rfl
@[simp] theorem State.writeMem_routes (s : State) (a n v : Nat) : (s.writeMem a n v).routes = s.routes := rfl
@[simp] theorem State.writeMem_devReady (s : State) (a n v : Nat) : (s.writeMem a n v).devReady = s.devReady := rfl
@[simp] theorem State.writeMem_fnbase (s : State) (a n v : Nat) : (s.writeMem a n v).fnbase = s.fnbase := rfl
@[simp] theorem State.writeMem_fncap (s : State) (a n v : Nat) : (s.writeMem a n v).fncap = s.fncap := rfl
@[simp] theorem State.writeMem_fntail (s : State) (a n v : Nat) : (s.writeMem a n v).fntail = s.fntail := rfl
@[simp] theorem State.writeMem_domid (s : State) (a n v : Nat) : (s.writeMem a n v).domid = s.domid := rfl
@[simp] theorem State.writeMem_windows (s : State) (a n v : Nat) : (s.writeMem a n v).windows = s.windows := rfl
@[simp] theorem State.writeMem_abroad (s : State) (a n v : Nat) : (s.writeMem a n v).abroad = s.abroad := rfl
@[simp] theorem State.writeMem_taken (s : State) (a n v : Nat) : (s.writeMem a n v).taken = s.taken := rfl
@[simp] theorem State.writeMem_throttled (s : State) (a n v : Nat) : (s.writeMem a n v).throttled = s.throttled := rfl
@[simp] theorem State.writeMem_thr (s : State) (a n v : Nat) : (s.writeMem a n v).thr = s.thr := rfl
@[simp] theorem State.writeMem_fwPosts (s : State) (a n v : Nat) : (s.writeMem a n v).fwPosts = s.fwPosts := rfl
@[simp] theorem State.writeMem_blocked (s : State) (a n v : Nat) : (s.writeMem a n v).blocked = s.blocked := rfl

/-! ### State.addPoison -/

@[simp] theorem State.addPoison_cycle (s : State) (a : Nat) : (s.addPoison a).cycle = s.cycle := rfl
@[simp] theorem State.addPoison_cur (s : State) (a : Nat) : (s.addPoison a).cur = s.cur := rfl
@[simp] theorem State.addPoison_agenda (s : State) (a : Nat) : (s.addPoison a).agenda = s.agenda := rfl
@[simp] theorem State.addPoison_fresh (s : State) (a : Nat) : (s.addPoison a).fresh = s.fresh := rfl
@[simp] theorem State.addPoison_nextId (s : State) (a : Nat) : (s.addPoison a).nextId = s.nextId := rfl
@[simp] theorem State.addPoison_mem (s : State) (a : Nat) : (s.addPoison a).mem = s.mem := rfl
@[simp] theorem State.addPoison_soft (s : State) (a : Nat) : (s.addPoison a).soft = s.soft := rfl
@[simp] theorem State.addPoison_cores (s : State) (a : Nat) : (s.addPoison a).cores = s.cores := rfl
@[simp] theorem State.addPoison_clusters (s : State) (a : Nat) : (s.addPoison a).clusters = s.clusters := rfl
@[simp] theorem State.addPoison_routers (s : State) (a : Nat) : (s.addPoison a).routers = s.routers := rfl
@[simp] theorem State.addPoison_walkers (s : State) (a : Nat) : (s.addPoison a).walkers = s.walkers := rfl
@[simp] theorem State.addPoison_slices (s : State) (a : Nat) : (s.addPoison a).slices = s.slices := rfl
@[simp] theorem State.addPoison_ctxs (s : State) (a : Nat) : (s.addPoison a).ctxs = s.ctxs := rfl
@[simp] theorem State.addPoison_reqs (s : State) (a : Nat) : (s.addPoison a).reqs = s.reqs := rfl
@[simp] theorem State.addPoison_queries (s : State) (a : Nat) : (s.addPoison a).queries = s.queries := rfl
@[simp] theorem State.addPoison_mcasts (s : State) (a : Nat) : (s.addPoison a).mcasts = s.mcasts := rfl
@[simp] theorem State.addPoison_links (s : State) (a : Nat) : (s.addPoison a).links = s.links := rfl
@[simp] theorem State.addPoison_slsel (s : State) (a : Nat) : (s.addPoison a).slsel = s.slsel := rfl
@[simp] theorem State.addPoison_slcols (s : State) (a : Nat) : (s.addPoison a).slcols = s.slcols := rfl
@[simp] theorem State.addPoison_slbusy (s : State) (a : Nat) : (s.addPoison a).slbusy = s.slbusy := rfl
@[simp] theorem State.addPoison_slcolsNew (s : State) (a : Nat) : (s.addPoison a).slcolsNew = s.slcolsNew := rfl
@[simp] theorem State.addPoison_slwinNew (s : State) (a : Nat) : (s.addPoison a).slwinNew = s.slwinNew := rfl
@[simp] theorem State.addPoison_nlsel (s : State) (a : Nat) : (s.addPoison a).nlsel = s.nlsel := rfl
@[simp] theorem State.addPoison_frz (s : State) (a : Nat) : (s.addPoison a).frz = s.frz := rfl
@[simp] theorem State.addPoison_nlidx (s : State) (a : Nat) : (s.addPoison a).nlidx = s.nlidx := rfl
@[simp] theorem State.addPoison_lnksel (s : State) (a : Nat) : (s.addPoison a).lnksel = s.lnksel := rfl
@[simp] theorem State.addPoison_cnsel (s : State) (a : Nat) : (s.addPoison a).cnsel = s.cnsel := rfl
@[simp] theorem State.addPoison_cnrect (s : State) (a : Nat) : (s.addPoison a).cnrect = s.cnrect := rfl
@[simp] theorem State.addPoison_cnctl (s : State) (a : Nat) : (s.addPoison a).cnctl = s.cnctl := rfl
@[simp] theorem State.addPoison_cnapplied (s : State) (a : Nat) : (s.addPoison a).cnapplied = s.cnapplied := rfl
@[simp] theorem State.addPoison_cnnaks (s : State) (a : Nat) : (s.addPoison a).cnnaks = s.cnnaks := rfl
@[simp] theorem State.addPoison_vfs (s : State) (a : Nat) : (s.addPoison a).vfs = s.vfs := rfl
@[simp] theorem State.addPoison_routes (s : State) (a : Nat) : (s.addPoison a).routes = s.routes := rfl
@[simp] theorem State.addPoison_devReady (s : State) (a : Nat) : (s.addPoison a).devReady = s.devReady := rfl
@[simp] theorem State.addPoison_fnbase (s : State) (a : Nat) : (s.addPoison a).fnbase = s.fnbase := rfl
@[simp] theorem State.addPoison_fncap (s : State) (a : Nat) : (s.addPoison a).fncap = s.fncap := rfl
@[simp] theorem State.addPoison_fntail (s : State) (a : Nat) : (s.addPoison a).fntail = s.fntail := rfl
@[simp] theorem State.addPoison_domid (s : State) (a : Nat) : (s.addPoison a).domid = s.domid := rfl
@[simp] theorem State.addPoison_windows (s : State) (a : Nat) : (s.addPoison a).windows = s.windows := rfl
@[simp] theorem State.addPoison_abroad (s : State) (a : Nat) : (s.addPoison a).abroad = s.abroad := rfl
@[simp] theorem State.addPoison_taken (s : State) (a : Nat) : (s.addPoison a).taken = s.taken := rfl
@[simp] theorem State.addPoison_throttled (s : State) (a : Nat) : (s.addPoison a).throttled = s.throttled := rfl
@[simp] theorem State.addPoison_lagging (s : State) (a : Nat) : (s.addPoison a).lagging = s.lagging := rfl
@[simp] theorem State.addPoison_thr (s : State) (a : Nat) : (s.addPoison a).thr = s.thr := rfl
@[simp] theorem State.addPoison_fwPosts (s : State) (a : Nat) : (s.addPoison a).fwPosts = s.fwPosts := rfl
@[simp] theorem State.addPoison_blocked (s : State) (a : Nat) : (s.addPoison a).blocked = s.blocked := rfl

/-! ### What an update writes -/

@[simp] theorem State.setCore_cores (s : State) (c : Nat) (k : Core) : (s.setCore c k).cores = s.cores.set c k := rfl
@[simp] theorem State.setCluster_clusters (s : State) (c : Nat) (k : Cluster) :
    (s.setCluster c k).clusters = s.clusters.set c k := rfl
@[simp] theorem State.postIn_agenda (s : State) (d : Nat) (e : Event) : (s.postIn d e).agenda = s.agenda ++ [(s.cycle + d, e)] := rfl
@[simp] theorem State.post_agenda (s : State) (e : Event) : (s.post e).agenda = s.agenda ++ [(s.cycle, e)] := rfl
@[simp] theorem State.writeMem_mem (s : State) (a n v : Nat) : (s.writeMem a n v).mem = memWrite s.mem a v n := rfl

end Sys2Proof.Machine
end

