-- ==== Sys2Proof/Laws/Memory.lean ====
section
/-! SUPPORT. Memory: a read after a write, and every operation keeps the canonical form. -/

namespace Sys2Proof.Machine

open Sys2Proof

/-- A byte below a canonical memory's first address is not listed. -/
theorem memGet_below (m : List Host.Cell) (lo a : Nat) (h : memFrom lo m = true) (ha : a < lo) : memGet m a = unlisted := by
  induction m generalizing lo with
  | nil => rfl
  | cons p t ih =>
    obtain ⟨k, v⟩ := p
    simp only [memFrom, Bool.and_eq_true, decide_eq_true_eq] at h
    simp only [memGet, show ¬ k = a by omega, if_false]
    exact ih (k + 1) h.2 (by omega)

/-- A read after a write of the same byte. -/
theorem memGet_memSet_same (m : List Host.Cell) (lo a : Nat) (b : Byte) (h : memFrom lo m = true) :
    memGet (memSet m a b) a = b := by
  induction m generalizing lo with
  | nil => simp only [memSet]; split <;> simp [memGet, *]
  | cons p t ih =>
    obtain ⟨k, v⟩ := p
    simp only [memFrom, Bool.and_eq_true, decide_eq_true_eq] at h
    simp only [memSet]
    by_cases h1 : a < k
    · simp only [h1, if_true]
      by_cases h2 : b = unlisted
      · simp only [h2, if_true, memGet, show ¬ k = a by omega, if_false]
        exact memGet_below t (k + 1) a h.2 (by omega)
      · simp [h2, memGet]
    · simp only [h1, if_false]
      by_cases h2 : a = k
      · subst h2
        by_cases h3 : b = unlisted
        · simp only [h3, if_true]; exact memGet_below t (a + 1) a h.2 (by omega)
        · simp [h3, memGet]
      · simp only [h2, if_false, memGet, Ne.symm h2]
        exact ih (k + 1) h.2

/-- A write leaves every other byte. -/
theorem memGet_memSet_ne (m : List Host.Cell) (a c : Nat) (b : Byte) (h : c ≠ a) :
    memGet (memSet m a b) c = memGet m c := by
  induction m with
  | nil => simp only [memSet]; split <;> simp [memGet, h.symm]
  | cons p t ih =>
    obtain ⟨k, v⟩ := p
    simp only [memSet]
    by_cases h1 : a < k
    · simp only [h1, if_true]; split <;> simp [memGet, h.symm]
    · simp only [h1, if_false]
      by_cases h2 : a = k
      · subst h2; simp only [if_true]; split <;> simp [memGet, h.symm]
      · simp only [h2, if_false, memGet, ih]

/-- A write keeps the canonical form. -/
theorem memFrom_memSet (m : List Host.Cell) (lo a : Nat) (b : Byte) (h : memFrom lo m = true) (ha : lo ≤ a) :
    memFrom lo (memSet m a b) = true := by
  induction m generalizing lo with
  | nil =>
    simp only [memSet]; split
    · rfl
    · simp [memFrom, *]
  | cons p t ih =>
    obtain ⟨k, v⟩ := p
    have h' := h
    simp only [memFrom, Bool.and_eq_true, decide_eq_true_eq, bne_iff_ne, ne_eq] at h
    simp only [memSet]
    by_cases h1 : a < k
    · simp only [h1, if_true]; split
      · exact h'
      · simp only [memFrom, Bool.and_eq_true, decide_eq_true_eq, bne_iff_ne, ne_eq]
        exact ⟨⟨ha, by assumption⟩, ⟨by omega, h.1.2⟩, h.2⟩
    · simp only [h1, if_false]
      by_cases h2 : a = k
      · subst h2; simp only [if_true]; split
        · have mono : ∀ (l : List Host.Cell) (x y : Nat), x ≤ y → memFrom y l = true → memFrom x l = true := by
            intro l x y hxy hl
            cases l with
            | nil => rfl
            | cons q r =>
              obtain ⟨i, w⟩ := q
              simp only [memFrom, Bool.and_eq_true, decide_eq_true_eq] at hl ⊢
              exact ⟨⟨by omega, hl.1.2⟩, hl.2⟩
          exact mono t lo (a + 1) (by omega) h.2
        · simp only [memFrom, Bool.and_eq_true, decide_eq_true_eq, bne_iff_ne, ne_eq]
          exact ⟨⟨h.1.1, by assumption⟩, h.2⟩
      · simp only [h2, if_false, memFrom, Bool.and_eq_true, decide_eq_true_eq, bne_iff_ne, ne_eq]
        exact ⟨h.1, ih (k + 1) h.2 (by omega)⟩

theorem wf_memSet (m : List Host.Cell) (a : Nat) (b : Byte) (h : Memory.wf m = true) : Memory.wf (memSet m a b) = true :=
  memFrom_memSet m 0 a b h (Nat.zero_le a)

theorem wf_memWrite (n : Nat) (m : List Host.Cell) (a v : Nat) (h : Memory.wf m = true) : Memory.wf (memWrite m a v n) = true := by
  induction n generalizing m a v with
  | zero => exact h
  | succ n ih => exact ih _ _ _ (wf_memSet m a _ h)

theorem wf_memBytes (l : List Byte) (m : List Host.Cell) (a : Nat) (h : Memory.wf m = true) : Memory.wf (memBytes m a l) = true := by
  induction l generalizing m a with
  | nil => exact h
  | cons b t ih => exact ih _ _ (wf_memSet m a b h)

/-- Leaving bytes out keeps the form. -/
theorem memFrom_filter (m : List Host.Cell) (lo : Nat) (f : Host.Cell → Bool) (h : memFrom lo m = true) :
    memFrom lo (m.filter f) = true := by
  induction m generalizing lo with
  | nil => rfl
  | cons p t ih =>
    obtain ⟨k, v⟩ := p
    simp only [memFrom, Bool.and_eq_true, decide_eq_true_eq] at h
    by_cases hf : f (k, v) = true
    · simp only [List.filter_cons, hf, if_true, memFrom, Bool.and_eq_true, decide_eq_true_eq]
      exact ⟨h.1, ih (k + 1) h.2⟩
    · simp only [List.filter_cons, hf]
      have := ih (k + 1) h.2
      revert this
      cases hh : t.filter f with
      | nil => intro _; rfl
      | cons q r =>
        obtain ⟨i, w⟩ := q
        intro hq
        simp only [memFrom, Bool.and_eq_true, decide_eq_true_eq] at hq
        simp only [if_false, memFrom, Bool.and_eq_true, decide_eq_true_eq, Bool.false_eq_true]
        exact ⟨⟨by omega, hq.1.2⟩, hq.2⟩

theorem wf_writeMem (s : State) (a n v : Nat) (h : Memory.wf s.mem = true) : Memory.wf (s.writeMem a n v).mem = true :=
  wf_memWrite n s.mem a v h

/-- Bytes outside those written read as before. -/
theorem memGet_memWrite_out (n : Nat) (m : List Host.Cell) (a v c : Nat) (h : c < a ∨ a + n ≤ c) :
    memGet (memWrite m a v n) c = memGet m c := by
  induction n generalizing m a v with
  | zero => rfl
  | succ n ih =>
    simp only [memWrite]
    rw [ih _ _ _ (by omega), memGet_memSet_ne _ _ _ _ (by omega)]

/-- The byte written at place `i`. -/
theorem memGet_memWrite_in (n : Nat) (m : List Host.Cell) (a v i : Nat) (hm : Memory.wf m = true) (h : i < n) :
    memGet (memWrite m a v n) (a + i) = BitVec.ofNat 8 (v / 256 ^ i) := by
  induction n generalizing m a v i with
  | zero => omega
  | succ n ih =>
    simp only [memWrite]
    cases i with
    | zero =>
      rw [memGet_memWrite_out n _ (a + 1) (v / 256) (a + 0) (by omega)]
      simpa using memGet_memSet_same m 0 a _ hm
    | succ i =>
      have := ih (memSet m a (BitVec.ofNat 8 v)) (a + 1) (v / 256) i (wf_memSet _ _ _ hm) (by omega)
      rw [show a + (i + 1) = a + 1 + i by omega, this, Nat.div_div_eq_div_mul, Nat.pow_succ, Nat.mul_comm]

end Sys2Proof.Machine
end

