-- ==== Sys2Proof/Laws/Ops.lean ====
section
/-! SUPPORT. What each operation that core words share can do: reading and writing registers, the front end, results,
jumps, stalls. -/

namespace Sys2Proof.Machine

open Sys2Proof

/-! ### Cores by number -/

@[simp] theorem State.core_setCore_same (s : State) (c : Nat) (k : Core) : (s.setCore c k).core c = k := by
  simp [State.core]

theorem State.core_setCore_ne (s : State) {c j : Nat} (k : Core) (h : j ≠ c) : (s.setCore c k).core j = s.core j := by
  simp [State.core, Map.get_set_ne _ _ _ h]

@[simp] theorem State.me_modMe (s : State) (f : Core → Core) : (s.modMe f).me = f s.me := by
  simp [State.me, State.modMe, State.modCore]

theorem State.onlyCore_setCore (s : State) (c : Nat) (k : Core) : OnlyCore c s (s.setCore c k) :=
  ⟨rfl, fun _ h => s.core_setCore_ne k h⟩

theorem State.onlyCore_modMe (s : State) (f : Core → Core) : OnlyCore s.cur s (s.modMe f) :=
  s.onlyCore_setCore s.cur (f s.me)

theorem State.coreIs_setCore (s : State) (c : Nat) (k : Core) : CoreIs c s (s.setCore c k) k :=
  ⟨s.onlyCore_setCore c k, s.core_setCore_same c k⟩

/-! ### Registers -/

@[simp] theorem Core.get_zero (k : Core) : k.get 0 = 0 := rfl

@[simp] theorem Core.put_zero (k : Core) (v : Word) : k.put 0 v = k := rfl

theorem Core.get_put_same (k : Core) (d : BitVec 5) (v : Word) : (k.put d v).get d = if d = 0 then 0 else v := by
  unfold Core.get Core.put
  split
  · rfl
  · simp

theorem Core.get_put_ne (k : Core) {d r : BitVec 5} (v : Word) (h : r ≠ d) : (k.put d v).get r = k.get r := by
  unfold Core.get Core.put
  by_cases hd : d = 0
  · simp [hd]
  · by_cases hr : r = 0
    · simp [hr]
    · have : d.toNat ≠ r.toNat := fun e => h (BitVec.eq_of_toNat_eq e.symm)
      simp only [hr, hd, if_false]
      exact Vector.getElem_set_ne _ _ this

/-- A write of a register leaves everything else of the core. -/
theorem Core.put_frame (k : Core) (d : BitVec 5) (v : Word) : { k.put d v with regs := k.regs } = cleaned k d := by
  unfold Core.put cleaned; split <;> rfl

@[simp] theorem Core.put_fflags (k : Core) (d : BitVec 5) (v : Word) : (k.put d v).fflags = k.fflags := by
  unfold Core.put; split <;> rfl

theorem Core.get_with (k : Core) (r : BitVec 5) (p : Word) : ({ k with pc := p } : Core).get r = k.get r := rfl

/-! ### The front end of a word -/

/-- A word that issues does its own part. -/
theorem word_of_issues {i : Instr} {s : State} (h : Issues i s) (body : State → State) : word i body s = .next (body s) := by
  obtain ⟨h1, h2, h3⟩ := h
  have h2' : ¬ s.me.mode.level < (needs i).level := Nat.not_lt.mpr h2
  unfold word
  by_cases hw : waits i = true
  · obtain ⟨h4, h5⟩ := h3 hw
    simp [h1, h2', hw, State.waited, h4, h5]
  · simp [h1, h2', hw]

/-- A word that waits whatever W is. -/
theorem wordWaits_of_drained {i : Instr} {s : State} (h : IssuesDrained i s) (body : State → State) :
    wordWaits i body s = .next (body s) := by
  obtain ⟨h1, h2, h3⟩ := h
  rw [wordWaits, word_of_issues h1]
  simp [State.waited, h2, h3]

/-- A word that is not well-formed takes the trap of an illegal word (R33). -/
theorem word_illFormed {i : Instr} (h : i.wf = false) (body : State → State) (s : State) :
    word i body s = .next (s.trap 1 (wordTval i)) := by
  simp [word, h]

/-- A word above the core's mode takes the privilege trap (R371). -/
theorem word_unprivileged {i : Instr} (h : i.wf = true) {s : State} (hp : s.me.mode.level < (needs i).level)
    (body : State → State) : word i body s = .next (s.trap 2 (wordTval i)) := by
  simp [word, h, hp]

/-- A word that waits while a result is outstanding stalls (R30). -/
theorem word_stalls {i : Instr} {s : State} (h : i.wf = true) (hp : (needs i).level ≤ s.me.mode.level) (hw : waits i = true)
    (ho : s.me.waiting = true) (body : State → State) : word i body s = .next s.stall := by
  simp [word, h, Nat.not_lt.mpr hp, hw, State.waited, ho]

/-- A word answers a next state whatever it finds. -/
theorem word_next (i : Instr) (body : State → State) (s : State) : ∃ t, word i body s = .next t := ⟨_, rfl⟩

/-! ### What a word leaves behind -/

theorem State.writes_result (s : State) (d : BitVec 5) (v : Word) : Writes s (s.result d v) d v := by
  refine ⟨s.onlyCore_modMe _, ?_, ?_, ?_, ?_⟩
  · rw [State.result, State.me_modMe]; unfold Core.put cleaned; split <;> rfl
  · simp [State.result]
  · have := Core.get_put_same s.me d v
    rw [State.result, State.me_modMe]; exact this
  · intro r hr
    rw [State.result, State.me_modMe]; exact Core.get_put_ne s.me v hr

/-- A word whose own part is one register result. -/
theorem gives_of_word {i : Instr} {s : State} {d : BitVec 5} {v : Word} {body : State → State} (he : exec i s = word i body s)
    (hb : body s = s.result d v) : Gives i s d v := by
  intro h
  exact ⟨_, he.trans (word_of_issues h body), hb ▸ s.writes_result d v⟩

theorem State.writesFlags_fpResult (s : State) (d : BitVec 5) (v : Word) (fl : Flags) (h : fl &&& s.me.fpen = 0) :
    WritesFlags s (s.fpResult d v fl) d v fl := by
  have he : s.fpResult d v fl = s.modMe fun k => { (k.put d v).orFlags fl with pc := k.pc + 4 } := by
    simp [State.fpResult, h]
  rw [he]
  refine ⟨s.onlyCore_modMe _, ?_, ?_, ?_, ?_, ?_⟩
  · rw [State.me_modMe]; unfold Core.put cleaned; split <;> rfl
  · simp
  · rw [State.me_modMe]
    show (s.me.put d v).fflags ||| fl = _
    rw [Core.put_fflags]
  · rw [State.me_modMe]; exact Core.get_put_same s.me d v
  · intro r hr
    rw [State.me_modMe]; exact Core.get_put_ne s.me v hr

/-- A result that comes later: the whole of what `State.lateResult` does. -/
theorem State.late_lateResult (s : State) (d : BitVec 5) (v : Word) : Late s (s.lateResult d v) d v := by
  refine ⟨rfl, fun j h => s.core_setCore_ne _ h, s.core_setCore_same _ _, s.nextId, _, Map.find_set_same _ _ _, ?_⟩
  exact ⟨rfl, rfl, rfl, rfl, rfl, rfl, rfl, _, List.mem_append_right _ (List.mem_singleton.mpr rfl)⟩

theorem State.coreIs_advance (s : State) : CoreIs s.cur s s.advance { s.me with pc := s.me.pc + 4 } :=
  s.coreIs_setCore s.cur _

theorem State.coreIs_goto (s : State) (t : Word) : CoreIs s.cur s (s.goto t) { s.me with pc := t, ready := s.cycle + 3 } :=
  s.coreIs_setCore s.cur _

theorem State.coreIs_stall (s : State) : CoreIs s.cur s s.stall { s.me with ready := s.cycle + 1 } :=
  s.coreIs_setCore s.cur _

end Sys2Proof.Machine
end

