-- ==== Sys2Proof/Laws/PerInstr.lean ====
section
/-! SUPPORT. Decoding undoes encoding, one lemma per constructor (R24 to R37). -/

set_option Elab.async false
set_option linter.unusedSimpArgs false
set_option linter.unusedVariables false

namespace Sys2Proof

/-! ### The fields of each form (R25) -/

/-- Bits of the low part of two joined words. -/
theorem extract_low {n m : Nat} (x : BitVec n) (y : BitVec m) (lo k : Nat) (h : lo + k ≤ m) :
    (x ++ y).extractLsb' lo k = y.extractLsb' lo k := BitVec.extractLsb'_append_eq_of_add_le h

/-- Bits of the high part of two joined words. -/
theorem extract_high {n m : Nat} (x : BitVec n) (y : BitVec m) (lo k : Nat) (h : m ≤ lo) :
    (x ++ y).extractLsb' lo k = x.extractLsb' (lo - m) k := BitVec.extractLsb'_append_eq_of_le h

theorem ofBool_one (w : Bool) : decide (BitVec.ofBool w = 1#1) = w := by cases w <;> rfl

theorem encR_w (w : Bool) (op : BitVec 7) (d a b : BitVec 5) (m : BitVec 9) : (encR w op d a b m).extractLsb' 31 1 = BitVec.ofBool w := by
  show (BitVec.ofBool w ++ op ++ d ++ a ++ b ++ m).extractLsb' 31 1 = BitVec.ofBool w
  simp only [extract_high, extract_low, Nat.reduceLeDiff, Nat.reduceSub, BitVec.extractLsb'_eq_self, Nat.le_refl]

theorem encR_fW (w : Bool) (op : BitVec 7) (d a b : BitVec 5) (m : BitVec 9) : fW (encR w op d a b m) = w := by rw [fW, encR_w]; exact ofBool_one w

theorem encR_op (w : Bool) (op : BitVec 7) (d a b : BitVec 5) (m : BitVec 9) : (encR w op d a b m).extractLsb' 24 7 = op := by
  show (BitVec.ofBool w ++ op ++ d ++ a ++ b ++ m).extractLsb' 24 7 = op
  simp only [extract_high, extract_low, Nat.reduceLeDiff, Nat.reduceSub, BitVec.extractLsb'_eq_self, Nat.le_refl]

theorem encR_m (w : Bool) (op : BitVec 7) (d a b : BitVec 5) (m : BitVec 9) : (encR w op d a b m).extractLsb' 0 9 = m := by
  show (BitVec.ofBool w ++ op ++ d ++ a ++ b ++ m).extractLsb' 0 9 = m
  simp only [extract_high, extract_low, Nat.reduceLeDiff, Nat.reduceSub, BitVec.extractLsb'_eq_self, Nat.le_refl]

theorem encR_m_part (w : Bool) (op : BitVec 7) (d a b : BitVec 5) (m : BitVec 9) (p k : Nat) (h : p + k ≤ 9) : (encR w op d a b m).extractLsb' p k = m.extractLsb' p k := by
  show (BitVec.ofBool w ++ op ++ d ++ a ++ b ++ m).extractLsb' p k = _
  rw [extract_low _ _ _ _ h]

theorem encR_b (w : Bool) (op : BitVec 7) (d a b : BitVec 5) (m : BitVec 9) : (encR w op d a b m).extractLsb' 9 5 = b := by
  show (BitVec.ofBool w ++ op ++ d ++ a ++ b ++ m).extractLsb' 9 5 = b
  simp only [extract_high, extract_low, Nat.reduceLeDiff, Nat.reduceSub, BitVec.extractLsb'_eq_self, Nat.le_refl]

theorem encR_a (w : Bool) (op : BitVec 7) (d a b : BitVec 5) (m : BitVec 9) : (encR w op d a b m).extractLsb' 14 5 = a := by
  show (BitVec.ofBool w ++ op ++ d ++ a ++ b ++ m).extractLsb' 14 5 = a
  simp only [extract_high, extract_low, Nat.reduceLeDiff, Nat.reduceSub, BitVec.extractLsb'_eq_self, Nat.le_refl]

theorem encR_d (w : Bool) (op : BitVec 7) (d a b : BitVec 5) (m : BitVec 9) : (encR w op d a b m).extractLsb' 19 5 = d := by
  show (BitVec.ofBool w ++ op ++ d ++ a ++ b ++ m).extractLsb' 19 5 = d
  simp only [extract_high, extract_low, Nat.reduceLeDiff, Nat.reduceSub, BitVec.extractLsb'_eq_self, Nat.le_refl]

theorem encR4_w (w : Bool) (op : BitVec 7) (d a b c : BitVec 5) (ty : BitVec 4) : (encR4 w op d a b c ty).extractLsb' 31 1 = BitVec.ofBool w := by
  show (BitVec.ofBool w ++ op ++ d ++ a ++ b ++ c ++ ty).extractLsb' 31 1 = BitVec.ofBool w
  simp only [extract_high, extract_low, Nat.reduceLeDiff, Nat.reduceSub, BitVec.extractLsb'_eq_self, Nat.le_refl]

theorem encR4_fW (w : Bool) (op : BitVec 7) (d a b c : BitVec 5) (ty : BitVec 4) : fW (encR4 w op d a b c ty) = w := by rw [fW, encR4_w]; exact ofBool_one w

theorem encR4_op (w : Bool) (op : BitVec 7) (d a b c : BitVec 5) (ty : BitVec 4) : (encR4 w op d a b c ty).extractLsb' 24 7 = op := by
  show (BitVec.ofBool w ++ op ++ d ++ a ++ b ++ c ++ ty).extractLsb' 24 7 = op
  simp only [extract_high, extract_low, Nat.reduceLeDiff, Nat.reduceSub, BitVec.extractLsb'_eq_self, Nat.le_refl]

theorem encR4_ty (w : Bool) (op : BitVec 7) (d a b c : BitVec 5) (ty : BitVec 4) : (encR4 w op d a b c ty).extractLsb' 0 4 = ty := by
  show (BitVec.ofBool w ++ op ++ d ++ a ++ b ++ c ++ ty).extractLsb' 0 4 = ty
  simp only [extract_high, extract_low, Nat.reduceLeDiff, Nat.reduceSub, BitVec.extractLsb'_eq_self, Nat.le_refl]

theorem encR4_ty_part (w : Bool) (op : BitVec 7) (d a b c : BitVec 5) (ty : BitVec 4) (p k : Nat) (h : p + k ≤ 4) : (encR4 w op d a b c ty).extractLsb' p k = ty.extractLsb' p k := by
  show (BitVec.ofBool w ++ op ++ d ++ a ++ b ++ c ++ ty).extractLsb' p k = _
  rw [extract_low _ _ _ _ h]

theorem encR4_c (w : Bool) (op : BitVec 7) (d a b c : BitVec 5) (ty : BitVec 4) : (encR4 w op d a b c ty).extractLsb' 4 5 = c := by
  show (BitVec.ofBool w ++ op ++ d ++ a ++ b ++ c ++ ty).extractLsb' 4 5 = c
  simp only [extract_high, extract_low, Nat.reduceLeDiff, Nat.reduceSub, BitVec.extractLsb'_eq_self, Nat.le_refl]

theorem encR4_b (w : Bool) (op : BitVec 7) (d a b c : BitVec 5) (ty : BitVec 4) : (encR4 w op d a b c ty).extractLsb' 9 5 = b := by
  show (BitVec.ofBool w ++ op ++ d ++ a ++ b ++ c ++ ty).extractLsb' 9 5 = b
  simp only [extract_high, extract_low, Nat.reduceLeDiff, Nat.reduceSub, BitVec.extractLsb'_eq_self, Nat.le_refl]

theorem encR4_a (w : Bool) (op : BitVec 7) (d a b c : BitVec 5) (ty : BitVec 4) : (encR4 w op d a b c ty).extractLsb' 14 5 = a := by
  show (BitVec.ofBool w ++ op ++ d ++ a ++ b ++ c ++ ty).extractLsb' 14 5 = a
  simp only [extract_high, extract_low, Nat.reduceLeDiff, Nat.reduceSub, BitVec.extractLsb'_eq_self, Nat.le_refl]

theorem encR4_d (w : Bool) (op : BitVec 7) (d a b c : BitVec 5) (ty : BitVec 4) : (encR4 w op d a b c ty).extractLsb' 19 5 = d := by
  show (BitVec.ofBool w ++ op ++ d ++ a ++ b ++ c ++ ty).extractLsb' 19 5 = d
  simp only [extract_high, extract_low, Nat.reduceLeDiff, Nat.reduceSub, BitVec.extractLsb'_eq_self, Nat.le_refl]

theorem encI_w (w : Bool) (op : BitVec 7) (d a : BitVec 5) (imm : BitVec 14) : (encI w op d a imm).extractLsb' 31 1 = BitVec.ofBool w := by
  show (BitVec.ofBool w ++ op ++ d ++ a ++ imm).extractLsb' 31 1 = BitVec.ofBool w
  simp only [extract_high, extract_low, Nat.reduceLeDiff, Nat.reduceSub, BitVec.extractLsb'_eq_self, Nat.le_refl]

theorem encI_fW (w : Bool) (op : BitVec 7) (d a : BitVec 5) (imm : BitVec 14) : fW (encI w op d a imm) = w := by rw [fW, encI_w]; exact ofBool_one w

theorem encI_op (w : Bool) (op : BitVec 7) (d a : BitVec 5) (imm : BitVec 14) : (encI w op d a imm).extractLsb' 24 7 = op := by
  show (BitVec.ofBool w ++ op ++ d ++ a ++ imm).extractLsb' 24 7 = op
  simp only [extract_high, extract_low, Nat.reduceLeDiff, Nat.reduceSub, BitVec.extractLsb'_eq_self, Nat.le_refl]

theorem encI_imm (w : Bool) (op : BitVec 7) (d a : BitVec 5) (imm : BitVec 14) : (encI w op d a imm).extractLsb' 0 14 = imm := by
  show (BitVec.ofBool w ++ op ++ d ++ a ++ imm).extractLsb' 0 14 = imm
  simp only [extract_high, extract_low, Nat.reduceLeDiff, Nat.reduceSub, BitVec.extractLsb'_eq_self, Nat.le_refl]

theorem encI_imm_part (w : Bool) (op : BitVec 7) (d a : BitVec 5) (imm : BitVec 14) (p k : Nat) (h : p + k ≤ 14) : (encI w op d a imm).extractLsb' p k = imm.extractLsb' p k := by
  show (BitVec.ofBool w ++ op ++ d ++ a ++ imm).extractLsb' p k = _
  rw [extract_low _ _ _ _ h]

theorem encI_a (w : Bool) (op : BitVec 7) (d a : BitVec 5) (imm : BitVec 14) : (encI w op d a imm).extractLsb' 14 5 = a := by
  show (BitVec.ofBool w ++ op ++ d ++ a ++ imm).extractLsb' 14 5 = a
  simp only [extract_high, extract_low, Nat.reduceLeDiff, Nat.reduceSub, BitVec.extractLsb'_eq_self, Nat.le_refl]

theorem encI_d (w : Bool) (op : BitVec 7) (d a : BitVec 5) (imm : BitVec 14) : (encI w op d a imm).extractLsb' 19 5 = d := by
  show (BitVec.ofBool w ++ op ++ d ++ a ++ imm).extractLsb' 19 5 = d
  simp only [extract_high, extract_low, Nat.reduceLeDiff, Nat.reduceSub, BitVec.extractLsb'_eq_self, Nat.le_refl]

theorem encU_w (w : Bool) (op : BitVec 7) (d : BitVec 5) (imm : BitVec 19) : (encU w op d imm).extractLsb' 31 1 = BitVec.ofBool w := by
  show (BitVec.ofBool w ++ op ++ d ++ imm).extractLsb' 31 1 = BitVec.ofBool w
  simp only [extract_high, extract_low, Nat.reduceLeDiff, Nat.reduceSub, BitVec.extractLsb'_eq_self, Nat.le_refl]

theorem encU_fW (w : Bool) (op : BitVec 7) (d : BitVec 5) (imm : BitVec 19) : fW (encU w op d imm) = w := by rw [fW, encU_w]; exact ofBool_one w

theorem encU_op (w : Bool) (op : BitVec 7) (d : BitVec 5) (imm : BitVec 19) : (encU w op d imm).extractLsb' 24 7 = op := by
  show (BitVec.ofBool w ++ op ++ d ++ imm).extractLsb' 24 7 = op
  simp only [extract_high, extract_low, Nat.reduceLeDiff, Nat.reduceSub, BitVec.extractLsb'_eq_self, Nat.le_refl]

theorem encU_imm (w : Bool) (op : BitVec 7) (d : BitVec 5) (imm : BitVec 19) : (encU w op d imm).extractLsb' 0 19 = imm := by
  show (BitVec.ofBool w ++ op ++ d ++ imm).extractLsb' 0 19 = imm
  simp only [extract_high, extract_low, Nat.reduceLeDiff, Nat.reduceSub, BitVec.extractLsb'_eq_self, Nat.le_refl]

theorem encU_imm_part (w : Bool) (op : BitVec 7) (d : BitVec 5) (imm : BitVec 19) (p k : Nat) (h : p + k ≤ 19) : (encU w op d imm).extractLsb' p k = imm.extractLsb' p k := by
  show (BitVec.ofBool w ++ op ++ d ++ imm).extractLsb' p k = _
  rw [extract_low _ _ _ _ h]

theorem encU_d (w : Bool) (op : BitVec 7) (d : BitVec 5) (imm : BitVec 19) : (encU w op d imm).extractLsb' 19 5 = d := by
  show (BitVec.ofBool w ++ op ++ d ++ imm).extractLsb' 19 5 = d
  simp only [extract_high, extract_low, Nat.reduceLeDiff, Nat.reduceSub, BitVec.extractLsb'_eq_self, Nat.le_refl]

theorem encJ_w (w : Bool) (op : BitVec 7) (off : BitVec 24) : (encJ w op off).extractLsb' 31 1 = BitVec.ofBool w := by
  show (BitVec.ofBool w ++ op ++ off).extractLsb' 31 1 = BitVec.ofBool w
  simp only [extract_high, extract_low, Nat.reduceLeDiff, Nat.reduceSub, BitVec.extractLsb'_eq_self, Nat.le_refl]

theorem encJ_fW (w : Bool) (op : BitVec 7) (off : BitVec 24) : fW (encJ w op off) = w := by rw [fW, encJ_w]; exact ofBool_one w

theorem encJ_op (w : Bool) (op : BitVec 7) (off : BitVec 24) : (encJ w op off).extractLsb' 24 7 = op := by
  show (BitVec.ofBool w ++ op ++ off).extractLsb' 24 7 = op
  simp only [extract_high, extract_low, Nat.reduceLeDiff, Nat.reduceSub, BitVec.extractLsb'_eq_self, Nat.le_refl]

theorem encJ_off (w : Bool) (op : BitVec 7) (off : BitVec 24) : (encJ w op off).extractLsb' 0 24 = off := by
  show (BitVec.ofBool w ++ op ++ off).extractLsb' 0 24 = off
  simp only [extract_high, extract_low, Nat.reduceLeDiff, Nat.reduceSub, BitVec.extractLsb'_eq_self, Nat.le_refl]

theorem encJ_off_part (w : Bool) (op : BitVec 7) (off : BitVec 24) (p k : Nat) (h : p + k ≤ 24) : (encJ w op off).extractLsb' p k = off.extractLsb' p k := by
  show (BitVec.ofBool w ++ op ++ off).extractLsb' p k = _
  rw [extract_low _ _ _ _ h]

theorem encQ_w (w : Bool) (op : BitVec 7) (q : BitVec 2) (a : BitVec 5) (n : BitVec 3) (m : BitVec 14) : (encQ w op q a n m).extractLsb' 31 1 = BitVec.ofBool w := by
  show (BitVec.ofBool w ++ op ++ q ++ a ++ n ++ m).extractLsb' 31 1 = BitVec.ofBool w
  simp only [extract_high, extract_low, Nat.reduceLeDiff, Nat.reduceSub, BitVec.extractLsb'_eq_self, Nat.le_refl]

theorem encQ_fW (w : Bool) (op : BitVec 7) (q : BitVec 2) (a : BitVec 5) (n : BitVec 3) (m : BitVec 14) : fW (encQ w op q a n m) = w := by rw [fW, encQ_w]; exact ofBool_one w

theorem encQ_op (w : Bool) (op : BitVec 7) (q : BitVec 2) (a : BitVec 5) (n : BitVec 3) (m : BitVec 14) : (encQ w op q a n m).extractLsb' 24 7 = op := by
  show (BitVec.ofBool w ++ op ++ q ++ a ++ n ++ m).extractLsb' 24 7 = op
  simp only [extract_high, extract_low, Nat.reduceLeDiff, Nat.reduceSub, BitVec.extractLsb'_eq_self, Nat.le_refl]

theorem encQ_m (w : Bool) (op : BitVec 7) (q : BitVec 2) (a : BitVec 5) (n : BitVec 3) (m : BitVec 14) : (encQ w op q a n m).extractLsb' 0 14 = m := by
  show (BitVec.ofBool w ++ op ++ q ++ a ++ n ++ m).extractLsb' 0 14 = m
  simp only [extract_high, extract_low, Nat.reduceLeDiff, Nat.reduceSub, BitVec.extractLsb'_eq_self, Nat.le_refl]

theorem encQ_m_part (w : Bool) (op : BitVec 7) (q : BitVec 2) (a : BitVec 5) (n : BitVec 3) (m : BitVec 14) (p k : Nat) (h : p + k ≤ 14) : (encQ w op q a n m).extractLsb' p k = m.extractLsb' p k := by
  show (BitVec.ofBool w ++ op ++ q ++ a ++ n ++ m).extractLsb' p k = _
  rw [extract_low _ _ _ _ h]

theorem encQ_n (w : Bool) (op : BitVec 7) (q : BitVec 2) (a : BitVec 5) (n : BitVec 3) (m : BitVec 14) : (encQ w op q a n m).extractLsb' 14 3 = n := by
  show (BitVec.ofBool w ++ op ++ q ++ a ++ n ++ m).extractLsb' 14 3 = n
  simp only [extract_high, extract_low, Nat.reduceLeDiff, Nat.reduceSub, BitVec.extractLsb'_eq_self, Nat.le_refl]

theorem encQ_a (w : Bool) (op : BitVec 7) (q : BitVec 2) (a : BitVec 5) (n : BitVec 3) (m : BitVec 14) : (encQ w op q a n m).extractLsb' 17 5 = a := by
  show (BitVec.ofBool w ++ op ++ q ++ a ++ n ++ m).extractLsb' 17 5 = a
  simp only [extract_high, extract_low, Nat.reduceLeDiff, Nat.reduceSub, BitVec.extractLsb'_eq_self, Nat.le_refl]

theorem encQ_q (w : Bool) (op : BitVec 7) (q : BitVec 2) (a : BitVec 5) (n : BitVec 3) (m : BitVec 14) : (encQ w op q a n m).extractLsb' 22 2 = q := by
  show (BitVec.ofBool w ++ op ++ q ++ a ++ n ++ m).extractLsb' 22 2 = q
  simp only [extract_high, extract_low, Nat.reduceLeDiff, Nat.reduceSub, BitVec.extractLsb'_eq_self, Nat.le_refl]

theorem encM_w (w : Bool) (op : BitVec 7) (td : BitVec 3) (row a : BitVec 5) (off : BitVec 11) : (encM w op td row a off).extractLsb' 31 1 = BitVec.ofBool w := by
  show (BitVec.ofBool w ++ op ++ td ++ row ++ a ++ off).extractLsb' 31 1 = BitVec.ofBool w
  simp only [extract_high, extract_low, Nat.reduceLeDiff, Nat.reduceSub, BitVec.extractLsb'_eq_self, Nat.le_refl]

theorem encM_fW (w : Bool) (op : BitVec 7) (td : BitVec 3) (row a : BitVec 5) (off : BitVec 11) : fW (encM w op td row a off) = w := by rw [fW, encM_w]; exact ofBool_one w

theorem encM_op (w : Bool) (op : BitVec 7) (td : BitVec 3) (row a : BitVec 5) (off : BitVec 11) : (encM w op td row a off).extractLsb' 24 7 = op := by
  show (BitVec.ofBool w ++ op ++ td ++ row ++ a ++ off).extractLsb' 24 7 = op
  simp only [extract_high, extract_low, Nat.reduceLeDiff, Nat.reduceSub, BitVec.extractLsb'_eq_self, Nat.le_refl]

theorem encM_off (w : Bool) (op : BitVec 7) (td : BitVec 3) (row a : BitVec 5) (off : BitVec 11) : (encM w op td row a off).extractLsb' 0 11 = off := by
  show (BitVec.ofBool w ++ op ++ td ++ row ++ a ++ off).extractLsb' 0 11 = off
  simp only [extract_high, extract_low, Nat.reduceLeDiff, Nat.reduceSub, BitVec.extractLsb'_eq_self, Nat.le_refl]

theorem encM_off_part (w : Bool) (op : BitVec 7) (td : BitVec 3) (row a : BitVec 5) (off : BitVec 11) (p k : Nat) (h : p + k ≤ 11) : (encM w op td row a off).extractLsb' p k = off.extractLsb' p k := by
  show (BitVec.ofBool w ++ op ++ td ++ row ++ a ++ off).extractLsb' p k = _
  rw [extract_low _ _ _ _ h]

theorem encM_a (w : Bool) (op : BitVec 7) (td : BitVec 3) (row a : BitVec 5) (off : BitVec 11) : (encM w op td row a off).extractLsb' 11 5 = a := by
  show (BitVec.ofBool w ++ op ++ td ++ row ++ a ++ off).extractLsb' 11 5 = a
  simp only [extract_high, extract_low, Nat.reduceLeDiff, Nat.reduceSub, BitVec.extractLsb'_eq_self, Nat.le_refl]

theorem encM_row (w : Bool) (op : BitVec 7) (td : BitVec 3) (row a : BitVec 5) (off : BitVec 11) : (encM w op td row a off).extractLsb' 16 5 = row := by
  show (BitVec.ofBool w ++ op ++ td ++ row ++ a ++ off).extractLsb' 16 5 = row
  simp only [extract_high, extract_low, Nat.reduceLeDiff, Nat.reduceSub, BitVec.extractLsb'_eq_self, Nat.le_refl]

theorem encM_td (w : Bool) (op : BitVec 7) (td : BitVec 3) (row a : BitVec 5) (off : BitVec 11) : (encM w op td row a off).extractLsb' 21 3 = td := by
  show (BitVec.ofBool w ++ op ++ td ++ row ++ a ++ off).extractLsb' 21 3 = td
  simp only [extract_high, extract_low, Nat.reduceLeDiff, Nat.reduceSub, BitVec.extractLsb'_eq_self, Nat.le_refl]

theorem encT_w (w : Bool) (op : BitVec 7) (td ta tb : BitVec 3) (row : BitVec 5) (ty : BitVec 4) (fn : BitVec 6) : (encT w op td ta tb row ty fn).extractLsb' 31 1 = BitVec.ofBool w := by
  show (BitVec.ofBool w ++ op ++ td ++ ta ++ tb ++ row ++ ty ++ fn).extractLsb' 31 1 = BitVec.ofBool w
  simp only [extract_high, extract_low, Nat.reduceLeDiff, Nat.reduceSub, BitVec.extractLsb'_eq_self, Nat.le_refl]

theorem encT_fW (w : Bool) (op : BitVec 7) (td ta tb : BitVec 3) (row : BitVec 5) (ty : BitVec 4) (fn : BitVec 6) : fW (encT w op td ta tb row ty fn) = w := by rw [fW, encT_w]; exact ofBool_one w

theorem encT_op (w : Bool) (op : BitVec 7) (td ta tb : BitVec 3) (row : BitVec 5) (ty : BitVec 4) (fn : BitVec 6) : (encT w op td ta tb row ty fn).extractLsb' 24 7 = op := by
  show (BitVec.ofBool w ++ op ++ td ++ ta ++ tb ++ row ++ ty ++ fn).extractLsb' 24 7 = op
  simp only [extract_high, extract_low, Nat.reduceLeDiff, Nat.reduceSub, BitVec.extractLsb'_eq_self, Nat.le_refl]

theorem encT_fn (w : Bool) (op : BitVec 7) (td ta tb : BitVec 3) (row : BitVec 5) (ty : BitVec 4) (fn : BitVec 6) : (encT w op td ta tb row ty fn).extractLsb' 0 6 = fn := by
  show (BitVec.ofBool w ++ op ++ td ++ ta ++ tb ++ row ++ ty ++ fn).extractLsb' 0 6 = fn
  simp only [extract_high, extract_low, Nat.reduceLeDiff, Nat.reduceSub, BitVec.extractLsb'_eq_self, Nat.le_refl]

theorem encT_fn_part (w : Bool) (op : BitVec 7) (td ta tb : BitVec 3) (row : BitVec 5) (ty : BitVec 4) (fn : BitVec 6) (p k : Nat) (h : p + k ≤ 6) : (encT w op td ta tb row ty fn).extractLsb' p k = fn.extractLsb' p k := by
  show (BitVec.ofBool w ++ op ++ td ++ ta ++ tb ++ row ++ ty ++ fn).extractLsb' p k = _
  rw [extract_low _ _ _ _ h]

theorem encT_ty (w : Bool) (op : BitVec 7) (td ta tb : BitVec 3) (row : BitVec 5) (ty : BitVec 4) (fn : BitVec 6) : (encT w op td ta tb row ty fn).extractLsb' 6 4 = ty := by
  show (BitVec.ofBool w ++ op ++ td ++ ta ++ tb ++ row ++ ty ++ fn).extractLsb' 6 4 = ty
  simp only [extract_high, extract_low, Nat.reduceLeDiff, Nat.reduceSub, BitVec.extractLsb'_eq_self, Nat.le_refl]

theorem encT_row (w : Bool) (op : BitVec 7) (td ta tb : BitVec 3) (row : BitVec 5) (ty : BitVec 4) (fn : BitVec 6) : (encT w op td ta tb row ty fn).extractLsb' 10 5 = row := by
  show (BitVec.ofBool w ++ op ++ td ++ ta ++ tb ++ row ++ ty ++ fn).extractLsb' 10 5 = row
  simp only [extract_high, extract_low, Nat.reduceLeDiff, Nat.reduceSub, BitVec.extractLsb'_eq_self, Nat.le_refl]

theorem encT_tb (w : Bool) (op : BitVec 7) (td ta tb : BitVec 3) (row : BitVec 5) (ty : BitVec 4) (fn : BitVec 6) : (encT w op td ta tb row ty fn).extractLsb' 15 3 = tb := by
  show (BitVec.ofBool w ++ op ++ td ++ ta ++ tb ++ row ++ ty ++ fn).extractLsb' 15 3 = tb
  simp only [extract_high, extract_low, Nat.reduceLeDiff, Nat.reduceSub, BitVec.extractLsb'_eq_self, Nat.le_refl]

theorem encT_ta (w : Bool) (op : BitVec 7) (td ta tb : BitVec 3) (row : BitVec 5) (ty : BitVec 4) (fn : BitVec 6) : (encT w op td ta tb row ty fn).extractLsb' 18 3 = ta := by
  show (BitVec.ofBool w ++ op ++ td ++ ta ++ tb ++ row ++ ty ++ fn).extractLsb' 18 3 = ta
  simp only [extract_high, extract_low, Nat.reduceLeDiff, Nat.reduceSub, BitVec.extractLsb'_eq_self, Nat.le_refl]

theorem encT_td (w : Bool) (op : BitVec 7) (td ta tb : BitVec 3) (row : BitVec 5) (ty : BitVec 4) (fn : BitVec 6) : (encT w op td ta tb row ty fn).extractLsb' 21 3 = td := by
  show (BitVec.ofBool w ++ op ++ td ++ ta ++ tb ++ row ++ ty ++ fn).extractLsb' 21 3 = td
  simp only [extract_high, extract_low, Nat.reduceLeDiff, Nat.reduceSub, BitVec.extractLsb'_eq_self, Nat.le_refl]

/-! Fields of 5, 4 bits -/

theorem join5_4_x (x : BitVec 5) (y : BitVec 4) (p k : Nat) (h : 4 ≤ p) (h' : p + k ≤ 9) : BitVec.extractLsb' (n := 9) p k (x ++ y) = x.extractLsb' (p - 4) k := by
  rw [extract_high _ _ _ _ (by omega)]

theorem join5_4_y (x : BitVec 5) (y : BitVec 4) (p k : Nat) (h : 0 ≤ p) (h' : p + k ≤ 4) : BitVec.extractLsb' (n := 9) p k (x ++ y) = y.extractLsb' (p - 0) k := by
  rw [extract_low _ _ _ _ (by omega)]
  simp

/-! Fields of 2, 6, 6 bits -/

theorem join2_6_6_x (x : BitVec 2) (y : BitVec 6) (z : BitVec 6) (p k : Nat) (h : 12 ≤ p) (h' : p + k ≤ 14) : BitVec.extractLsb' (n := 14) p k (x ++ y ++ z) = x.extractLsb' (p - 12) k := by
  rw [extract_high _ _ _ _ (by omega)]
  rw [extract_high _ _ _ _ (by omega)]
  exact congrArg (fun q => BitVec.extractLsb' q k x) (by omega)

theorem join2_6_6_y (x : BitVec 2) (y : BitVec 6) (z : BitVec 6) (p k : Nat) (h : 6 ≤ p) (h' : p + k ≤ 12) : BitVec.extractLsb' (n := 14) p k (x ++ y ++ z) = y.extractLsb' (p - 6) k := by
  rw [extract_high _ _ _ _ (by omega)]
  rw [extract_low _ _ _ _ (by omega)]

theorem join2_6_6_z (x : BitVec 2) (y : BitVec 6) (z : BitVec 6) (p k : Nat) (h : 0 ≤ p) (h' : p + k ≤ 6) : BitVec.extractLsb' (n := 14) p k (x ++ y ++ z) = z.extractLsb' (p - 0) k := by
  rw [extract_low _ _ _ _ (by omega)]
  simp

/-! Fields of 8, 6 bits -/

theorem join8_6_x (x : BitVec 8) (y : BitVec 6) (p k : Nat) (h : 6 ≤ p) (h' : p + k ≤ 14) : BitVec.extractLsb' (n := 14) p k (x ++ y) = x.extractLsb' (p - 6) k := by
  rw [extract_high _ _ _ _ (by omega)]

theorem join8_6_y (x : BitVec 8) (y : BitVec 6) (p k : Nat) (h : 0 ≤ p) (h' : p + k ≤ 6) : BitVec.extractLsb' (n := 14) p k (x ++ y) = y.extractLsb' (p - 0) k := by
  rw [extract_low _ _ _ _ (by omega)]
  simp

/-! Fields of 1, 4, 4 bits -/

theorem join1_4_4_x (x : BitVec 1) (y : BitVec 4) (z : BitVec 4) (p k : Nat) (h : 8 ≤ p) (h' : p + k ≤ 9) : BitVec.extractLsb' (n := 9) p k (x ++ y ++ z) = x.extractLsb' (p - 8) k := by
  rw [extract_high _ _ _ _ (by omega)]
  rw [extract_high _ _ _ _ (by omega)]
  exact congrArg (fun q => BitVec.extractLsb' q k x) (by omega)

theorem join1_4_4_y (x : BitVec 1) (y : BitVec 4) (z : BitVec 4) (p k : Nat) (h : 4 ≤ p) (h' : p + k ≤ 8) : BitVec.extractLsb' (n := 9) p k (x ++ y ++ z) = y.extractLsb' (p - 4) k := by
  rw [extract_high _ _ _ _ (by omega)]
  rw [extract_low _ _ _ _ (by omega)]

theorem join1_4_4_z (x : BitVec 1) (y : BitVec 4) (z : BitVec 4) (p k : Nat) (h : 0 ≤ p) (h' : p + k ≤ 4) : BitVec.extractLsb' (n := 9) p k (x ++ y ++ z) = z.extractLsb' (p - 0) k := by
  rw [extract_low _ _ _ _ (by omega)]
  simp

/-! Fields of 2, 12 bits -/

theorem join2_12_x (x : BitVec 2) (y : BitVec 12) (p k : Nat) (h : 12 ≤ p) (h' : p + k ≤ 14) : BitVec.extractLsb' (n := 14) p k (x ++ y) = x.extractLsb' (p - 12) k := by
  rw [extract_high _ _ _ _ (by omega)]

theorem join2_12_y (x : BitVec 2) (y : BitVec 12) (p k : Nat) (h : 0 ≤ p) (h' : p + k ≤ 12) : BitVec.extractLsb' (n := 14) p k (x ++ y) = y.extractLsb' (p - 0) k := by
  rw [extract_low _ _ _ _ (by omega)]
  simp

/-! Fields of 5, 9 bits -/

theorem join5_9_x (x : BitVec 5) (y : BitVec 9) (p k : Nat) (h : 9 ≤ p) (h' : p + k ≤ 14) : BitVec.extractLsb' (n := 14) p k (x ++ y) = x.extractLsb' (p - 9) k := by
  rw [extract_high _ _ _ _ (by omega)]

theorem join5_9_y (x : BitVec 5) (y : BitVec 9) (p k : Nat) (h : 0 ≤ p) (h' : p + k ≤ 9) : BitVec.extractLsb' (n := 14) p k (x ++ y) = y.extractLsb' (p - 0) k := by
  rw [extract_low _ _ _ _ (by omega)]
  simp

/-! Fields of 4, 5 bits -/

theorem join4_5_x (x : BitVec 4) (y : BitVec 5) (p k : Nat) (h : 5 ≤ p) (h' : p + k ≤ 9) : BitVec.extractLsb' (n := 9) p k (x ++ y) = x.extractLsb' (p - 5) k := by
  rw [extract_high _ _ _ _ (by omega)]

theorem join4_5_y (x : BitVec 4) (y : BitVec 5) (p k : Nat) (h : 0 ≤ p) (h' : p + k ≤ 5) : BitVec.extractLsb' (n := 9) p k (x ++ y) = y.extractLsb' (p - 0) k := by
  rw [extract_low _ _ _ _ (by omega)]
  simp

/-! Fields of 4, 1, 4 bits -/

theorem join4_1_4_x (x : BitVec 4) (y : BitVec 1) (z : BitVec 4) (p k : Nat) (h : 5 ≤ p) (h' : p + k ≤ 9) : BitVec.extractLsb' (n := 9) p k (x ++ y ++ z) = x.extractLsb' (p - 5) k := by
  rw [extract_high _ _ _ _ (by omega)]
  rw [extract_high _ _ _ _ (by omega)]
  exact congrArg (fun q => BitVec.extractLsb' q k x) (by omega)

theorem join4_1_4_y (x : BitVec 4) (y : BitVec 1) (z : BitVec 4) (p k : Nat) (h : 4 ≤ p) (h' : p + k ≤ 5) : BitVec.extractLsb' (n := 9) p k (x ++ y ++ z) = y.extractLsb' (p - 4) k := by
  rw [extract_high _ _ _ _ (by omega)]
  rw [extract_low _ _ _ _ (by omega)]

theorem join4_1_4_z (x : BitVec 4) (y : BitVec 1) (z : BitVec 4) (p k : Nat) (h : 0 ≤ p) (h' : p + k ≤ 4) : BitVec.extractLsb' (n := 9) p k (x ++ y ++ z) = z.extractLsb' (p - 0) k := by
  rw [extract_low _ _ _ _ (by omega)]
  simp

/-! Fields of 1, 10 bits -/

theorem join1_10_x (x : BitVec 1) (y : BitVec 10) (p k : Nat) (h : 10 ≤ p) (h' : p + k ≤ 11) : BitVec.extractLsb' (n := 11) p k (x ++ y) = x.extractLsb' (p - 10) k := by
  rw [extract_high _ _ _ _ (by omega)]

theorem join1_10_y (x : BitVec 1) (y : BitVec 10) (p k : Nat) (h : 0 ≤ p) (h' : p + k ≤ 10) : BitVec.extractLsb' (n := 11) p k (x ++ y) = y.extractLsb' (p - 0) k := by
  rw [extract_low _ _ _ _ (by omega)]
  simp

/-! Fields of 2, 4 bits -/

theorem join2_4_x (x : BitVec 2) (y : BitVec 4) (p k : Nat) (h : 4 ≤ p) (h' : p + k ≤ 6) : BitVec.extractLsb' (n := 6) p k (x ++ y) = x.extractLsb' (p - 4) k := by
  rw [extract_high _ _ _ _ (by omega)]

theorem join2_4_y (x : BitVec 2) (y : BitVec 4) (p k : Nat) (h : 0 ≤ p) (h' : p + k ≤ 4) : BitVec.extractLsb' (n := 6) p k (x ++ y) = y.extractLsb' (p - 0) k := by
  rw [extract_low _ _ _ _ (by omega)]
  simp

/-! ### The definition of each OP -/

theorem decode_01 (x : BitVec 32) (h : x.extractLsb' 24 7 = 0x01#7) : decode x = decOp01 x := by
  unfold decode; rw [h]; rfl

theorem decode_02 (x : BitVec 32) (h : x.extractLsb' 24 7 = 0x02#7) : decode x = decOp02 x := by
  unfold decode; rw [h]; rfl

theorem decode_03 (x : BitVec 32) (h : x.extractLsb' 24 7 = 0x03#7) : decode x = decOp03 x := by
  unfold decode; rw [h]; rfl

theorem decode_04 (x : BitVec 32) (h : x.extractLsb' 24 7 = 0x04#7) : decode x = decOp04 x := by
  unfold decode; rw [h]; rfl

theorem decode_05 (x : BitVec 32) (h : x.extractLsb' 24 7 = 0x05#7) : decode x = decOp05 x := by
  unfold decode; rw [h]; rfl

theorem decode_06 (x : BitVec 32) (h : x.extractLsb' 24 7 = 0x06#7) : decode x = decOp06 x := by
  unfold decode; rw [h]; rfl

theorem decode_07 (x : BitVec 32) (h : x.extractLsb' 24 7 = 0x07#7) : decode x = decOp07 x := by
  unfold decode; rw [h]; rfl

theorem decode_08 (x : BitVec 32) (h : x.extractLsb' 24 7 = 0x08#7) : decode x = decOp08 x := by
  unfold decode; rw [h]; rfl

theorem decode_09 (x : BitVec 32) (h : x.extractLsb' 24 7 = 0x09#7) : decode x = decOp09 x := by
  unfold decode; rw [h]; rfl

theorem decode_0A (x : BitVec 32) (h : x.extractLsb' 24 7 = 0x0A#7) : decode x = decOp0A x := by
  unfold decode; rw [h]; rfl

theorem decode_0B (x : BitVec 32) (h : x.extractLsb' 24 7 = 0x0B#7) : decode x = decOp0B x := by
  unfold decode; rw [h]; rfl

theorem decode_0C (x : BitVec 32) (h : x.extractLsb' 24 7 = 0x0C#7) : decode x = decOp0C x := by
  unfold decode; rw [h]; rfl

theorem decode_0D (x : BitVec 32) (h : x.extractLsb' 24 7 = 0x0D#7) : decode x = decOp0D x := by
  unfold decode; rw [h]; rfl

theorem decode_0E (x : BitVec 32) (h : x.extractLsb' 24 7 = 0x0E#7) : decode x = decOp0E x := by
  unfold decode; rw [h]; rfl

theorem decode_0F (x : BitVec 32) (h : x.extractLsb' 24 7 = 0x0F#7) : decode x = decOp0F x := by
  unfold decode; rw [h]; rfl

theorem decode_10 (x : BitVec 32) (h : x.extractLsb' 24 7 = 0x10#7) : decode x = decOp10 x := by
  unfold decode; rw [h]; rfl

theorem decode_11 (x : BitVec 32) (h : x.extractLsb' 24 7 = 0x11#7) : decode x = decOp11 x := by
  unfold decode; rw [h]; rfl

theorem decode_12 (x : BitVec 32) (h : x.extractLsb' 24 7 = 0x12#7) : decode x = decOp12 x := by
  unfold decode; rw [h]; rfl

theorem decode_13 (x : BitVec 32) (h : x.extractLsb' 24 7 = 0x13#7) : decode x = decOp13 x := by
  unfold decode; rw [h]; rfl

theorem decode_18 (x : BitVec 32) (h : x.extractLsb' 24 7 = 0x18#7) : decode x = decOp18 x := by
  unfold decode; rw [h]; rfl

theorem decode_19 (x : BitVec 32) (h : x.extractLsb' 24 7 = 0x19#7) : decode x = decOp19 x := by
  unfold decode; rw [h]; rfl

theorem decode_1A (x : BitVec 32) (h : x.extractLsb' 24 7 = 0x1A#7) : decode x = decOp1A x := by
  unfold decode; rw [h]; rfl

theorem decode_1B (x : BitVec 32) (h : x.extractLsb' 24 7 = 0x1B#7) : decode x = decOp1B x := by
  unfold decode; rw [h]; rfl

theorem decode_1C (x : BitVec 32) (h : x.extractLsb' 24 7 = 0x1C#7) : decode x = decOp1C x := by
  unfold decode; rw [h]; rfl

theorem decode_1D (x : BitVec 32) (h : x.extractLsb' 24 7 = 0x1D#7) : decode x = decOp1D x := by
  unfold decode; rw [h]; rfl

theorem decode_20 (x : BitVec 32) (h : x.extractLsb' 24 7 = 0x20#7) : decode x = decOp20 x := by
  unfold decode; rw [h]; rfl

theorem decode_21 (x : BitVec 32) (h : x.extractLsb' 24 7 = 0x21#7) : decode x = decOp21 x := by
  unfold decode; rw [h]; rfl

theorem decode_22 (x : BitVec 32) (h : x.extractLsb' 24 7 = 0x22#7) : decode x = decOp22 x := by
  unfold decode; rw [h]; rfl

theorem decode_23 (x : BitVec 32) (h : x.extractLsb' 24 7 = 0x23#7) : decode x = decOp23 x := by
  unfold decode; rw [h]; rfl

theorem decode_24 (x : BitVec 32) (h : x.extractLsb' 24 7 = 0x24#7) : decode x = decOp24 x := by
  unfold decode; rw [h]; rfl

theorem decode_25 (x : BitVec 32) (h : x.extractLsb' 24 7 = 0x25#7) : decode x = decOp25 x := by
  unfold decode; rw [h]; rfl

theorem decode_26 (x : BitVec 32) (h : x.extractLsb' 24 7 = 0x26#7) : decode x = decOp26 x := by
  unfold decode; rw [h]; rfl

theorem decode_27 (x : BitVec 32) (h : x.extractLsb' 24 7 = 0x27#7) : decode x = decOp27 x := by
  unfold decode; rw [h]; rfl

theorem decode_28 (x : BitVec 32) (h : x.extractLsb' 24 7 = 0x28#7) : decode x = decOp28 x := by
  unfold decode; rw [h]; rfl

theorem decode_30 (x : BitVec 32) (h : x.extractLsb' 24 7 = 0x30#7) : decode x = decOp30 x := by
  unfold decode; rw [h]; rfl

theorem decode_31 (x : BitVec 32) (h : x.extractLsb' 24 7 = 0x31#7) : decode x = decOp31 x := by
  unfold decode; rw [h]; rfl

theorem decode_32 (x : BitVec 32) (h : x.extractLsb' 24 7 = 0x32#7) : decode x = decOp32 x := by
  unfold decode; rw [h]; rfl

theorem decode_33 (x : BitVec 32) (h : x.extractLsb' 24 7 = 0x33#7) : decode x = decOp33 x := by
  unfold decode; rw [h]; rfl

theorem decode_34 (x : BitVec 32) (h : x.extractLsb' 24 7 = 0x34#7) : decode x = decOp34 x := by
  unfold decode; rw [h]; rfl

theorem decode_35 (x : BitVec 32) (h : x.extractLsb' 24 7 = 0x35#7) : decode x = decOp35 x := by
  unfold decode; rw [h]; rfl

theorem decode_36 (x : BitVec 32) (h : x.extractLsb' 24 7 = 0x36#7) : decode x = decOp36 x := by
  unfold decode; rw [h]; rfl

theorem decode_37 (x : BitVec 32) (h : x.extractLsb' 24 7 = 0x37#7) : decode x = decOp37 x := by
  unfold decode; rw [h]; rfl

theorem decode_38 (x : BitVec 32) (h : x.extractLsb' 24 7 = 0x38#7) : decode x = decOp38 x := by
  unfold decode; rw [h]; rfl

theorem decode_39 (x : BitVec 32) (h : x.extractLsb' 24 7 = 0x39#7) : decode x = decOp39 x := by
  unfold decode; rw [h]; rfl

theorem decode_3A (x : BitVec 32) (h : x.extractLsb' 24 7 = 0x3A#7) : decode x = decOp3A x := by
  unfold decode; rw [h]; rfl

theorem decode_3B (x : BitVec 32) (h : x.extractLsb' 24 7 = 0x3B#7) : decode x = decOp3B x := by
  unfold decode; rw [h]; rfl

theorem decode_3C (x : BitVec 32) (h : x.extractLsb' 24 7 = 0x3C#7) : decode x = decOp3C x := by
  unfold decode; rw [h]; rfl

theorem decode_3D (x : BitVec 32) (h : x.extractLsb' 24 7 = 0x3D#7) : decode x = decOp3D x := by
  unfold decode; rw [h]; rfl

theorem decode_40 (x : BitVec 32) (h : x.extractLsb' 24 7 = 0x40#7) : decode x = decOp40 x := by
  unfold decode; rw [h]; rfl

theorem decode_41 (x : BitVec 32) (h : x.extractLsb' 24 7 = 0x41#7) : decode x = decOp41 x := by
  unfold decode; rw [h]; rfl

theorem decode_42 (x : BitVec 32) (h : x.extractLsb' 24 7 = 0x42#7) : decode x = decOp42 x := by
  unfold decode; rw [h]; rfl

theorem decode_43 (x : BitVec 32) (h : x.extractLsb' 24 7 = 0x43#7) : decode x = decOp43 x := by
  unfold decode; rw [h]; rfl

theorem decode_44 (x : BitVec 32) (h : x.extractLsb' 24 7 = 0x44#7) : decode x = decOp44 x := by
  unfold decode; rw [h]; rfl

theorem decode_46 (x : BitVec 32) (h : x.extractLsb' 24 7 = 0x46#7) : decode x = decOp46 x := by
  unfold decode; rw [h]; rfl

theorem decode_47 (x : BitVec 32) (h : x.extractLsb' 24 7 = 0x47#7) : decode x = decOp47 x := by
  unfold decode; rw [h]; rfl

theorem decode_48 (x : BitVec 32) (h : x.extractLsb' 24 7 = 0x48#7) : decode x = decOp48 x := by
  unfold decode; rw [h]; rfl

theorem decode_49 (x : BitVec 32) (h : x.extractLsb' 24 7 = 0x49#7) : decode x = decOp49 x := by
  unfold decode; rw [h]; rfl

theorem decode_4A (x : BitVec 32) (h : x.extractLsb' 24 7 = 0x4A#7) : decode x = decOp4A x := by
  unfold decode; rw [h]; rfl

theorem decode_4B (x : BitVec 32) (h : x.extractLsb' 24 7 = 0x4B#7) : decode x = decOp4B x := by
  unfold decode; rw [h]; rfl

theorem decode_4C (x : BitVec 32) (h : x.extractLsb' 24 7 = 0x4C#7) : decode x = decOp4C x := by
  unfold decode; rw [h]; rfl

theorem decode_4D (x : BitVec 32) (h : x.extractLsb' 24 7 = 0x4D#7) : decode x = decOp4D x := by
  unfold decode; rw [h]; rfl

theorem decode_4E (x : BitVec 32) (h : x.extractLsb' 24 7 = 0x4E#7) : decode x = decOp4E x := by
  unfold decode; rw [h]; rfl

theorem decode_50 (x : BitVec 32) (h : x.extractLsb' 24 7 = 0x50#7) : decode x = decOp50 x := by
  unfold decode; rw [h]; rfl

theorem decode_51 (x : BitVec 32) (h : x.extractLsb' 24 7 = 0x51#7) : decode x = decOp51 x := by
  unfold decode; rw [h]; rfl

theorem decode_52 (x : BitVec 32) (h : x.extractLsb' 24 7 = 0x52#7) : decode x = decOp52 x := by
  unfold decode; rw [h]; rfl

theorem decode_54 (x : BitVec 32) (h : x.extractLsb' 24 7 = 0x54#7) : decode x = decOp54 x := by
  unfold decode; rw [h]; rfl

theorem decode_55 (x : BitVec 32) (h : x.extractLsb' 24 7 = 0x55#7) : decode x = decOp55 x := by
  unfold decode; rw [h]; rfl

theorem decode_56 (x : BitVec 32) (h : x.extractLsb' 24 7 = 0x56#7) : decode x = decOp56 x := by
  unfold decode; rw [h]; rfl

theorem decode_57 (x : BitVec 32) (h : x.extractLsb' 24 7 = 0x57#7) : decode x = decOp57 x := by
  unfold decode; rw [h]; rfl

theorem decode_58 (x : BitVec 32) (h : x.extractLsb' 24 7 = 0x58#7) : decode x = decOp58 x := by
  unfold decode; rw [h]; rfl

theorem decode_59 (x : BitVec 32) (h : x.extractLsb' 24 7 = 0x59#7) : decode x = decOp59 x := by
  unfold decode; rw [h]; rfl

theorem decode_5A (x : BitVec 32) (h : x.extractLsb' 24 7 = 0x5A#7) : decode x = decOp5A x := by
  unfold decode; rw [h]; rfl

theorem decode_5B (x : BitVec 32) (h : x.extractLsb' 24 7 = 0x5B#7) : decode x = decOp5B x := by
  unfold decode; rw [h]; rfl

theorem decode_5C (x : BitVec 32) (h : x.extractLsb' 24 7 = 0x5C#7) : decode x = decOp5C x := by
  unfold decode; rw [h]; rfl

theorem decode_5D (x : BitVec 32) (h : x.extractLsb' 24 7 = 0x5D#7) : decode x = decOp5D x := by
  unfold decode; rw [h]; rfl

theorem decode_5E (x : BitVec 32) (h : x.extractLsb' 24 7 = 0x5E#7) : decode x = decOp5E x := by
  unfold decode; rw [h]; rfl

theorem decode_5F (x : BitVec 32) (h : x.extractLsb' 24 7 = 0x5F#7) : decode x = decOp5F x := by
  unfold decode; rw [h]; rfl

theorem decode_60 (x : BitVec 32) (h : x.extractLsb' 24 7 = 0x60#7) : decode x = decOp60 x := by
  unfold decode; rw [h]; rfl

theorem decode_68 (x : BitVec 32) (h : x.extractLsb' 24 7 = 0x68#7) : decode x = decOp68 x := by
  unfold decode; rw [h]; rfl

theorem decode_61 (x : BitVec 32) (h : x.extractLsb' 24 7 = 0x61#7) : decode x = decOp61 x := by
  unfold decode; rw [h]; rfl

theorem decode_69 (x : BitVec 32) (h : x.extractLsb' 24 7 = 0x69#7) : decode x = decOp69 x := by
  unfold decode; rw [h]; rfl

theorem decode_62 (x : BitVec 32) (h : x.extractLsb' 24 7 = 0x62#7) : decode x = decOp62 x := by
  unfold decode; rw [h]; rfl

theorem decode_6A (x : BitVec 32) (h : x.extractLsb' 24 7 = 0x6A#7) : decode x = decOp6A x := by
  unfold decode; rw [h]; rfl

theorem decode_63 (x : BitVec 32) (h : x.extractLsb' 24 7 = 0x63#7) : decode x = decOp63 x := by
  unfold decode; rw [h]; rfl

theorem decode_6B (x : BitVec 32) (h : x.extractLsb' 24 7 = 0x6B#7) : decode x = decOp6B x := by
  unfold decode; rw [h]; rfl

theorem decode_64 (x : BitVec 32) (h : x.extractLsb' 24 7 = 0x64#7) : decode x = decOp64 x := by
  unfold decode; rw [h]; rfl

theorem decode_6C (x : BitVec 32) (h : x.extractLsb' 24 7 = 0x6C#7) : decode x = decOp6C x := by
  unfold decode; rw [h]; rfl

theorem decode_65 (x : BitVec 32) (h : x.extractLsb' 24 7 = 0x65#7) : decode x = decOp65 x := by
  unfold decode; rw [h]; rfl

theorem decode_6D (x : BitVec 32) (h : x.extractLsb' 24 7 = 0x6D#7) : decode x = decOp6D x := by
  unfold decode; rw [h]; rfl

theorem decode_66 (x : BitVec 32) (h : x.extractLsb' 24 7 = 0x66#7) : decode x = decOp66 x := by
  unfold decode; rw [h]; rfl

theorem decode_67 (x : BitVec 32) (h : x.extractLsb' 24 7 = 0x67#7) : decode x = decOp67 x := by
  unfold decode; rw [h]; rfl

theorem decode_6E (x : BitVec 32) (h : x.extractLsb' 24 7 = 0x6E#7) : decode x = decOp6E x := by
  unfold decode; rw [h]; rfl

theorem decode_6F (x : BitVec 32) (h : x.extractLsb' 24 7 = 0x6F#7) : decode x = decOp6F x := by
  unfold decode; rw [h]; rfl

theorem decode_70 (x : BitVec 32) (h : x.extractLsb' 24 7 = 0x70#7) : decode x = decOp70 x := by
  unfold decode; rw [h]; rfl

theorem decode_71 (x : BitVec 32) (h : x.extractLsb' 24 7 = 0x71#7) : decode x = decOp71 x := by
  unfold decode; rw [h]; rfl

theorem decode_72 (x : BitVec 32) (h : x.extractLsb' 24 7 = 0x72#7) : decode x = decOp72 x := by
  unfold decode; rw [h]; rfl

theorem decode_73 (x : BitVec 32) (h : x.extractLsb' 24 7 = 0x73#7) : decode x = decOp73 x := by
  unfold decode; rw [h]; rfl

theorem decode_74 (x : BitVec 32) (h : x.extractLsb' 24 7 = 0x74#7) : decode x = decOp74 x := by
  unfold decode; rw [h]; rfl

theorem decode_75 (x : BitVec 32) (h : x.extractLsb' 24 7 = 0x75#7) : decode x = decOp75 x := by
  unfold decode; rw [h]; rfl

theorem decode_76 (x : BitVec 32) (h : x.extractLsb' 24 7 = 0x76#7) : decode x = decOp76 x := by
  unfold decode; rw [h]; rfl

/-- Two neighbouring fields that are zero, read as one. -/
theorem zero_span (x : BitVec 32) (lo p q : Nat) (h : x.extractLsb' lo p = 0#p) (h' : x.extractLsb' (lo + p) q = 0#q) :
    x.extractLsb' lo (p + q) = 0#(p + q) := by
  apply BitVec.eq_of_getLsbD_eq
  intro i hi
  simp only [BitVec.getLsbD_extractLsb', hi, decide_true, Bool.true_and, BitVec.getLsbD_zero]
  by_cases hp : i < p
  · have := congrArg (fun z => z.getLsbD i) h
    simpa [BitVec.getLsbD_extractLsb', hp] using this
  · have := congrArg (fun z => z.getLsbD (i - p)) h'
    have hq : i - p < q := by omega
    have e : lo + p + (i - p) = lo + i := by omega
    simpa [BitVec.getLsbD_extractLsb', hq, e] using this

namespace Laws.RoundTrip

/-- The decoder answers the instruction whose word is given (all rows that are core words). -/
def Statement (i : Instr) : Prop := i.isWord = true → decode (encode i) = .ok i

theorem add w d a b : Statement (.add w d a b) := by
  intro _
  rw [show encode (.add w d a b) = encR w 0x01#7 d a b 0#9 from rfl, decode_01 _ (encR_op ..)]
  simp [decOp01, encR_fW, encR_op, encR_m, encR_b, encR_a, encR_d, encR_m_part]
theorem sub w d a b : Statement (.sub w d a b) := by
  intro _
  rw [show encode (.sub w d a b) = encR w 0x01#7 d a b 1#9 from rfl, decode_01 _ (encR_op ..)]
  simp [decOp01, encR_fW, encR_op, encR_m, encR_b, encR_a, encR_d, encR_m_part]
theorem mul w d a b : Statement (.mul w d a b) := by
  intro _
  rw [show encode (.mul w d a b) = encR w 0x01#7 d a b 2#9 from rfl, decode_01 _ (encR_op ..)]
  simp [decOp01, encR_fW, encR_op, encR_m, encR_b, encR_a, encR_d, encR_m_part]
theorem mulh w d a b : Statement (.mulh w d a b) := by
  intro _
  rw [show encode (.mulh w d a b) = encR w 0x01#7 d a b 3#9 from rfl, decode_01 _ (encR_op ..)]
  simp [decOp01, encR_fW, encR_op, encR_m, encR_b, encR_a, encR_d, encR_m_part]
theorem mulhu w d a b : Statement (.mulhu w d a b) := by
  intro _
  rw [show encode (.mulhu w d a b) = encR w 0x01#7 d a b 4#9 from rfl, decode_01 _ (encR_op ..)]
  simp [decOp01, encR_fW, encR_op, encR_m, encR_b, encR_a, encR_d, encR_m_part]
theorem div w d a b : Statement (.div w d a b) := by
  intro _
  rw [show encode (.div w d a b) = encR w 0x01#7 d a b 5#9 from rfl, decode_01 _ (encR_op ..)]
  simp [decOp01, encR_fW, encR_op, encR_m, encR_b, encR_a, encR_d, encR_m_part]
theorem divu w d a b : Statement (.divu w d a b) := by
  intro _
  rw [show encode (.divu w d a b) = encR w 0x01#7 d a b 6#9 from rfl, decode_01 _ (encR_op ..)]
  simp [decOp01, encR_fW, encR_op, encR_m, encR_b, encR_a, encR_d, encR_m_part]
theorem rem w d a b : Statement (.rem w d a b) := by
  intro _
  rw [show encode (.rem w d a b) = encR w 0x01#7 d a b 7#9 from rfl, decode_01 _ (encR_op ..)]
  simp [decOp01, encR_fW, encR_op, encR_m, encR_b, encR_a, encR_d, encR_m_part]
theorem remu w d a b : Statement (.remu w d a b) := by
  intro _
  rw [show encode (.remu w d a b) = encR w 0x01#7 d a b 8#9 from rfl, decode_01 _ (encR_op ..)]
  simp [decOp01, encR_fW, encR_op, encR_m, encR_b, encR_a, encR_d, encR_m_part]
theorem and w d a b : Statement (.and w d a b) := by
  intro _
  rw [show encode (.and w d a b) = encR w 0x01#7 d a b 9#9 from rfl, decode_01 _ (encR_op ..)]
  simp [decOp01, encR_fW, encR_op, encR_m, encR_b, encR_a, encR_d, encR_m_part]
theorem or w d a b : Statement (.or w d a b) := by
  intro _
  rw [show encode (.or w d a b) = encR w 0x01#7 d a b 10#9 from rfl, decode_01 _ (encR_op ..)]
  simp [decOp01, encR_fW, encR_op, encR_m, encR_b, encR_a, encR_d, encR_m_part]
theorem xor w d a b : Statement (.xor w d a b) := by
  intro _
  rw [show encode (.xor w d a b) = encR w 0x01#7 d a b 11#9 from rfl, decode_01 _ (encR_op ..)]
  simp [decOp01, encR_fW, encR_op, encR_m, encR_b, encR_a, encR_d, encR_m_part]
theorem andn w d a b : Statement (.andn w d a b) := by
  intro _
  rw [show encode (.andn w d a b) = encR w 0x01#7 d a b 12#9 from rfl, decode_01 _ (encR_op ..)]
  simp [decOp01, encR_fW, encR_op, encR_m, encR_b, encR_a, encR_d, encR_m_part]
theorem orn w d a b : Statement (.orn w d a b) := by
  intro _
  rw [show encode (.orn w d a b) = encR w 0x01#7 d a b 13#9 from rfl, decode_01 _ (encR_op ..)]
  simp [decOp01, encR_fW, encR_op, encR_m, encR_b, encR_a, encR_d, encR_m_part]
theorem sll w d a b : Statement (.sll w d a b) := by
  intro _
  rw [show encode (.sll w d a b) = encR w 0x01#7 d a b 14#9 from rfl, decode_01 _ (encR_op ..)]
  simp [decOp01, encR_fW, encR_op, encR_m, encR_b, encR_a, encR_d, encR_m_part]
theorem srl w d a b : Statement (.srl w d a b) := by
  intro _
  rw [show encode (.srl w d a b) = encR w 0x01#7 d a b 15#9 from rfl, decode_01 _ (encR_op ..)]
  simp [decOp01, encR_fW, encR_op, encR_m, encR_b, encR_a, encR_d, encR_m_part]
theorem sra w d a b : Statement (.sra w d a b) := by
  intro _
  rw [show encode (.sra w d a b) = encR w 0x01#7 d a b 16#9 from rfl, decode_01 _ (encR_op ..)]
  simp [decOp01, encR_fW, encR_op, encR_m, encR_b, encR_a, encR_d, encR_m_part]
theorem rol w d a b : Statement (.rol w d a b) := by
  intro _
  rw [show encode (.rol w d a b) = encR w 0x01#7 d a b 17#9 from rfl, decode_01 _ (encR_op ..)]
  simp [decOp01, encR_fW, encR_op, encR_m, encR_b, encR_a, encR_d, encR_m_part]
theorem min w d a b : Statement (.min w d a b) := by
  intro _
  rw [show encode (.min w d a b) = encR w 0x01#7 d a b 18#9 from rfl, decode_01 _ (encR_op ..)]
  simp [decOp01, encR_fW, encR_op, encR_m, encR_b, encR_a, encR_d, encR_m_part]
theorem max w d a b : Statement (.max w d a b) := by
  intro _
  rw [show encode (.max w d a b) = encR w 0x01#7 d a b 19#9 from rfl, decode_01 _ (encR_op ..)]
  simp [decOp01, encR_fW, encR_op, encR_m, encR_b, encR_a, encR_d, encR_m_part]
theorem minu w d a b : Statement (.minu w d a b) := by
  intro _
  rw [show encode (.minu w d a b) = encR w 0x01#7 d a b 20#9 from rfl, decode_01 _ (encR_op ..)]
  simp [decOp01, encR_fW, encR_op, encR_m, encR_b, encR_a, encR_d, encR_m_part]
theorem maxu w d a b : Statement (.maxu w d a b) := by
  intro _
  rw [show encode (.maxu w d a b) = encR w 0x01#7 d a b 21#9 from rfl, decode_01 _ (encR_op ..)]
  simp [decOp01, encR_fW, encR_op, encR_m, encR_b, encR_a, encR_d, encR_m_part]
theorem slt w d a b : Statement (.slt w d a b) := by
  intro _
  rw [show encode (.slt w d a b) = encR w 0x01#7 d a b 22#9 from rfl, decode_01 _ (encR_op ..)]
  simp [decOp01, encR_fW, encR_op, encR_m, encR_b, encR_a, encR_d, encR_m_part]
theorem sltu w d a b : Statement (.sltu w d a b) := by
  intro _
  rw [show encode (.sltu w d a b) = encR w 0x01#7 d a b 23#9 from rfl, decode_01 _ (encR_op ..)]
  simp [decOp01, encR_fW, encR_op, encR_m, encR_b, encR_a, encR_d, encR_m_part]
theorem seq w d a b : Statement (.seq w d a b) := by
  intro _
  rw [show encode (.seq w d a b) = encR w 0x01#7 d a b 24#9 from rfl, decode_01 _ (encR_op ..)]
  simp [decOp01, encR_fW, encR_op, encR_m, encR_b, encR_a, encR_d, encR_m_part]
theorem clz w d a : Statement (.clz w d a) := by
  intro _
  have z5 : (encode (.clz w d a)).extractLsb' 5 9 = 0#9 := (zero_span _ 5 4 5 (by simp [encode, encR_m_part, encR_m, encR_b, encR_a, encR_d]) (by simp [encode, encR_m_part, encR_m, encR_b, encR_a, encR_d]))
  rw [encode] at z5
  rw [show encode (.clz w d a) = encR w 0x01#7 d a 0#5 25#9 from rfl, decode_01 _ (encR_op ..)]
  simp [decOp01, encR_fW, encR_op, encR_m, encR_b, encR_a, encR_d, encR_m_part, z5]
theorem ctz w d a : Statement (.ctz w d a) := by
  intro _
  have z5 : (encode (.ctz w d a)).extractLsb' 5 9 = 0#9 := (zero_span _ 5 4 5 (by simp [encode, encR_m_part, encR_m, encR_b, encR_a, encR_d]) (by simp [encode, encR_m_part, encR_m, encR_b, encR_a, encR_d]))
  rw [encode] at z5
  rw [show encode (.ctz w d a) = encR w 0x01#7 d a 0#5 26#9 from rfl, decode_01 _ (encR_op ..)]
  simp [decOp01, encR_fW, encR_op, encR_m, encR_b, encR_a, encR_d, encR_m_part, z5]
theorem popc w d a : Statement (.popc w d a) := by
  intro _
  have z5 : (encode (.popc w d a)).extractLsb' 5 9 = 0#9 := (zero_span _ 5 4 5 (by simp [encode, encR_m_part, encR_m, encR_b, encR_a, encR_d]) (by simp [encode, encR_m_part, encR_m, encR_b, encR_a, encR_d]))
  rw [encode] at z5
  rw [show encode (.popc w d a) = encR w 0x01#7 d a 0#5 27#9 from rfl, decode_01 _ (encR_op ..)]
  simp [decOp01, encR_fW, encR_op, encR_m, encR_b, encR_a, encR_d, encR_m_part, z5]
theorem sel w d a b c : Statement (.sel w d a b c) := by
  intro _
  rw [show encode (.sel w d a b c) = encR w 0x02#7 d a b (c ++ 0#4) from rfl, decode_02 _ (encR_op ..)]
  simp [decOp02, encR_fW, encR_op, encR_m, encR_b, encR_a, encR_d, encR_m_part, join5_4_x, join5_4_y]
theorem ext w d a l p : Statement (.ext w d a l p) := by
  intro _
  rw [show encode (.ext w d a l p) = encI w 0x03#7 d a (0#2 ++ l ++ p) from rfl, decode_03 _ (encI_op ..)]
  simp [decOp03, encI_fW, encI_op, encI_imm, encI_a, encI_d, encI_imm_part, join2_6_6_x, join2_6_6_y, join2_6_6_z]
theorem exts w d a l p : Statement (.exts w d a l p) := by
  intro _
  rw [show encode (.exts w d a l p) = encI w 0x04#7 d a (0#2 ++ l ++ p) from rfl, decode_04 _ (encI_op ..)]
  simp [decOp04, encI_fW, encI_op, encI_imm, encI_a, encI_d, encI_imm_part, join2_6_6_x, join2_6_6_y, join2_6_6_z]
theorem ins w d a l p : Statement (.ins w d a l p) := by
  intro _
  rw [show encode (.ins w d a l p) = encI w 0x05#7 d a (0#2 ++ l ++ p) from rfl, decode_05 _ (encI_op ..)]
  simp [decOp05, encI_fW, encI_op, encI_imm, encI_a, encI_d, encI_imm_part, join2_6_6_x, join2_6_6_y, join2_6_6_z]
theorem addi w d a i : Statement (.addi w d a i) := by
  intro _
  rw [show encode (.addi w d a i) = encI w 0x06#7 d a i from rfl, decode_06 _ (encI_op ..)]
  simp [decOp06, encI_fW, encI_op, encI_imm, encI_a, encI_d, encI_imm_part]
theorem andi w d a i : Statement (.andi w d a i) := by
  intro _
  rw [show encode (.andi w d a i) = encI w 0x07#7 d a i from rfl, decode_07 _ (encI_op ..)]
  simp [decOp07, encI_fW, encI_op, encI_imm, encI_a, encI_d, encI_imm_part]
theorem ori w d a i : Statement (.ori w d a i) := by
  intro _
  rw [show encode (.ori w d a i) = encI w 0x08#7 d a i from rfl, decode_08 _ (encI_op ..)]
  simp [decOp08, encI_fW, encI_op, encI_imm, encI_a, encI_d, encI_imm_part]
theorem xori w d a i : Statement (.xori w d a i) := by
  intro _
  rw [show encode (.xori w d a i) = encI w 0x09#7 d a i from rfl, decode_09 _ (encI_op ..)]
  simp [decOp09, encI_fW, encI_op, encI_imm, encI_a, encI_d, encI_imm_part]
theorem slli w d a s : Statement (.slli w d a s) := by
  intro _
  rw [show encode (.slli w d a s) = encI w 0x0A#7 d a (0#8 ++ s) from rfl, decode_0A _ (encI_op ..)]
  simp [decOp0A, encI_fW, encI_op, encI_imm, encI_a, encI_d, encI_imm_part, join8_6_x, join8_6_y]
theorem srli w d a s : Statement (.srli w d a s) := by
  intro _
  rw [show encode (.srli w d a s) = encI w 0x0B#7 d a (0#8 ++ s) from rfl, decode_0B _ (encI_op ..)]
  simp [decOp0B, encI_fW, encI_op, encI_imm, encI_a, encI_d, encI_imm_part, join8_6_x, join8_6_y]
theorem srai w d a s : Statement (.srai w d a s) := by
  intro _
  rw [show encode (.srai w d a s) = encI w 0x0C#7 d a (0#8 ++ s) from rfl, decode_0C _ (encI_op ..)]
  simp [decOp0C, encI_fW, encI_op, encI_imm, encI_a, encI_d, encI_imm_part, join8_6_x, join8_6_y]
theorem slti w d a i : Statement (.slti w d a i) := by
  intro _
  rw [show encode (.slti w d a i) = encI w 0x0D#7 d a i from rfl, decode_0D _ (encI_op ..)]
  simp [decOp0D, encI_fW, encI_op, encI_imm, encI_a, encI_d, encI_imm_part]
theorem sltiu w d a i : Statement (.sltiu w d a i) := by
  intro _
  rw [show encode (.sltiu w d a i) = encI w 0x0E#7 d a i from rfl, decode_0E _ (encI_op ..)]
  simp [decOp0E, encI_fW, encI_op, encI_imm, encI_a, encI_d, encI_imm_part]
theorem lui w d i : Statement (.lui w d i) := by
  intro _
  rw [show encode (.lui w d i) = encU w 0x0F#7 d i from rfl, decode_0F _ (encU_op ..)]
  simp [decOp0F, encU_fW, encU_op, encU_imm, encU_d, encU_imm_part]
theorem auipc w d i : Statement (.auipc w d i) := by
  intro _
  rw [show encode (.auipc w d i) = encU w 0x10#7 d i from rfl, decode_10 _ (encU_op ..)]
  simp [decOp10, encU_fW, encU_op, encU_imm, encU_d, encU_imm_part]
theorem fadd w d a b y : Statement (.fadd w d a b y) := by
  intro _
  rw [show encode (.fadd w d a b y) = encR w 0x11#7 d a b (0#1 ++ y ++ 0#4) from rfl, decode_11 _ (encR_op ..)]
  simp [decOp11, encR_fW, encR_op, encR_m, encR_b, encR_a, encR_d, encR_m_part, join1_4_4_x, join1_4_4_y, join1_4_4_z]
theorem fsub w d a b y : Statement (.fsub w d a b y) := by
  intro _
  rw [show encode (.fsub w d a b y) = encR w 0x11#7 d a b (0#1 ++ y ++ 1#4) from rfl, decode_11 _ (encR_op ..)]
  simp [decOp11, encR_fW, encR_op, encR_m, encR_b, encR_a, encR_d, encR_m_part, join1_4_4_x, join1_4_4_y, join1_4_4_z]
theorem fmul w d a b y : Statement (.fmul w d a b y) := by
  intro _
  rw [show encode (.fmul w d a b y) = encR w 0x11#7 d a b (0#1 ++ y ++ 2#4) from rfl, decode_11 _ (encR_op ..)]
  simp [decOp11, encR_fW, encR_op, encR_m, encR_b, encR_a, encR_d, encR_m_part, join1_4_4_x, join1_4_4_y, join1_4_4_z]
theorem fmin w d a b y : Statement (.fmin w d a b y) := by
  intro _
  rw [show encode (.fmin w d a b y) = encR w 0x11#7 d a b (0#1 ++ y ++ 3#4) from rfl, decode_11 _ (encR_op ..)]
  simp [decOp11, encR_fW, encR_op, encR_m, encR_b, encR_a, encR_d, encR_m_part, join1_4_4_x, join1_4_4_y, join1_4_4_z]
theorem fmax w d a b y : Statement (.fmax w d a b y) := by
  intro _
  rw [show encode (.fmax w d a b y) = encR w 0x11#7 d a b (0#1 ++ y ++ 4#4) from rfl, decode_11 _ (encR_op ..)]
  simp [decOp11, encR_fW, encR_op, encR_m, encR_b, encR_a, encR_d, encR_m_part, join1_4_4_x, join1_4_4_y, join1_4_4_z]
theorem fdiv w d a b y : Statement (.fdiv w d a b y) := by
  intro _
  rw [show encode (.fdiv w d a b y) = encR w 0x11#7 d a b (0#1 ++ y ++ 5#4) from rfl, decode_11 _ (encR_op ..)]
  simp [decOp11, encR_fW, encR_op, encR_m, encR_b, encR_a, encR_d, encR_m_part, join1_4_4_x, join1_4_4_y, join1_4_4_z]
theorem fsqrt w d a y : Statement (.fsqrt w d a y) := by
  intro _
  have z8 : (encode (.fsqrt w d a y)).extractLsb' 8 6 = 0#6 := (zero_span _ 8 1 5 (by simp [encode, encR_m_part, encR_m, encR_b, encR_a, encR_d, join1_4_4_x, join1_4_4_y, join1_4_4_z]) (by simp [encode, encR_m_part, encR_m, encR_b, encR_a, encR_d, join1_4_4_x, join1_4_4_y, join1_4_4_z]))
  rw [encode] at z8
  rw [show encode (.fsqrt w d a y) = encR w 0x11#7 d a 0#5 (0#1 ++ y ++ 6#4) from rfl, decode_11 _ (encR_op ..)]
  simp [decOp11, encR_fW, encR_op, encR_m, encR_b, encR_a, encR_d, encR_m_part, join1_4_4_x, join1_4_4_y, join1_4_4_z, z8]
theorem fcmpLt w d a b y : Statement (.fcmpLt w d a b y) := by
  intro _
  rw [show encode (.fcmpLt w d a b y) = encR w 0x11#7 d a b (0#1 ++ y ++ 7#4) from rfl, decode_11 _ (encR_op ..)]
  simp [decOp11, encR_fW, encR_op, encR_m, encR_b, encR_a, encR_d, encR_m_part, join1_4_4_x, join1_4_4_y, join1_4_4_z]
theorem fcmpLe w d a b y : Statement (.fcmpLe w d a b y) := by
  intro _
  rw [show encode (.fcmpLe w d a b y) = encR w 0x11#7 d a b (0#1 ++ y ++ 8#4) from rfl, decode_11 _ (encR_op ..)]
  simp [decOp11, encR_fW, encR_op, encR_m, encR_b, encR_a, encR_d, encR_m_part, join1_4_4_x, join1_4_4_y, join1_4_4_z]
theorem fcmpEq w d a b y : Statement (.fcmpEq w d a b y) := by
  intro _
  rw [show encode (.fcmpEq w d a b y) = encR w 0x11#7 d a b (0#1 ++ y ++ 9#4) from rfl, decode_11 _ (encR_op ..)]
  simp [decOp11, encR_fW, encR_op, encR_m, encR_b, encR_a, encR_d, encR_m_part, join1_4_4_x, join1_4_4_y, join1_4_4_z]
theorem fclass w d a y : Statement (.fclass w d a y) := by
  intro _
  have z8 : (encode (.fclass w d a y)).extractLsb' 8 6 = 0#6 := (zero_span _ 8 1 5 (by simp [encode, encR_m_part, encR_m, encR_b, encR_a, encR_d, join1_4_4_x, join1_4_4_y, join1_4_4_z]) (by simp [encode, encR_m_part, encR_m, encR_b, encR_a, encR_d, join1_4_4_x, join1_4_4_y, join1_4_4_z]))
  rw [encode] at z8
  rw [show encode (.fclass w d a y) = encR w 0x11#7 d a 0#5 (0#1 ++ y ++ 10#4) from rfl, decode_11 _ (encR_op ..)]
  simp [decOp11, encR_fW, encR_op, encR_m, encR_b, encR_a, encR_d, encR_m_part, join1_4_4_x, join1_4_4_y, join1_4_4_z, z8]
theorem fma w d a b c y : Statement (.fma w d a b c y) := by
  intro _
  rw [show encode (.fma w d a b c y) = encR4 w 0x12#7 d a b c y from rfl, decode_12 _ (encR4_op ..)]
  simp [decOp12, encR4_fW, encR4_op, encR4_ty, encR4_c, encR4_b, encR4_a, encR4_d, encR4_ty_part]
theorem fcvt w d a u f t : Statement (.fcvt w d a u f t) := by
  intro _
  rw [show encode (.fcvt w d a u f t) = encR w 0x13#7 d a 0#5 (u ++ f ++ t) from rfl, decode_13 _ (encR_op ..)]
  simp [decOp13, encR_fW, encR_op, encR_m, encR_b, encR_a, encR_d, encR_m_part, join1_4_4_x, join1_4_4_y, join1_4_4_z]
theorem beq w a b o : Statement (.beq w a b o) := by
  intro _
  rw [show encode (.beq w a b o) = encI w 0x18#7 a b o from rfl, decode_18 _ (encI_op ..)]
  simp [decOp18, encI_fW, encI_op, encI_imm, encI_a, encI_d, encI_imm_part]
theorem bne w a b o : Statement (.bne w a b o) := by
  intro _
  rw [show encode (.bne w a b o) = encI w 0x19#7 a b o from rfl, decode_19 _ (encI_op ..)]
  simp [decOp19, encI_fW, encI_op, encI_imm, encI_a, encI_d, encI_imm_part]
theorem blt w a b o : Statement (.blt w a b o) := by
  intro _
  rw [show encode (.blt w a b o) = encI w 0x1A#7 a b o from rfl, decode_1A _ (encI_op ..)]
  simp [decOp1A, encI_fW, encI_op, encI_imm, encI_a, encI_d, encI_imm_part]
theorem bge w a b o : Statement (.bge w a b o) := by
  intro _
  rw [show encode (.bge w a b o) = encI w 0x1B#7 a b o from rfl, decode_1B _ (encI_op ..)]
  simp [decOp1B, encI_fW, encI_op, encI_imm, encI_a, encI_d, encI_imm_part]
theorem bltu w a b o : Statement (.bltu w a b o) := by
  intro _
  rw [show encode (.bltu w a b o) = encI w 0x1C#7 a b o from rfl, decode_1C _ (encI_op ..)]
  simp [decOp1C, encI_fW, encI_op, encI_imm, encI_a, encI_d, encI_imm_part]
theorem bgeu w a b o : Statement (.bgeu w a b o) := by
  intro _
  rw [show encode (.bgeu w a b o) = encI w 0x1D#7 a b o from rfl, decode_1D _ (encI_op ..)]
  simp [decOp1D, encI_fW, encI_op, encI_imm, encI_a, encI_d, encI_imm_part]
theorem j w o : Statement (.j w o) := by
  intro _
  rw [show encode (.j w o) = encJ w 0x20#7 o from rfl, decode_20 _ (encJ_op ..)]
  simp [decOp20, encJ_fW, encJ_op, encJ_off, encJ_off_part]
theorem jal w o : Statement (.jal w o) := by
  intro _
  rw [show encode (.jal w o) = encJ w 0x21#7 o from rfl, decode_21 _ (encJ_op ..)]
  simp [decOp21, encJ_fW, encJ_op, encJ_off, encJ_off_part]
theorem jalr w d a i : Statement (.jalr w d a i) := by
  intro _
  rw [show encode (.jalr w d a i) = encI w 0x22#7 d a i from rfl, decode_22 _ (encI_op ..)]
  simp [decOp22, encI_fW, encI_op, encI_imm, encI_a, encI_d, encI_imm_part]
theorem tend w a n : Statement (.tend w a n) := by
  intro _
  rw [show encode (.tend w a n) = encI w 0x23#7 0#5 a n from rfl, decode_23 _ (encI_op ..)]
  simp [decOp23, encI_fW, encI_op, encI_imm, encI_a, encI_d, encI_imm_part]
theorem yield w n : Statement (.yield w n) := by
  intro _
  have z14 : (encode (.yield w n)).extractLsb' 14 10 = 0#10 := (zero_span _ 14 5 5 (by simp [encode, encI_imm_part, encI_imm, encI_a, encI_d]) (by simp [encode, encI_imm_part, encI_imm, encI_a, encI_d]))
  rw [encode] at z14
  rw [show encode (.yield w n) = encI w 0x24#7 0#5 0#5 n from rfl, decode_24 _ (encI_op ..)]
  simp [decOp24, encI_fW, encI_op, encI_imm, encI_a, encI_d, encI_imm_part, z14]
theorem csrr w d c : Statement (.csrr w d c) := by
  intro _
  have z12 : (encode (.csrr w d c)).extractLsb' 12 7 = 0#7 := (zero_span _ 12 2 5 (by simp [encode, encI_imm_part, encI_imm, encI_a, encI_d, join2_12_x, join2_12_y]) (by simp [encode, encI_imm_part, encI_imm, encI_a, encI_d, join2_12_x, join2_12_y]))
  rw [encode] at z12
  rw [show encode (.csrr w d c) = encI w 0x25#7 d 0#5 (0#2 ++ c) from rfl, decode_25 _ (encI_op ..)]
  simp [decOp25, encI_fW, encI_op, encI_imm, encI_a, encI_d, encI_imm_part, join2_12_x, join2_12_y, z12]
theorem csrw w d a c : Statement (.csrw w d a c) := by
  intro _
  rw [show encode (.csrw w d a c) = encI w 0x26#7 d a (0#2 ++ c) from rfl, decode_26 _ (encI_op ..)]
  simp [decOp26, encI_fW, encI_op, encI_imm, encI_a, encI_d, encI_imm_part, join2_12_x, join2_12_y]
theorem csrs w d a c : Statement (.csrs w d a c) := by
  intro _
  rw [show encode (.csrs w d a c) = encI w 0x27#7 d a (0#2 ++ c) from rfl, decode_27 _ (encI_op ..)]
  simp [decOp27, encI_fW, encI_op, encI_imm, encI_a, encI_d, encI_imm_part, join2_12_x, join2_12_y]
theorem csrc w d a c : Statement (.csrc w d a c) := by
  intro _
  rw [show encode (.csrc w d a c) = encI w 0x28#7 d a (0#2 ++ c) from rfl, decode_28 _ (encI_op ..)]
  simp [decOp28, encI_fW, encI_op, encI_imm, encI_a, encI_d, encI_imm_part, join2_12_x, join2_12_y]
theorem ldB w d a i : Statement (.ldB w d a i) := by
  intro _
  rw [show encode (.ldB w d a i) = encI w 0x30#7 d a i from rfl, decode_30 _ (encI_op ..)]
  simp [decOp30, encI_fW, encI_op, encI_imm, encI_a, encI_d, encI_imm_part]
theorem ldBz w d a i : Statement (.ldBz w d a i) := by
  intro _
  rw [show encode (.ldBz w d a i) = encI w 0x31#7 d a i from rfl, decode_31 _ (encI_op ..)]
  simp [decOp31, encI_fW, encI_op, encI_imm, encI_a, encI_d, encI_imm_part]
theorem ldH w d a i : Statement (.ldH w d a i) := by
  intro _
  rw [show encode (.ldH w d a i) = encI w 0x32#7 d a i from rfl, decode_32 _ (encI_op ..)]
  simp [decOp32, encI_fW, encI_op, encI_imm, encI_a, encI_d, encI_imm_part]
theorem ldHz w d a i : Statement (.ldHz w d a i) := by
  intro _
  rw [show encode (.ldHz w d a i) = encI w 0x33#7 d a i from rfl, decode_33 _ (encI_op ..)]
  simp [decOp33, encI_fW, encI_op, encI_imm, encI_a, encI_d, encI_imm_part]
theorem ldW w d a i : Statement (.ldW w d a i) := by
  intro _
  rw [show encode (.ldW w d a i) = encI w 0x34#7 d a i from rfl, decode_34 _ (encI_op ..)]
  simp [decOp34, encI_fW, encI_op, encI_imm, encI_a, encI_d, encI_imm_part]
theorem ldWz w d a i : Statement (.ldWz w d a i) := by
  intro _
  rw [show encode (.ldWz w d a i) = encI w 0x35#7 d a i from rfl, decode_35 _ (encI_op ..)]
  simp [decOp35, encI_fW, encI_op, encI_imm, encI_a, encI_d, encI_imm_part]
theorem ldD w d a i : Statement (.ldD w d a i) := by
  intro _
  rw [show encode (.ldD w d a i) = encI w 0x36#7 d a i from rfl, decode_36 _ (encI_op ..)]
  simp [decOp36, encI_fW, encI_op, encI_imm, encI_a, encI_d, encI_imm_part]
theorem stB w b a i : Statement (.stB w b a i) := by
  intro _
  rw [show encode (.stB w b a i) = encI w 0x37#7 b a i from rfl, decode_37 _ (encI_op ..)]
  simp [decOp37, encI_fW, encI_op, encI_imm, encI_a, encI_d, encI_imm_part]
theorem stH w b a i : Statement (.stH w b a i) := by
  intro _
  rw [show encode (.stH w b a i) = encI w 0x38#7 b a i from rfl, decode_38 _ (encI_op ..)]
  simp [decOp38, encI_fW, encI_op, encI_imm, encI_a, encI_d, encI_imm_part]
theorem stW w b a i : Statement (.stW w b a i) := by
  intro _
  rw [show encode (.stW w b a i) = encI w 0x39#7 b a i from rfl, decode_39 _ (encI_op ..)]
  simp [decOp39, encI_fW, encI_op, encI_imm, encI_a, encI_d, encI_imm_part]
theorem stD w b a i : Statement (.stD w b a i) := by
  intro _
  rw [show encode (.stD w b a i) = encI w 0x3A#7 b a i from rfl, decode_3A _ (encI_op ..)]
  simp [decOp3A, encI_fW, encI_op, encI_imm, encI_a, encI_d, encI_imm_part]
theorem ldAcq w d a k o : Statement (.ldAcq w d a k o) := by
  intro _
  rw [show encode (.ldAcq w d a k o) = encI w 0x3B#7 d a (k ++ o) from rfl, decode_3B _ (encI_op ..)]
  simp [decOp3B, encI_fW, encI_op, encI_imm, encI_a, encI_d, encI_imm_part, join5_9_x, join5_9_y]
theorem stRel w b a k o : Statement (.stRel w b a k o) := by
  intro _
  rw [show encode (.stRel w b a k o) = encI w 0x3C#7 b a (k ++ o) from rfl, decode_3C _ (encI_op ..)]
  simp [decOp3C, encI_fW, encI_op, encI_imm, encI_a, encI_d, encI_imm_part, join5_9_x, join5_9_y]
theorem fenceFull w k : Statement (.fenceFull w k) := by
  intro _
  have z7 : (encode (.fenceFull w k)).extractLsb' 7 17 = 0#17 := (zero_span _ 7 2 15 (by simp [encode, encR_m_part, encR_m, encR_b, encR_a, encR_d, join4_5_x, join4_5_y]) (zero_span _ 9 5 10 (by simp [encode, encR_m_part, encR_m, encR_b, encR_a, encR_d, join4_5_x, join4_5_y]) (zero_span _ 14 5 5 (by simp [encode, encR_m_part, encR_m, encR_b, encR_a, encR_d, join4_5_x, join4_5_y]) (by simp [encode, encR_m_part, encR_m, encR_b, encR_a, encR_d, join4_5_x, join4_5_y]))))
  rw [encode] at z7
  rw [show encode (.fenceFull w k) = encR w 0x3D#7 0#5 0#5 0#5 (0#4 ++ k) from rfl, decode_3D _ (encR_op ..)]
  simp [decOp3D, encR_fW, encR_op, encR_m, encR_b, encR_a, encR_d, encR_m_part, join4_5_x, join4_5_y, z7]
theorem fenceAcq w k : Statement (.fenceAcq w k) := by
  intro _
  have z7 : (encode (.fenceAcq w k)).extractLsb' 7 17 = 0#17 := (zero_span _ 7 2 15 (by simp [encode, encR_m_part, encR_m, encR_b, encR_a, encR_d, join4_5_x, join4_5_y]) (zero_span _ 9 5 10 (by simp [encode, encR_m_part, encR_m, encR_b, encR_a, encR_d, join4_5_x, join4_5_y]) (zero_span _ 14 5 5 (by simp [encode, encR_m_part, encR_m, encR_b, encR_a, encR_d, join4_5_x, join4_5_y]) (by simp [encode, encR_m_part, encR_m, encR_b, encR_a, encR_d, join4_5_x, join4_5_y]))))
  rw [encode] at z7
  rw [show encode (.fenceAcq w k) = encR w 0x3D#7 0#5 0#5 0#5 (1#4 ++ k) from rfl, decode_3D _ (encR_op ..)]
  simp [decOp3D, encR_fW, encR_op, encR_m, encR_b, encR_a, encR_d, encR_m_part, join4_5_x, join4_5_y, z7]
theorem fenceRel w k : Statement (.fenceRel w k) := by
  intro _
  have z7 : (encode (.fenceRel w k)).extractLsb' 7 17 = 0#17 := (zero_span _ 7 2 15 (by simp [encode, encR_m_part, encR_m, encR_b, encR_a, encR_d, join4_5_x, join4_5_y]) (zero_span _ 9 5 10 (by simp [encode, encR_m_part, encR_m, encR_b, encR_a, encR_d, join4_5_x, join4_5_y]) (zero_span _ 14 5 5 (by simp [encode, encR_m_part, encR_m, encR_b, encR_a, encR_d, join4_5_x, join4_5_y]) (by simp [encode, encR_m_part, encR_m, encR_b, encR_a, encR_d, join4_5_x, join4_5_y]))))
  rw [encode] at z7
  rw [show encode (.fenceRel w k) = encR w 0x3D#7 0#5 0#5 0#5 (2#4 ++ k) from rfl, decode_3D _ (encR_op ..)]
  simp [decOp3D, encR_fW, encR_op, encR_m, encR_b, encR_a, encR_d, encR_m_part, join4_5_x, join4_5_y, z7]
theorem amoAdd w d a b s : Statement (.amoAdd w d a b s) := by
  intro _
  rw [show encode (.amoAdd w d a b s) = encR w 0x40#7 d a b (0#4 ++ s ++ 0#4) from rfl, decode_40 _ (encR_op ..)]
  simp [decOp40, encR_fW, encR_op, encR_m, encR_b, encR_a, encR_d, encR_m_part, join4_1_4_x, join4_1_4_y, join4_1_4_z]
theorem amoAnd w d a b s : Statement (.amoAnd w d a b s) := by
  intro _
  rw [show encode (.amoAnd w d a b s) = encR w 0x40#7 d a b (0#4 ++ s ++ 1#4) from rfl, decode_40 _ (encR_op ..)]
  simp [decOp40, encR_fW, encR_op, encR_m, encR_b, encR_a, encR_d, encR_m_part, join4_1_4_x, join4_1_4_y, join4_1_4_z]
theorem amoOr w d a b s : Statement (.amoOr w d a b s) := by
  intro _
  rw [show encode (.amoOr w d a b s) = encR w 0x40#7 d a b (0#4 ++ s ++ 2#4) from rfl, decode_40 _ (encR_op ..)]
  simp [decOp40, encR_fW, encR_op, encR_m, encR_b, encR_a, encR_d, encR_m_part, join4_1_4_x, join4_1_4_y, join4_1_4_z]
theorem amoXor w d a b s : Statement (.amoXor w d a b s) := by
  intro _
  rw [show encode (.amoXor w d a b s) = encR w 0x40#7 d a b (0#4 ++ s ++ 3#4) from rfl, decode_40 _ (encR_op ..)]
  simp [decOp40, encR_fW, encR_op, encR_m, encR_b, encR_a, encR_d, encR_m_part, join4_1_4_x, join4_1_4_y, join4_1_4_z]
theorem amoMin w d a b s : Statement (.amoMin w d a b s) := by
  intro _
  rw [show encode (.amoMin w d a b s) = encR w 0x40#7 d a b (0#4 ++ s ++ 4#4) from rfl, decode_40 _ (encR_op ..)]
  simp [decOp40, encR_fW, encR_op, encR_m, encR_b, encR_a, encR_d, encR_m_part, join4_1_4_x, join4_1_4_y, join4_1_4_z]
theorem amoMax w d a b s : Statement (.amoMax w d a b s) := by
  intro _
  rw [show encode (.amoMax w d a b s) = encR w 0x40#7 d a b (0#4 ++ s ++ 5#4) from rfl, decode_40 _ (encR_op ..)]
  simp [decOp40, encR_fW, encR_op, encR_m, encR_b, encR_a, encR_d, encR_m_part, join4_1_4_x, join4_1_4_y, join4_1_4_z]
theorem amoMinu w d a b s : Statement (.amoMinu w d a b s) := by
  intro _
  rw [show encode (.amoMinu w d a b s) = encR w 0x40#7 d a b (0#4 ++ s ++ 6#4) from rfl, decode_40 _ (encR_op ..)]
  simp [decOp40, encR_fW, encR_op, encR_m, encR_b, encR_a, encR_d, encR_m_part, join4_1_4_x, join4_1_4_y, join4_1_4_z]
theorem amoMaxu w d a b s : Statement (.amoMaxu w d a b s) := by
  intro _
  rw [show encode (.amoMaxu w d a b s) = encR w 0x40#7 d a b (0#4 ++ s ++ 7#4) from rfl, decode_40 _ (encR_op ..)]
  simp [decOp40, encR_fW, encR_op, encR_m, encR_b, encR_a, encR_d, encR_m_part, join4_1_4_x, join4_1_4_y, join4_1_4_z]
theorem amoSwap w d a b s : Statement (.amoSwap w d a b s) := by
  intro _
  rw [show encode (.amoSwap w d a b s) = encR w 0x40#7 d a b (0#4 ++ s ++ 8#4) from rfl, decode_40 _ (encR_op ..)]
  simp [decOp40, encR_fW, encR_op, encR_m, encR_b, encR_a, encR_d, encR_m_part, join4_1_4_x, join4_1_4_y, join4_1_4_z]
theorem amoFaddF32 w d a b : Statement (.amoFaddF32 w d a b) := by
  intro _
  rw [show encode (.amoFaddF32 w d a b) = encR w 0x40#7 d a b 25#9 from rfl, decode_40 _ (encR_op ..)]
  simp [decOp40, encR_fW, encR_op, encR_m, encR_b, encR_a, encR_d, encR_m_part]
theorem amoFaddBf16 w d a b : Statement (.amoFaddBf16 w d a b) := by
  intro _
  rw [show encode (.amoFaddBf16 w d a b) = encR w 0x40#7 d a b 10#9 from rfl, decode_40 _ (encR_op ..)]
  simp [decOp40, encR_fW, encR_op, encR_m, encR_b, encR_a, encR_d, encR_m_part]
theorem amoFmaxF32 w d a b : Statement (.amoFmaxF32 w d a b) := by
  intro _
  rw [show encode (.amoFmaxF32 w d a b) = encR w 0x40#7 d a b 27#9 from rfl, decode_40 _ (encR_op ..)]
  simp [decOp40, encR_fW, encR_op, encR_m, encR_b, encR_a, encR_d, encR_m_part]
theorem casI64 w d a b c : Statement (.casI64 w d a b c) := by
  intro _
  rw [show encode (.casI64 w d a b c) = encR4 w 0x41#7 d a b c 15#4 from rfl, decode_41 _ (encR4_op ..)]
  simp [decOp41, encR4_fW, encR4_op, encR4_ty, encR4_c, encR4_b, encR4_a, encR4_d, encR4_ty_part]
theorem casI32 w d a b c : Statement (.casI32 w d a b c) := by
  intro _
  rw [show encode (.casI32 w d a b c) = encR4 w 0x41#7 d a b c 10#4 from rfl, decode_41 _ (encR4_op ..)]
  simp [decOp41, encR4_fW, encR4_op, encR4_ty, encR4_c, encR4_b, encR4_a, encR4_d, encR4_ty_part]
theorem dadd w d a b y : Statement (.dadd w d a b y) := by
  intro _
  rw [show encode (.dadd w d a b y) = encR w 0x42#7 d a b (0#5 ++ y) from rfl, decode_42 _ (encR_op ..)]
  simp [decOp42, encR_fW, encR_op, encR_m, encR_b, encR_a, encR_d, encR_m_part, join5_4_x, join5_4_y]
theorem cadd w d a b k : Statement (.cadd w d a b k) := by
  intro _
  rw [show encode (.cadd w d a b k) = encR w 0x43#7 d a b (0#4 ++ k) from rfl, decode_43 _ (encR_op ..)]
  simp [decOp43, encR_fW, encR_op, encR_m, encR_b, encR_a, encR_d, encR_m_part, join4_5_x, join4_5_y]
theorem dseal w d a : Statement (.dseal w d a) := by
  intro _
  have z0 : (encode (.dseal w d a)).extractLsb' 0 14 = 0#14 := (zero_span _ 0 9 5 (by simp [encode, encR_m_part, encR_m, encR_b, encR_a, encR_d]) (by simp [encode, encR_m_part, encR_m, encR_b, encR_a, encR_d]))
  rw [encode] at z0
  rw [show encode (.dseal w d a) = encR w 0x44#7 d a 0#5 0#9 from rfl, decode_44 _ (encR_op ..)]
  simp [decOp44, encR_fW, encR_op, encR_m, encR_b, encR_a, encR_d, encR_m_part, z0]
theorem tlnew w d a b : Statement (.tlnew w d a b) := by
  intro _
  rw [show encode (.tlnew w d a b) = encR w 0x46#7 d a b 0#9 from rfl, decode_46 _ (encR_op ..)]
  simp [decOp46, encR_fW, encR_op, encR_m, encR_b, encR_a, encR_d, encR_m_part]
theorem tlfree w a : Statement (.tlfree w a) := by
  intro _
  have z0 : (encode (.tlfree w a)).extractLsb' 0 14 = 0#14 := (zero_span _ 0 9 5 (by simp [encode, encR_m_part, encR_m, encR_b, encR_a, encR_d]) (by simp [encode, encR_m_part, encR_m, encR_b, encR_a, encR_d]))
  rw [encode] at z0
  rw [show encode (.tlfree w a) = encR w 0x47#7 0#5 a 0#5 0#9 from rfl, decode_47 _ (encR_op ..)]
  simp [decOp47, encR_fW, encR_op, encR_m, encR_b, encR_a, encR_d, encR_m_part, z0]
theorem send w d a b k : Statement (.send w d a b k) := by
  intro _
  rw [show encode (.send w d a b k) = encR w 0x48#7 d a b (0#4 ++ k) from rfl, decode_48 _ (encR_op ..)]
  simp [decOp48, encR_fW, encR_op, encR_m, encR_b, encR_a, encR_d, encR_m_part, join4_5_x, join4_5_y]
theorem post w d a k : Statement (.post w d a k) := by
  intro _
  have z5 : (encode (.post w d a k)).extractLsb' 5 9 = 0#9 := (zero_span _ 5 4 5 (by simp [encode, encR_m_part, encR_m, encR_b, encR_a, encR_d, join4_5_x, join4_5_y]) (by simp [encode, encR_m_part, encR_m, encR_b, encR_a, encR_d, join4_5_x, join4_5_y]))
  rw [encode] at z5
  rw [show encode (.post w d a k) = encR w 0x49#7 d a 0#5 (0#4 ++ k) from rfl, decode_49 _ (encR_op ..)]
  simp [decOp49, encR_fW, encR_op, encR_m, encR_b, encR_a, encR_d, encR_m_part, join4_5_x, join4_5_y, z5]
theorem reply w d k : Statement (.reply w d k) := by
  intro _
  have z6 : (encode (.reply w d k)).extractLsb' 6 13 = 0#13 := (zero_span _ 6 3 10 (by simp [encode, encR_m_part, encR_m, encR_b, encR_a, encR_d, join4_5_x, join4_5_y]) (zero_span _ 9 5 5 (by simp [encode, encR_m_part, encR_m, encR_b, encR_a, encR_d, join4_5_x, join4_5_y]) (by simp [encode, encR_m_part, encR_m, encR_b, encR_a, encR_d, join4_5_x, join4_5_y])))
  rw [encode] at z6
  rw [show encode (.reply w d k) = encR w 0x4A#7 d 0#5 0#5 (1#4 ++ k) from rfl, decode_4A _ (encR_op ..)]
  simp [decOp4A, encR_fW, encR_op, encR_m, encR_b, encR_a, encR_d, encR_m_part, join4_5_x, join4_5_y, z6]
theorem replyTo w d a k : Statement (.replyTo w d a k) := by
  intro _
  have z6 : (encode (.replyTo w d a k)).extractLsb' 6 8 = 0#8 := (zero_span _ 6 3 5 (by simp [encode, encR_m_part, encR_m, encR_b, encR_a, encR_d, join4_5_x, join4_5_y]) (by simp [encode, encR_m_part, encR_m, encR_b, encR_a, encR_d, join4_5_x, join4_5_y]))
  rw [encode] at z6
  rw [show encode (.replyTo w d a k) = encR w 0x4A#7 d a 0#5 (0#4 ++ k) from rfl, decode_4A _ (encR_op ..)]
  simp [decOp4A, encR_fW, encR_op, encR_m, encR_b, encR_a, encR_d, encR_m_part, join4_5_x, join4_5_y, z6]
theorem promise w a : Statement (.promise w a) := by
  intro _
  have z0 : (encode (.promise w a)).extractLsb' 0 14 = 0#14 := (zero_span _ 0 9 5 (by simp [encode, encR_m_part, encR_m, encR_b, encR_a, encR_d]) (by simp [encode, encR_m_part, encR_m, encR_b, encR_a, encR_d]))
  rw [encode] at z0
  rw [show encode (.promise w a) = encR w 0x4B#7 0#5 a 0#5 0#9 from rfl, decode_4B _ (encR_op ..)]
  simp [decOp4B, encR_fW, encR_op, encR_m, encR_b, encR_a, encR_d, encR_m_part, z0]
theorem chopen w d a b : Statement (.chopen w d a b) := by
  intro _
  rw [show encode (.chopen w d a b) = encR w 0x4C#7 d a b 0#9 from rfl, decode_4C _ (encR_op ..)]
  simp [decOp4C, encR_fW, encR_op, encR_m, encR_b, encR_a, encR_d, encR_m_part]
theorem chclose w a : Statement (.chclose w a) := by
  intro _
  have z0 : (encode (.chclose w a)).extractLsb' 0 14 = 0#14 := (zero_span _ 0 9 5 (by simp [encode, encR_m_part, encR_m, encR_b, encR_a, encR_d]) (by simp [encode, encR_m_part, encR_m, encR_b, encR_a, encR_d]))
  rw [encode] at z0
  rw [show encode (.chclose w a) = encR w 0x4D#7 0#5 a 0#5 0#9 from rfl, decode_4D _ (encR_op ..)]
  simp [decOp4D, encR_fW, encR_op, encR_m, encR_b, encR_a, encR_d, encR_m_part, z0]
theorem nstat w d a s : Statement (.nstat w d a s) := by
  intro _
  have z4 : (encode (.nstat w d a s)).extractLsb' 4 10 = 0#10 := (zero_span _ 4 5 5 (by simp [encode, encR_m_part, encR_m, encR_b, encR_a, encR_d, join5_4_x, join5_4_y]) (by simp [encode, encR_m_part, encR_m, encR_b, encR_a, encR_d, join5_4_x, join5_4_y]))
  rw [encode] at z4
  rw [show encode (.nstat w d a s) = encR w 0x4E#7 d a 0#5 (0#5 ++ s) from rfl, decode_4E _ (encR_op ..)]
  simp [decOp4E, encR_fW, encR_op, encR_m, encR_b, encR_a, encR_d, encR_m_part, join5_4_x, join5_4_y, z4]
theorem tsub w d a k : Statement (.tsub w d a k) := by
  intro _
  have z5 : (encode (.tsub w d a k)).extractLsb' 5 9 = 0#9 := (zero_span _ 5 4 5 (by simp [encode, encR_m_part, encR_m, encR_b, encR_a, encR_d, join4_5_x, join4_5_y]) (by simp [encode, encR_m_part, encR_m, encR_b, encR_a, encR_d, join4_5_x, join4_5_y]))
  rw [encode] at z5
  rw [show encode (.tsub w d a k) = encR w 0x50#7 d a 0#5 (0#4 ++ k) from rfl, decode_50 _ (encR_op ..)]
  simp [decOp50, encR_fW, encR_op, encR_m, encR_b, encR_a, encR_d, encR_m_part, join4_5_x, join4_5_y, z5]
theorem krel w a : Statement (.krel w a) := by
  intro _
  have z0 : (encode (.krel w a)).extractLsb' 0 14 = 0#14 := (zero_span _ 0 9 5 (by simp [encode, encR_m_part, encR_m, encR_b, encR_a, encR_d]) (by simp [encode, encR_m_part, encR_m, encR_b, encR_a, encR_d]))
  rw [encode] at z0
  rw [show encode (.krel w a) = encR w 0x51#7 0#5 a 0#5 0#9 from rfl, decode_51 _ (encR_op ..)]
  simp [decOp51, encR_fW, encR_op, encR_m, encR_b, encR_a, encR_d, encR_m_part, z0]
theorem kheld w d a : Statement (.kheld w d a) := by
  intro _
  have z0 : (encode (.kheld w d a)).extractLsb' 0 14 = 0#14 := (zero_span _ 0 9 5 (by simp [encode, encR_m_part, encR_m, encR_b, encR_a, encR_d]) (by simp [encode, encR_m_part, encR_m, encR_b, encR_a, encR_d]))
  rw [encode] at z0
  rw [show encode (.kheld w d a) = encR w 0x52#7 d a 0#5 0#9 from rfl, decode_52 _ (encR_op ..)]
  simp [decOp52, encR_fW, encR_op, encR_m, encR_b, encR_a, encR_d, encR_m_part, z0]
theorem bara w k : Statement (.bara w k) := by
  intro _
  have z5 : (encode (.bara w k)).extractLsb' 5 19 = 0#19 := (zero_span _ 5 4 15 (by simp [encode, encR_m_part, encR_m, encR_b, encR_a, encR_d, join4_5_x, join4_5_y]) (zero_span _ 9 5 10 (by simp [encode, encR_m_part, encR_m, encR_b, encR_a, encR_d, join4_5_x, join4_5_y]) (zero_span _ 14 5 5 (by simp [encode, encR_m_part, encR_m, encR_b, encR_a, encR_d, join4_5_x, join4_5_y]) (by simp [encode, encR_m_part, encR_m, encR_b, encR_a, encR_d, join4_5_x, join4_5_y]))))
  rw [encode] at z5
  rw [show encode (.bara w k) = encR w 0x54#7 0#5 0#5 0#5 (0#4 ++ k) from rfl, decode_54 _ (encR_op ..)]
  simp [decOp54, encR_fW, encR_op, encR_m, encR_b, encR_a, encR_d, encR_m_part, join4_5_x, join4_5_y, z5]
theorem barw w : Statement (.barw w) := by
  intro _
  have z0 : (encode (.barw w)).extractLsb' 0 24 = 0#24 := (zero_span _ 0 9 15 (by simp [encode, encR_m_part, encR_m, encR_b, encR_a, encR_d]) (zero_span _ 9 5 10 (by simp [encode, encR_m_part, encR_m, encR_b, encR_a, encR_d]) (zero_span _ 14 5 5 (by simp [encode, encR_m_part, encR_m, encR_b, encR_a, encR_d]) (by simp [encode, encR_m_part, encR_m, encR_b, encR_a, encR_d]))))
  rw [encode] at z0
  rw [show encode (.barw w) = encR w 0x55#7 0#5 0#5 0#5 0#9 from rfl, decode_55 _ (encR_op ..)]
  simp [decOp55, encR_fW, encR_op, encR_m, encR_b, encR_a, encR_d, encR_m_part, z0]
theorem bar w k : Statement (.bar w k) := by
  intro _
  have z5 : (encode (.bar w k)).extractLsb' 5 19 = 0#19 := (zero_span _ 5 4 15 (by simp [encode, encR_m_part, encR_m, encR_b, encR_a, encR_d, join4_5_x, join4_5_y]) (zero_span _ 9 5 10 (by simp [encode, encR_m_part, encR_m, encR_b, encR_a, encR_d, join4_5_x, join4_5_y]) (zero_span _ 14 5 5 (by simp [encode, encR_m_part, encR_m, encR_b, encR_a, encR_d, join4_5_x, join4_5_y]) (by simp [encode, encR_m_part, encR_m, encR_b, encR_a, encR_d, join4_5_x, join4_5_y]))))
  rw [encode] at z5
  rw [show encode (.bar w k) = encR w 0x56#7 0#5 0#5 0#5 (0#4 ++ k) from rfl, decode_56 _ (encR_op ..)]
  simp [decOp56, encR_fW, encR_op, encR_m, encR_b, encR_a, encR_d, encR_m_part, join4_5_x, join4_5_y, z5]
theorem mrls w : Statement (.mrls w) := by
  intro _
  have z0 : (encode (.mrls w)).extractLsb' 0 24 = 0#24 := (zero_span _ 0 9 15 (by simp [encode, encR_m_part, encR_m, encR_b, encR_a, encR_d]) (zero_span _ 9 5 10 (by simp [encode, encR_m_part, encR_m, encR_b, encR_a, encR_d]) (zero_span _ 14 5 5 (by simp [encode, encR_m_part, encR_m, encR_b, encR_a, encR_d]) (by simp [encode, encR_m_part, encR_m, encR_b, encR_a, encR_d]))))
  rw [encode] at z0
  rw [show encode (.mrls w) = encR w 0x57#7 0#5 0#5 0#5 0#9 from rfl, decode_57 _ (encR_op ..)]
  simp [decOp57, encR_fW, encR_op, encR_m, encR_b, encR_a, encR_d, encR_m_part, z0]
theorem push w q a : Statement (.push w q a) := by
  intro _
  have z0 : (encode (.push w q a)).extractLsb' 0 17 = 0#17 := (zero_span _ 0 14 3 (by simp [encode, encQ_m_part, encQ_m, encQ_n, encQ_a, encQ_q]) (by simp [encode, encQ_m_part, encQ_m, encQ_n, encQ_a, encQ_q]))
  rw [encode] at z0
  rw [show encode (.push w q a) = encQ w 0x58#7 q a 0#3 0#14 from rfl, decode_58 _ (encQ_op ..)]
  simp [decOp58, encQ_fW, encQ_op, encQ_m, encQ_n, encQ_a, encQ_q, encQ_m_part, z0]
theorem pushm w q a n m : Statement (.pushm w q a n m) := by
  intro _
  rw [show encode (.pushm w q a n m) = encQ w 0x59#7 q a n m from rfl, decode_59 _ (encQ_op ..)]
  simp [decOp59, encQ_fW, encQ_op, encQ_m, encQ_n, encQ_a, encQ_q, encQ_m_part]
theorem pop w q a : Statement (.pop w q a) := by
  intro _
  have z0 : (encode (.pop w q a)).extractLsb' 0 17 = 0#17 := (zero_span _ 0 14 3 (by simp [encode, encQ_m_part, encQ_m, encQ_n, encQ_a, encQ_q]) (by simp [encode, encQ_m_part, encQ_m, encQ_n, encQ_a, encQ_q]))
  rw [encode] at z0
  rw [show encode (.pop w q a) = encQ w 0x5A#7 q a 0#3 0#14 from rfl, decode_5A _ (encQ_op ..)]
  simp [decOp5A, encQ_fW, encQ_op, encQ_m, encQ_n, encQ_a, encQ_q, encQ_m_part, z0]
theorem qstat w q a : Statement (.qstat w q a) := by
  intro _
  have z0 : (encode (.qstat w q a)).extractLsb' 0 17 = 0#17 := (zero_span _ 0 14 3 (by simp [encode, encQ_m_part, encQ_m, encQ_n, encQ_a, encQ_q]) (by simp [encode, encQ_m_part, encQ_m, encQ_n, encQ_a, encQ_q]))
  rw [encode] at z0
  rw [show encode (.qstat w q a) = encQ w 0x5B#7 q a 0#3 0#14 from rfl, decode_5B _ (encQ_op ..)]
  simp [decOp5B, encQ_fW, encQ_op, encQ_m, encQ_n, encQ_a, encQ_q, encQ_m_part, z0]
theorem tldr w t r a h o : Statement (.tldr w t r a h o) := by
  intro _
  rw [show encode (.tldr w t r a h o) = encM w 0x5C#7 t r a (h ++ o) from rfl, decode_5C _ (encM_op ..)]
  simp [decOp5C, encM_fW, encM_op, encM_off, encM_a, encM_row, encM_td, encM_off_part, join1_10_x, join1_10_y]
theorem tstr w t r a h o : Statement (.tstr w t r a h o) := by
  intro _
  rw [show encode (.tstr w t r a h o) = encM w 0x5D#7 t r a (h ++ o) from rfl, decode_5D _ (encM_op ..)]
  simp [decOp5D, encM_fW, encM_op, encM_off, encM_a, encM_row, encM_td, encM_off_part, join1_10_x, join1_10_y]
theorem tld w t a o : Statement (.tld w t a o) := by
  intro _
  rw [show encode (.tld w t a o) = encM w 0x5E#7 t 0#5 a o from rfl, decode_5E _ (encM_op ..)]
  simp [decOp5E, encM_fW, encM_op, encM_off, encM_a, encM_row, encM_td, encM_off_part]
theorem tst w t a o : Statement (.tst w t a o) := by
  intro _
  rw [show encode (.tst w t a o) = encM w 0x5F#7 t 0#5 a o from rfl, decode_5F _ (encM_op ..)]
  simp [decOp5F, encM_fW, encM_op, encM_off, encM_a, encM_row, encM_td, encM_off_part]
theorem vadd w d a b r y : Statement (.vadd w d a b r y) := by
  intro _
  rw [show encode (.vadd w d a b r y) = encT w 0x60#7 d a b r y 0#6 from rfl, decode_60 _ (encT_op ..)]
  simp [decOp60, encT_fW, encT_op, encT_fn, encT_ty, encT_row, encT_tb, encT_ta, encT_td, encT_fn_part]
theorem vaddX w d a b x y : Statement (.vaddX w d a b x y) := by
  intro _
  rw [show encode (.vaddX w d a b x y) = encT w 0x68#7 d a b x y 0#6 from rfl, decode_68 _ (encT_op ..)]
  simp [decOp68, encT_fW, encT_op, encT_fn, encT_ty, encT_row, encT_tb, encT_ta, encT_td, encT_fn_part]
theorem vsub w d a b r y : Statement (.vsub w d a b r y) := by
  intro _
  rw [show encode (.vsub w d a b r y) = encT w 0x60#7 d a b r y 1#6 from rfl, decode_60 _ (encT_op ..)]
  simp [decOp60, encT_fW, encT_op, encT_fn, encT_ty, encT_row, encT_tb, encT_ta, encT_td, encT_fn_part]
theorem vsubX w d a b x y : Statement (.vsubX w d a b x y) := by
  intro _
  rw [show encode (.vsubX w d a b x y) = encT w 0x68#7 d a b x y 1#6 from rfl, decode_68 _ (encT_op ..)]
  simp [decOp68, encT_fW, encT_op, encT_fn, encT_ty, encT_row, encT_tb, encT_ta, encT_td, encT_fn_part]
theorem vmul w d a b r y : Statement (.vmul w d a b r y) := by
  intro _
  rw [show encode (.vmul w d a b r y) = encT w 0x60#7 d a b r y 2#6 from rfl, decode_60 _ (encT_op ..)]
  simp [decOp60, encT_fW, encT_op, encT_fn, encT_ty, encT_row, encT_tb, encT_ta, encT_td, encT_fn_part]
theorem vmulX w d a b x y : Statement (.vmulX w d a b x y) := by
  intro _
  rw [show encode (.vmulX w d a b x y) = encT w 0x68#7 d a b x y 2#6 from rfl, decode_68 _ (encT_op ..)]
  simp [decOp68, encT_fW, encT_op, encT_fn, encT_ty, encT_row, encT_tb, encT_ta, encT_td, encT_fn_part]
theorem vmin w d a b r y : Statement (.vmin w d a b r y) := by
  intro _
  rw [show encode (.vmin w d a b r y) = encT w 0x60#7 d a b r y 3#6 from rfl, decode_60 _ (encT_op ..)]
  simp [decOp60, encT_fW, encT_op, encT_fn, encT_ty, encT_row, encT_tb, encT_ta, encT_td, encT_fn_part]
theorem vminX w d a b x y : Statement (.vminX w d a b x y) := by
  intro _
  rw [show encode (.vminX w d a b x y) = encT w 0x68#7 d a b x y 3#6 from rfl, decode_68 _ (encT_op ..)]
  simp [decOp68, encT_fW, encT_op, encT_fn, encT_ty, encT_row, encT_tb, encT_ta, encT_td, encT_fn_part]
theorem vmax w d a b r y : Statement (.vmax w d a b r y) := by
  intro _
  rw [show encode (.vmax w d a b r y) = encT w 0x60#7 d a b r y 4#6 from rfl, decode_60 _ (encT_op ..)]
  simp [decOp60, encT_fW, encT_op, encT_fn, encT_ty, encT_row, encT_tb, encT_ta, encT_td, encT_fn_part]
theorem vmaxX w d a b x y : Statement (.vmaxX w d a b x y) := by
  intro _
  rw [show encode (.vmaxX w d a b x y) = encT w 0x68#7 d a b x y 4#6 from rfl, decode_68 _ (encT_op ..)]
  simp [decOp68, encT_fW, encT_op, encT_fn, encT_ty, encT_row, encT_tb, encT_ta, encT_td, encT_fn_part]
theorem vabs w d a r y : Statement (.vabs w d a r y) := by
  intro _
  rw [show encode (.vabs w d a r y) = encT w 0x60#7 d a 0#3 r y 5#6 from rfl, decode_60 _ (encT_op ..)]
  simp [decOp60, encT_fW, encT_op, encT_fn, encT_ty, encT_row, encT_tb, encT_ta, encT_td, encT_fn_part]
theorem vabsX w d a x y : Statement (.vabsX w d a x y) := by
  intro _
  rw [show encode (.vabsX w d a x y) = encT w 0x68#7 d a 0#3 x y 5#6 from rfl, decode_68 _ (encT_op ..)]
  simp [decOp68, encT_fW, encT_op, encT_fn, encT_ty, encT_row, encT_tb, encT_ta, encT_td, encT_fn_part]
theorem vneg w d a r y : Statement (.vneg w d a r y) := by
  intro _
  rw [show encode (.vneg w d a r y) = encT w 0x60#7 d a 0#3 r y 6#6 from rfl, decode_60 _ (encT_op ..)]
  simp [decOp60, encT_fW, encT_op, encT_fn, encT_ty, encT_row, encT_tb, encT_ta, encT_td, encT_fn_part]
theorem vnegX w d a x y : Statement (.vnegX w d a x y) := by
  intro _
  rw [show encode (.vnegX w d a x y) = encT w 0x68#7 d a 0#3 x y 6#6 from rfl, decode_68 _ (encT_op ..)]
  simp [decOp68, encT_fW, encT_op, encT_fn, encT_ty, encT_row, encT_tb, encT_ta, encT_td, encT_fn_part]
theorem vand w d a b r y : Statement (.vand w d a b r y) := by
  intro _
  rw [show encode (.vand w d a b r y) = encT w 0x60#7 d a b r y 7#6 from rfl, decode_60 _ (encT_op ..)]
  simp [decOp60, encT_fW, encT_op, encT_fn, encT_ty, encT_row, encT_tb, encT_ta, encT_td, encT_fn_part]
theorem vandX w d a b x y : Statement (.vandX w d a b x y) := by
  intro _
  rw [show encode (.vandX w d a b x y) = encT w 0x68#7 d a b x y 7#6 from rfl, decode_68 _ (encT_op ..)]
  simp [decOp68, encT_fW, encT_op, encT_fn, encT_ty, encT_row, encT_tb, encT_ta, encT_td, encT_fn_part]
theorem vor w d a b r y : Statement (.vor w d a b r y) := by
  intro _
  rw [show encode (.vor w d a b r y) = encT w 0x60#7 d a b r y 8#6 from rfl, decode_60 _ (encT_op ..)]
  simp [decOp60, encT_fW, encT_op, encT_fn, encT_ty, encT_row, encT_tb, encT_ta, encT_td, encT_fn_part]
theorem vorX w d a b x y : Statement (.vorX w d a b x y) := by
  intro _
  rw [show encode (.vorX w d a b x y) = encT w 0x68#7 d a b x y 8#6 from rfl, decode_68 _ (encT_op ..)]
  simp [decOp68, encT_fW, encT_op, encT_fn, encT_ty, encT_row, encT_tb, encT_ta, encT_td, encT_fn_part]
theorem vxor w d a b r y : Statement (.vxor w d a b r y) := by
  intro _
  rw [show encode (.vxor w d a b r y) = encT w 0x60#7 d a b r y 9#6 from rfl, decode_60 _ (encT_op ..)]
  simp [decOp60, encT_fW, encT_op, encT_fn, encT_ty, encT_row, encT_tb, encT_ta, encT_td, encT_fn_part]
theorem vxorX w d a b x y : Statement (.vxorX w d a b x y) := by
  intro _
  rw [show encode (.vxorX w d a b x y) = encT w 0x68#7 d a b x y 9#6 from rfl, decode_68 _ (encT_op ..)]
  simp [decOp68, encT_fW, encT_op, encT_fn, encT_ty, encT_row, encT_tb, encT_ta, encT_td, encT_fn_part]
theorem vshl w d a b r y : Statement (.vshl w d a b r y) := by
  intro _
  rw [show encode (.vshl w d a b r y) = encT w 0x60#7 d a b r y 10#6 from rfl, decode_60 _ (encT_op ..)]
  simp [decOp60, encT_fW, encT_op, encT_fn, encT_ty, encT_row, encT_tb, encT_ta, encT_td, encT_fn_part]
theorem vshlX w d a b x y : Statement (.vshlX w d a b x y) := by
  intro _
  rw [show encode (.vshlX w d a b x y) = encT w 0x68#7 d a b x y 10#6 from rfl, decode_68 _ (encT_op ..)]
  simp [decOp68, encT_fW, encT_op, encT_fn, encT_ty, encT_row, encT_tb, encT_ta, encT_td, encT_fn_part]
theorem vshr w d a b r y : Statement (.vshr w d a b r y) := by
  intro _
  rw [show encode (.vshr w d a b r y) = encT w 0x60#7 d a b r y 11#6 from rfl, decode_60 _ (encT_op ..)]
  simp [decOp60, encT_fW, encT_op, encT_fn, encT_ty, encT_row, encT_tb, encT_ta, encT_td, encT_fn_part]
theorem vshrX w d a b x y : Statement (.vshrX w d a b x y) := by
  intro _
  rw [show encode (.vshrX w d a b x y) = encT w 0x68#7 d a b x y 11#6 from rfl, decode_68 _ (encT_op ..)]
  simp [decOp68, encT_fW, encT_op, encT_fn, encT_ty, encT_row, encT_tb, encT_ta, encT_td, encT_fn_part]
theorem vsra w d a b r y : Statement (.vsra w d a b r y) := by
  intro _
  rw [show encode (.vsra w d a b r y) = encT w 0x60#7 d a b r y 12#6 from rfl, decode_60 _ (encT_op ..)]
  simp [decOp60, encT_fW, encT_op, encT_fn, encT_ty, encT_row, encT_tb, encT_ta, encT_td, encT_fn_part]
theorem vsraX w d a b x y : Statement (.vsraX w d a b x y) := by
  intro _
  rw [show encode (.vsraX w d a b x y) = encT w 0x68#7 d a b x y 12#6 from rfl, decode_68 _ (encT_op ..)]
  simp [decOp68, encT_fW, encT_op, encT_fn, encT_ty, encT_row, encT_tb, encT_ta, encT_td, encT_fn_part]
theorem vcmpLt w d a b r y : Statement (.vcmpLt w d a b r y) := by
  intro _
  rw [show encode (.vcmpLt w d a b r y) = encT w 0x60#7 d a b r y 13#6 from rfl, decode_60 _ (encT_op ..)]
  simp [decOp60, encT_fW, encT_op, encT_fn, encT_ty, encT_row, encT_tb, encT_ta, encT_td, encT_fn_part]
theorem vcmpLtX w d a b x y : Statement (.vcmpLtX w d a b x y) := by
  intro _
  rw [show encode (.vcmpLtX w d a b x y) = encT w 0x68#7 d a b x y 13#6 from rfl, decode_68 _ (encT_op ..)]
  simp [decOp68, encT_fW, encT_op, encT_fn, encT_ty, encT_row, encT_tb, encT_ta, encT_td, encT_fn_part]
theorem vcmpLe w d a b r y : Statement (.vcmpLe w d a b r y) := by
  intro _
  rw [show encode (.vcmpLe w d a b r y) = encT w 0x60#7 d a b r y 14#6 from rfl, decode_60 _ (encT_op ..)]
  simp [decOp60, encT_fW, encT_op, encT_fn, encT_ty, encT_row, encT_tb, encT_ta, encT_td, encT_fn_part]
theorem vcmpLeX w d a b x y : Statement (.vcmpLeX w d a b x y) := by
  intro _
  rw [show encode (.vcmpLeX w d a b x y) = encT w 0x68#7 d a b x y 14#6 from rfl, decode_68 _ (encT_op ..)]
  simp [decOp68, encT_fW, encT_op, encT_fn, encT_ty, encT_row, encT_tb, encT_ta, encT_td, encT_fn_part]
theorem vcmpEq w d a b r y : Statement (.vcmpEq w d a b r y) := by
  intro _
  rw [show encode (.vcmpEq w d a b r y) = encT w 0x60#7 d a b r y 15#6 from rfl, decode_60 _ (encT_op ..)]
  simp [decOp60, encT_fW, encT_op, encT_fn, encT_ty, encT_row, encT_tb, encT_ta, encT_td, encT_fn_part]
theorem vcmpEqX w d a b x y : Statement (.vcmpEqX w d a b x y) := by
  intro _
  rw [show encode (.vcmpEqX w d a b x y) = encT w 0x68#7 d a b x y 15#6 from rfl, decode_68 _ (encT_op ..)]
  simp [decOp68, encT_fW, encT_op, encT_fn, encT_ty, encT_row, encT_tb, encT_ta, encT_td, encT_fn_part]
theorem vsel w d a b r y : Statement (.vsel w d a b r y) := by
  intro _
  rw [show encode (.vsel w d a b r y) = encT w 0x60#7 d a b r y 16#6 from rfl, decode_60 _ (encT_op ..)]
  simp [decOp60, encT_fW, encT_op, encT_fn, encT_ty, encT_row, encT_tb, encT_ta, encT_td, encT_fn_part]
theorem vselX w d a b x y : Statement (.vselX w d a b x y) := by
  intro _
  rw [show encode (.vselX w d a b x y) = encT w 0x68#7 d a b x y 16#6 from rfl, decode_68 _ (encT_op ..)]
  simp [decOp68, encT_fW, encT_op, encT_fn, encT_ty, encT_row, encT_tb, encT_ta, encT_td, encT_fn_part]
theorem vmov w d a r y : Statement (.vmov w d a r y) := by
  intro _
  rw [show encode (.vmov w d a r y) = encT w 0x60#7 d a 0#3 r y 17#6 from rfl, decode_60 _ (encT_op ..)]
  simp [decOp60, encT_fW, encT_op, encT_fn, encT_ty, encT_row, encT_tb, encT_ta, encT_td, encT_fn_part]
theorem vmovX w d a x y : Statement (.vmovX w d a x y) := by
  intro _
  rw [show encode (.vmovX w d a x y) = encT w 0x68#7 d a 0#3 x y 17#6 from rfl, decode_68 _ (encT_op ..)]
  simp [decOp68, encT_fW, encT_op, encT_fn, encT_ty, encT_row, encT_tb, encT_ta, encT_td, encT_fn_part]
theorem vfma w d a b r y : Statement (.vfma w d a b r y) := by
  intro _
  rw [show encode (.vfma w d a b r y) = encT w 0x61#7 d a b r y 0#6 from rfl, decode_61 _ (encT_op ..)]
  simp [decOp61, encT_fW, encT_op, encT_fn, encT_ty, encT_row, encT_tb, encT_ta, encT_td, encT_fn_part]
theorem vfmaX w d a b x y : Statement (.vfmaX w d a b x y) := by
  intro _
  rw [show encode (.vfmaX w d a b x y) = encT w 0x69#7 d a b x y 0#6 from rfl, decode_69 _ (encT_op ..)]
  simp [decOp69, encT_fW, encT_op, encT_fn, encT_ty, encT_row, encT_tb, encT_ta, encT_td, encT_fn_part]
theorem vrcp w d a r y : Statement (.vrcp w d a r y) := by
  intro _
  rw [show encode (.vrcp w d a r y) = encT w 0x62#7 d a 0#3 r y 0#6 from rfl, decode_62 _ (encT_op ..)]
  simp [decOp62, encT_fW, encT_op, encT_fn, encT_ty, encT_row, encT_tb, encT_ta, encT_td, encT_fn_part]
theorem vrcpX w d a x y : Statement (.vrcpX w d a x y) := by
  intro _
  rw [show encode (.vrcpX w d a x y) = encT w 0x6A#7 d a 0#3 x y 0#6 from rfl, decode_6A _ (encT_op ..)]
  simp [decOp6A, encT_fW, encT_op, encT_fn, encT_ty, encT_row, encT_tb, encT_ta, encT_td, encT_fn_part]
theorem vrsq w d a r y : Statement (.vrsq w d a r y) := by
  intro _
  rw [show encode (.vrsq w d a r y) = encT w 0x62#7 d a 0#3 r y 1#6 from rfl, decode_62 _ (encT_op ..)]
  simp [decOp62, encT_fW, encT_op, encT_fn, encT_ty, encT_row, encT_tb, encT_ta, encT_td, encT_fn_part]
theorem vrsqX w d a x y : Statement (.vrsqX w d a x y) := by
  intro _
  rw [show encode (.vrsqX w d a x y) = encT w 0x6A#7 d a 0#3 x y 1#6 from rfl, decode_6A _ (encT_op ..)]
  simp [decOp6A, encT_fW, encT_op, encT_fn, encT_ty, encT_row, encT_tb, encT_ta, encT_td, encT_fn_part]
theorem vrfn w d a b r y : Statement (.vrfn w d a b r y) := by
  intro _
  rw [show encode (.vrfn w d a b r y) = encT w 0x62#7 d a b r y 2#6 from rfl, decode_62 _ (encT_op ..)]
  simp [decOp62, encT_fW, encT_op, encT_fn, encT_ty, encT_row, encT_tb, encT_ta, encT_td, encT_fn_part]
theorem vrfnX w d a b x y : Statement (.vrfnX w d a b x y) := by
  intro _
  rw [show encode (.vrfnX w d a b x y) = encT w 0x6A#7 d a b x y 2#6 from rfl, decode_6A _ (encT_op ..)]
  simp [decOp6A, encT_fW, encT_op, encT_fn, encT_ty, encT_row, encT_tb, encT_ta, encT_td, encT_fn_part]
theorem vrfs w d a b r y : Statement (.vrfs w d a b r y) := by
  intro _
  rw [show encode (.vrfs w d a b r y) = encT w 0x62#7 d a b r y 3#6 from rfl, decode_62 _ (encT_op ..)]
  simp [decOp62, encT_fW, encT_op, encT_fn, encT_ty, encT_row, encT_tb, encT_ta, encT_td, encT_fn_part]
theorem vrfsX w d a b x y : Statement (.vrfsX w d a b x y) := by
  intro _
  rw [show encode (.vrfsX w d a b x y) = encT w 0x6A#7 d a b x y 3#6 from rfl, decode_6A _ (encT_op ..)]
  simp [decOp6A, encT_fW, encT_op, encT_fn, encT_ty, encT_row, encT_tb, encT_ta, encT_td, encT_fn_part]
theorem vexp2 w d a r y : Statement (.vexp2 w d a r y) := by
  intro _
  rw [show encode (.vexp2 w d a r y) = encT w 0x62#7 d a 0#3 r y 4#6 from rfl, decode_62 _ (encT_op ..)]
  simp [decOp62, encT_fW, encT_op, encT_fn, encT_ty, encT_row, encT_tb, encT_ta, encT_td, encT_fn_part]
theorem vexp2X w d a x y : Statement (.vexp2X w d a x y) := by
  intro _
  rw [show encode (.vexp2X w d a x y) = encT w 0x6A#7 d a 0#3 x y 4#6 from rfl, decode_6A _ (encT_op ..)]
  simp [decOp6A, encT_fW, encT_op, encT_fn, encT_ty, encT_row, encT_tb, encT_ta, encT_td, encT_fn_part]
theorem vlog2 w d a r y : Statement (.vlog2 w d a r y) := by
  intro _
  rw [show encode (.vlog2 w d a r y) = encT w 0x62#7 d a 0#3 r y 5#6 from rfl, decode_62 _ (encT_op ..)]
  simp [decOp62, encT_fW, encT_op, encT_fn, encT_ty, encT_row, encT_tb, encT_ta, encT_td, encT_fn_part]
theorem vlog2X w d a x y : Statement (.vlog2X w d a x y) := by
  intro _
  rw [show encode (.vlog2X w d a x y) = encT w 0x6A#7 d a 0#3 x y 5#6 from rfl, decode_6A _ (encT_op ..)]
  simp [decOp6A, encT_fW, encT_op, encT_fn, encT_ty, encT_row, encT_tb, encT_ta, encT_td, encT_fn_part]
theorem vcvt w d a p r y c : Statement (.vcvt w d a p r y c) := by
  intro _
  rw [show encode (.vcvt w d a p r y c) = encT w 0x63#7 d a p r y (0#2 ++ c) from rfl, decode_63 _ (encT_op ..)]
  simp [decOp63, encT_fW, encT_op, encT_fn, encT_ty, encT_row, encT_tb, encT_ta, encT_td, encT_fn_part, join2_4_x, join2_4_y]
theorem vcvtX w d a p x y c : Statement (.vcvtX w d a p x y c) := by
  intro _
  rw [show encode (.vcvtX w d a p x y c) = encT w 0x6B#7 d a p x y (0#2 ++ c) from rfl, decode_6B _ (encT_op ..)]
  simp [decOp6B, encT_fW, encT_op, encT_fn, encT_ty, encT_row, encT_tb, encT_ta, encT_td, encT_fn_part, join2_4_x, join2_4_y]
theorem vqnt w d a p r y : Statement (.vqnt w d a p r y) := by
  intro _
  rw [show encode (.vqnt w d a p r y) = encT w 0x64#7 d a p r y 0#6 from rfl, decode_64 _ (encT_op ..)]
  simp [decOp64, encT_fW, encT_op, encT_fn, encT_ty, encT_row, encT_tb, encT_ta, encT_td, encT_fn_part]
theorem vqntX w d a p x y : Statement (.vqntX w d a p x y) := by
  intro _
  rw [show encode (.vqntX w d a p x y) = encT w 0x6C#7 d a p x y 0#6 from rfl, decode_6C _ (encT_op ..)]
  simp [decOp6C, encT_fW, encT_op, encT_fn, encT_ty, encT_row, encT_tb, encT_ta, encT_td, encT_fn_part]
theorem vdq w d a p r y : Statement (.vdq w d a p r y) := by
  intro _
  rw [show encode (.vdq w d a p r y) = encT w 0x64#7 d a p r y 1#6 from rfl, decode_64 _ (encT_op ..)]
  simp [decOp64, encT_fW, encT_op, encT_fn, encT_ty, encT_row, encT_tb, encT_ta, encT_td, encT_fn_part]
theorem vdqX w d a p x y : Statement (.vdqX w d a p x y) := by
  intro _
  rw [show encode (.vdqX w d a p x y) = encT w 0x6C#7 d a p x y 1#6 from rfl, decode_6C _ (encT_op ..)]
  simp [decOp6C, encT_fW, encT_op, encT_fn, encT_ty, encT_row, encT_tb, encT_ta, encT_td, encT_fn_part]
theorem vredSum w d a r y : Statement (.vredSum w d a r y) := by
  intro _
  rw [show encode (.vredSum w d a r y) = encT w 0x65#7 d a 0#3 r y 0#6 from rfl, decode_65 _ (encT_op ..)]
  simp [decOp65, encT_fW, encT_op, encT_fn, encT_ty, encT_row, encT_tb, encT_ta, encT_td, encT_fn_part]
theorem vredSumX w d a x y : Statement (.vredSumX w d a x y) := by
  intro _
  rw [show encode (.vredSumX w d a x y) = encT w 0x6D#7 d a 0#3 x y 0#6 from rfl, decode_6D _ (encT_op ..)]
  simp [decOp6D, encT_fW, encT_op, encT_fn, encT_ty, encT_row, encT_tb, encT_ta, encT_td, encT_fn_part]
theorem vredMin w d a r y : Statement (.vredMin w d a r y) := by
  intro _
  rw [show encode (.vredMin w d a r y) = encT w 0x65#7 d a 0#3 r y 1#6 from rfl, decode_65 _ (encT_op ..)]
  simp [decOp65, encT_fW, encT_op, encT_fn, encT_ty, encT_row, encT_tb, encT_ta, encT_td, encT_fn_part]
theorem vredMinX w d a x y : Statement (.vredMinX w d a x y) := by
  intro _
  rw [show encode (.vredMinX w d a x y) = encT w 0x6D#7 d a 0#3 x y 1#6 from rfl, decode_6D _ (encT_op ..)]
  simp [decOp6D, encT_fW, encT_op, encT_fn, encT_ty, encT_row, encT_tb, encT_ta, encT_td, encT_fn_part]
theorem vredMax w d a r y : Statement (.vredMax w d a r y) := by
  intro _
  rw [show encode (.vredMax w d a r y) = encT w 0x65#7 d a 0#3 r y 2#6 from rfl, decode_65 _ (encT_op ..)]
  simp [decOp65, encT_fW, encT_op, encT_fn, encT_ty, encT_row, encT_tb, encT_ta, encT_td, encT_fn_part]
theorem vredMaxX w d a x y : Statement (.vredMaxX w d a x y) := by
  intro _
  rw [show encode (.vredMaxX w d a x y) = encT w 0x6D#7 d a 0#3 x y 2#6 from rfl, decode_6D _ (encT_op ..)]
  simp [decOp6D, encT_fW, encT_op, encT_fn, encT_ty, encT_row, encT_tb, encT_ta, encT_td, encT_fn_part]
theorem vredAmax w d a r y : Statement (.vredAmax w d a r y) := by
  intro _
  rw [show encode (.vredAmax w d a r y) = encT w 0x65#7 d a 0#3 r y 3#6 from rfl, decode_65 _ (encT_op ..)]
  simp [decOp65, encT_fW, encT_op, encT_fn, encT_ty, encT_row, encT_tb, encT_ta, encT_td, encT_fn_part]
theorem vredAmaxX w d a x y : Statement (.vredAmaxX w d a x y) := by
  intro _
  rw [show encode (.vredAmaxX w d a x y) = encT w 0x6D#7 d a 0#3 x y 3#6 from rfl, decode_6D _ (encT_op ..)]
  simp [decOp6D, encT_fW, encT_op, encT_fn, encT_ty, encT_row, encT_tb, encT_ta, encT_td, encT_fn_part]
theorem vscan w d a r y : Statement (.vscan w d a r y) := by
  intro _
  rw [show encode (.vscan w d a r y) = encT w 0x65#7 d a 0#3 r y 4#6 from rfl, decode_65 _ (encT_op ..)]
  simp [decOp65, encT_fW, encT_op, encT_fn, encT_ty, encT_row, encT_tb, encT_ta, encT_td, encT_fn_part]
theorem vscanX w d a x y : Statement (.vscanX w d a x y) := by
  intro _
  rw [show encode (.vscanX w d a x y) = encT w 0x6D#7 d a 0#3 x y 4#6 from rfl, decode_6D _ (encT_op ..)]
  simp [decOp6D, encT_fW, encT_op, encT_fn, encT_ty, encT_row, encT_tb, encT_ta, encT_td, encT_fn_part]
theorem vperm w d a b r y : Statement (.vperm w d a b r y) := by
  intro _
  rw [show encode (.vperm w d a b r y) = encT w 0x66#7 d a b r y 0#6 from rfl, decode_66 _ (encT_op ..)]
  simp [decOp66, encT_fW, encT_op, encT_fn, encT_ty, encT_row, encT_tb, encT_ta, encT_td, encT_fn_part]
theorem vins w d a b r y : Statement (.vins w d a b r y) := by
  intro _
  rw [show encode (.vins w d a b r y) = encT w 0x66#7 d a b r y 1#6 from rfl, decode_66 _ (encT_op ..)]
  simp [decOp66, encT_fW, encT_op, encT_fn, encT_ty, encT_row, encT_tb, encT_ta, encT_td, encT_fn_part]
theorem vext w d a b r y : Statement (.vext w d a b r y) := by
  intro _
  rw [show encode (.vext w d a b r y) = encT w 0x66#7 d a b r y 2#6 from rfl, decode_66 _ (encT_op ..)]
  simp [decOp66, encT_fW, encT_op, encT_fn, encT_ty, encT_row, encT_tb, encT_ta, encT_td, encT_fn_part]
theorem vbcast w d a j r y : Statement (.vbcast w d a j r y) := by
  intro _
  rw [show encode (.vbcast w d a j r y) = encT w 0x66#7 d a j r y 3#6 from rfl, decode_66 _ (encT_op ..)]
  simp [decOp66, encT_fW, encT_op, encT_fn, encT_ty, encT_row, encT_tb, encT_ta, encT_td, encT_fn_part]
theorem vneur w d a b r y : Statement (.vneur w d a b r y) := by
  intro _
  rw [show encode (.vneur w d a b r y) = encT w 0x67#7 d a b r y 0#6 from rfl, decode_67 _ (encT_op ..)]
  simp [decOp67, encT_fW, encT_op, encT_fn, encT_ty, encT_row, encT_tb, encT_ta, encT_td, encT_fn_part]
theorem mva w c t p y : Statement (.mva w c t p y) := by
  intro _
  rw [show encode (.mva w c t p y) = encT w 0x6E#7 c t p 0#5 y 0#6 from rfl, decode_6E _ (encT_op ..)]
  simp [decOp6E, encT_fW, encT_op, encT_fn, encT_ty, encT_row, encT_tb, encT_ta, encT_td, encT_fn_part]
theorem amv w t c p y : Statement (.amv w t c p y) := by
  intro _
  rw [show encode (.amv w t c p y) = encT w 0x6F#7 t c p 0#5 y 0#6 from rfl, decode_6F _ (encT_op ..)]
  simp [decOp6F, encT_fW, encT_op, encT_fn, encT_ty, encT_row, encT_tb, encT_ta, encT_td, encT_fn_part]
theorem trap w n : Statement (.trap w n) := by
  intro _
  have z14 : (encode (.trap w n)).extractLsb' 14 10 = 0#10 := (zero_span _ 14 5 5 (by simp [encode, encI_imm_part, encI_imm, encI_a, encI_d]) (by simp [encode, encI_imm_part, encI_imm, encI_a, encI_d]))
  rw [encode] at z14
  rw [show encode (.trap w n) = encI w 0x70#7 0#5 0#5 n from rfl, decode_70 _ (encI_op ..)]
  simp [decOp70, encI_fW, encI_op, encI_imm, encI_a, encI_d, encI_imm_part, z14]
theorem sysc w n : Statement (.sysc w n) := by
  intro _
  have z14 : (encode (.sysc w n)).extractLsb' 14 10 = 0#10 := (zero_span _ 14 5 5 (by simp [encode, encI_imm_part, encI_imm, encI_a, encI_d]) (by simp [encode, encI_imm_part, encI_imm, encI_a, encI_d]))
  rw [encode] at z14
  rw [show encode (.sysc w n) = encI w 0x71#7 0#5 0#5 n from rfl, decode_71 _ (encI_op ..)]
  simp [decOp71, encI_fW, encI_op, encI_imm, encI_a, encI_d, encI_imm_part, z14]
theorem eret w : Statement (.eret w) := by
  intro _
  have z0 : (encode (.eret w)).extractLsb' 0 24 = 0#24 := (zero_span _ 0 9 15 (by simp [encode, encR_m_part, encR_m, encR_b, encR_a, encR_d]) (zero_span _ 9 5 10 (by simp [encode, encR_m_part, encR_m, encR_b, encR_a, encR_d]) (zero_span _ 14 5 5 (by simp [encode, encR_m_part, encR_m, encR_b, encR_a, encR_d]) (by simp [encode, encR_m_part, encR_m, encR_b, encR_a, encR_d]))))
  rw [encode] at z0
  rw [show encode (.eret w) = encR w 0x72#7 0#5 0#5 0#5 0#9 from rfl, decode_72 _ (encR_op ..)]
  simp [decOp72, encR_fW, encR_op, encR_m, encR_b, encR_a, encR_d, encR_m_part, z0]
theorem tlbi w a : Statement (.tlbi w a) := by
  intro _
  have z1 : (encode (.tlbi w a)).extractLsb' 1 13 = 0#13 := (zero_span _ 1 8 5 (by simp [encode, encR_m_part, encR_m, encR_b, encR_a, encR_d]) (by simp [encode, encR_m_part, encR_m, encR_b, encR_a, encR_d]))
  rw [encode] at z1
  rw [show encode (.tlbi w a) = encR w 0x73#7 0#5 a 0#5 0#9 from rfl, decode_73 _ (encR_op ..)]
  simp [decOp73, encR_fW, encR_op, encR_m, encR_b, encR_a, encR_d, encR_m_part, z1]
theorem tlbiAll w : Statement (.tlbiAll w) := by
  intro _
  have z1 : (encode (.tlbiAll w)).extractLsb' 1 23 = 0#23 := (zero_span _ 1 8 15 (by simp [encode, encR_m_part, encR_m, encR_b, encR_a, encR_d]) (zero_span _ 9 5 10 (by simp [encode, encR_m_part, encR_m, encR_b, encR_a, encR_d]) (zero_span _ 14 5 5 (by simp [encode, encR_m_part, encR_m, encR_b, encR_a, encR_d]) (by simp [encode, encR_m_part, encR_m, encR_b, encR_a, encR_d]))))
  rw [encode] at z1
  rw [show encode (.tlbiAll w) = encR w 0x73#7 0#5 0#5 0#5 1#9 from rfl, decode_73 _ (encR_op ..)]
  simp [decOp73, encR_fW, encR_op, encR_m, encR_b, encR_a, encR_d, encR_m_part, z1]
theorem nlog w a b : Statement (.nlog w a b) := by
  intro _
  rw [show encode (.nlog w a b) = encR w 0x74#7 0#5 a b 0#9 from rfl, decode_74 _ (encR_op ..)]
  simp [decOp74, encR_fW, encR_op, encR_m, encR_b, encR_a, encR_d, encR_m_part]
theorem ckpt w d a b : Statement (.ckpt w d a b) := by
  intro _
  rw [show encode (.ckpt w d a b) = encR w 0x75#7 d a b 0#9 from rfl, decode_75 _ (encR_op ..)]
  simp [decOp75, encR_fW, encR_op, encR_m, encR_b, encR_a, encR_d, encR_m_part]
theorem ctxcQuery w d a : Statement (.ctxcQuery w d a) := by
  intro _
  have z4 : (encode (.ctxcQuery w d a)).extractLsb' 4 10 = 0#10 := (zero_span _ 4 5 5 (by simp [encode, encR_m_part, encR_m, encR_b, encR_a, encR_d]) (by simp [encode, encR_m_part, encR_m, encR_b, encR_a, encR_d]))
  rw [encode] at z4
  rw [show encode (.ctxcQuery w d a) = encR w 0x76#7 d a 0#5 0#9 from rfl, decode_76 _ (encR_op ..)]
  simp [decOp76, encR_fW, encR_op, encR_m, encR_b, encR_a, encR_d, encR_m_part, z4]
theorem ctxcRdf w d a : Statement (.ctxcRdf w d a) := by
  intro _
  have z4 : (encode (.ctxcRdf w d a)).extractLsb' 4 10 = 0#10 := (zero_span _ 4 5 5 (by simp [encode, encR_m_part, encR_m, encR_b, encR_a, encR_d]) (by simp [encode, encR_m_part, encR_m, encR_b, encR_a, encR_d]))
  rw [encode] at z4
  rw [show encode (.ctxcRdf w d a) = encR w 0x76#7 d a 0#5 1#9 from rfl, decode_76 _ (encR_op ..)]
  simp [decOp76, encR_fW, encR_op, encR_m, encR_b, encR_a, encR_d, encR_m_part, z4]
theorem ctxcWrf w d a b : Statement (.ctxcWrf w d a b) := by
  intro _
  rw [show encode (.ctxcWrf w d a b) = encR w 0x76#7 d a b 2#9 from rfl, decode_76 _ (encR_op ..)]
  simp [decOp76, encR_fW, encR_op, encR_m, encR_b, encR_a, encR_d, encR_m_part]
theorem ctxcFrz w d a : Statement (.ctxcFrz w d a) := by
  intro _
  have z4 : (encode (.ctxcFrz w d a)).extractLsb' 4 10 = 0#10 := (zero_span _ 4 5 5 (by simp [encode, encR_m_part, encR_m, encR_b, encR_a, encR_d]) (by simp [encode, encR_m_part, encR_m, encR_b, encR_a, encR_d]))
  rw [encode] at z4
  rw [show encode (.ctxcFrz w d a) = encR w 0x76#7 d a 0#5 3#9 from rfl, decode_76 _ (encR_op ..)]
  simp [decOp76, encR_fW, encR_op, encR_m, encR_b, encR_a, encR_d, encR_m_part, z4]
theorem ctxcThaw w d a : Statement (.ctxcThaw w d a) := by
  intro _
  have z4 : (encode (.ctxcThaw w d a)).extractLsb' 4 10 = 0#10 := (zero_span _ 4 5 5 (by simp [encode, encR_m_part, encR_m, encR_b, encR_a, encR_d]) (by simp [encode, encR_m_part, encR_m, encR_b, encR_a, encR_d]))
  rw [encode] at z4
  rw [show encode (.ctxcThaw w d a) = encR w 0x76#7 d a 0#5 4#9 from rfl, decode_76 _ (encR_op ..)]
  simp [decOp76, encR_fW, encR_op, encR_m, encR_b, encR_a, encR_d, encR_m_part, z4]
theorem ctxcTear w d a : Statement (.ctxcTear w d a) := by
  intro _
  have z4 : (encode (.ctxcTear w d a)).extractLsb' 4 10 = 0#10 := (zero_span _ 4 5 5 (by simp [encode, encR_m_part, encR_m, encR_b, encR_a, encR_d]) (by simp [encode, encR_m_part, encR_m, encR_b, encR_a, encR_d]))
  rw [encode] at z4
  rw [show encode (.ctxcTear w d a) = encR w 0x76#7 d a 0#5 5#9 from rfl, decode_76 _ (encR_op ..)]
  simp [decOp76, encR_fW, encR_op, encR_m, encR_b, encR_a, encR_d, encR_m_part, z4]
theorem bfill x0 x1 : Statement (.bfill x0 x1) := fun h => nomatch h
theorem badd x0 x1 : Statement (.badd x0 x1) := fun h => nomatch h
theorem baxpy x0 x1 : Statement (.baxpy x0 x1) := fun h => nomatch h
theorem bred x0 x1 : Statement (.bred x0 x1) := fun h => nomatch h
theorem mma x0 x1 : Statement (.mma x0 x1) := fun h => nomatch h
theorem mmz x0 x1 : Statement (.mmz x0 x1) := fun h => nomatch h
theorem acrd x0 x1 : Statement (.acrd x0 x1) := fun h => nomatch h
theorem acwr x0 x1 : Statement (.acwr x0 x1) := fun h => nomatch h
theorem mtr x0 x1 : Statement (.mtr x0 x1) := fun h => nomatch h
theorem wload x0 x1 : Statement (.wload x0 x1) := fun h => nomatch h
theorem wstore x0 x1 : Statement (.wstore x0 x1) := fun h => nomatch h
theorem wstq x0 x1 : Statement (.wstq x0 x1) := fun h => nomatch h
theorem wmcast x0 x1 : Statement (.wmcast x0 x1) := fun h => nomatch h
theorem wdeal x0 x1 : Statement (.wdeal x0 x1) := fun h => nomatch h
theorem wgather x0 x1 : Statement (.wgather x0 x1) := fun h => nomatch h
theorem wscatter x0 x1 : Statement (.wscatter x0 x1) := fun h => nomatch h
theorem wfill x0 x1 : Statement (.wfill x0 x1) := fun h => nomatch h
theorem signal x0 x1 : Statement (.signal x0 x1) := fun h => nomatch h
theorem illegalWord x0 : Statement (.illegalWord x0) := fun h => nomatch h
theorem tendComplete x0 : Statement (.tendComplete x0) := fun h => nomatch h
theorem yieldComplete x0 : Statement (.yieldComplete x0) := fun h => nomatch h
theorem stRelStoreLeaves x0 x1 : Statement (.stRelStoreLeaves x0 x1) := fun h => nomatch h
theorem caddAdditionSent x0 x1 : Statement (.caddAdditionSent x0 x1) := fun h => nomatch h
theorem tlnewAtCluster x0 x1 : Statement (.tlnewAtCluster x0 x1) := fun h => nomatch h
theorem tlnewResult x0 x1 : Statement (.tlnewResult x0 x1) := fun h => nomatch h
theorem tlfreeArrival x0 x1 : Statement (.tlfreeArrival x0 x1) := fun h => nomatch h
theorem sendInject x0 : Statement (.sendInject x0) := fun h => nomatch h
theorem chopenAtTarget x0 x1 : Statement (.chopenAtTarget x0 x1) := fun h => nomatch h
theorem chopenResult x0 x1 : Statement (.chopenResult x0 x1) := fun h => nomatch h
theorem tsubRecordWrite x0 x1 : Statement (.tsubRecordWrite x0 x1) := fun h => nomatch h
theorem krelSent x0 x1 : Statement (.krelSent x0 x1) := fun h => nomatch h
theorem barArrivalSent x0 x1 : Statement (.barArrivalSent x0 x1) := fun h => nomatch h
theorem pushEntersQueue x0 x1 : Statement (.pushEntersQueue x0 x1) := fun h => nomatch h
theorem vectorUnitStart x0 : Statement (.vectorUnitStart x0) := fun h => nomatch h
theorem rowWrite x0 : Statement (.rowWrite x0) := fun h => nomatch h
theorem tlbiInvalidate x0 x1 x2 x3 x4 : Statement (.tlbiInvalidate x0 x1 x2 x3 x4) := fun h => nomatch h
theorem qreqWrite x0 x1 : Statement (.qreqWrite x0 x1) := fun h => nomatch h
theorem oqcapWrite x0 x1 : Statement (.oqcapWrite x0 x1) := fun h => nomatch h
theorem trapEntry x0 : Statement (.trapEntry x0) := fun h => nomatch h
theorem watchdog x0 : Statement (.watchdog x0) := fun h => nomatch h
theorem translationWalk x0 x1 x2 : Statement (.translationWalk x0 x1 x2) := fun h => nomatch h
theorem bankLoad x0 : Statement (.bankLoad x0) := fun h => nomatch h
theorem bankStore x0 : Statement (.bankStore x0) := fun h => nomatch h
theorem rowLoadRequest x0 : Statement (.rowLoadRequest x0) := fun h => nomatch h
theorem rowStoreRequest x0 : Statement (.rowStoreRequest x0) := fun h => nomatch h
theorem scaleSlotWrite x0 : Statement (.scaleSlotWrite x0) := fun h => nomatch h
theorem amoAtBank x0 : Statement (.amoAtBank x0) := fun h => nomatch h
theorem casAtBank x0 : Statement (.casAtBank x0) := fun h => nomatch h
theorem counterAddAtBank x0 : Statement (.counterAddAtBank x0) := fun h => nomatch h
theorem daddAtBank x0 : Statement (.daddAtBank x0) := fun h => nomatch h
theorem dsealAtBank x0 : Statement (.dsealAtBank x0) := fun h => nomatch h
theorem loadResponse x0 : Statement (.loadResponse x0) := fun h => nomatch h
theorem storeAck x0 : Statement (.storeAck x0) := fun h => nomatch h
theorem rowLoadResponse x0 : Statement (.rowLoadResponse x0) := fun h => nomatch h
theorem flitInject x0 : Statement (.flitInject x0) := fun h => nomatch h
theorem flitArrival x0 : Statement (.flitArrival x0) := fun h => nomatch h
theorem receiptArrival x0 x1 : Statement (.receiptArrival x0 x1) := fun h => nomatch h
theorem nakArrival x0 x1 x2 : Statement (.nakArrival x0 x1 x2) := fun h => nomatch h
theorem injectionStop x0 : Statement (.injectionStop x0) := fun h => nomatch h
theorem throttleWindow x0 : Statement (.throttleWindow x0) := fun h => nomatch h
theorem bulkDeferExpiry x0 x1 : Statement (.bulkDeferExpiry x0 x1) := fun h => nomatch h
theorem overflowWrite x0 : Statement (.overflowWrite x0) := fun h => nomatch h
theorem ovminRecomputeDone x0 x1 : Statement (.ovminRecomputeDone x0 x1) := fun h => nomatch h
theorem linkReplay x0 x1 x2 : Statement (.linkReplay x0 x1 x2) := fun h => nomatch h
theorem retrainEnd x0 x1 : Statement (.retrainEnd x0 x1) := fun h => nomatch h
theorem pcieCompletionTimeout x0 : Statement (.pcieCompletionTimeout x0) := fun h => nomatch h
theorem promiseArrival x0 x1 x2 x3 : Statement (.promiseArrival x0 x1 x2 x3) := fun h => nomatch h
theorem transit x0 x1 : Statement (.transit x0 x1) := fun h => nomatch h
theorem promiseSend x0 x1 : Statement (.promiseSend x0 x1) := fun h => nomatch h
theorem askSend x0 x1 : Statement (.askSend x0 x1) := fun h => nomatch h
theorem askArrival x0 x1 : Statement (.askArrival x0 x1) := fun h => nomatch h
theorem tokenStart x0 : Statement (.tokenStart x0) := fun h => nomatch h
theorem surveyVisit x0 : Statement (.surveyVisit x0) := fun h => nomatch h
theorem survstall x0 : Statement (.survstall x0) := fun h => nomatch h
theorem eventArrival x0 x1 x2 x3 x4 x5 : Statement (.eventArrival x0 x1 x2 x3 x4 x5) := fun h => nomatch h
theorem taskEntry x0 : Statement (.taskEntry x0) := fun h => nomatch h
theorem deskKreq x0 x1 x2 x3 x4 : Statement (.deskKreq x0 x1 x2 x3 x4) := fun h => nomatch h
theorem kgrantArrival x0 x1 x2 : Statement (.kgrantArrival x0 x1 x2) := fun h => nomatch h
theorem krefuseArrival x0 x1 x2 : Statement (.krefuseArrival x0 x1 x2) := fun h => nomatch h
theorem keyRetry x0 x1 : Statement (.keyRetry x0 x1) := fun h => nomatch h
theorem deskKrel x0 x1 x2 x3 x4 : Statement (.deskKrel x0 x1 x2 x3 x4) := fun h => nomatch h
theorem deskKcancel x0 x1 x2 x3 x4 : Statement (.deskKcancel x0 x1 x2 x3 x4) := fun h => nomatch h
theorem krunAtDesk x0 x1 x2 x3 x4 : Statement (.krunAtDesk x0 x1 x2 x3 x4) := fun h => nomatch h
theorem kqueryAtDesk x0 x1 : Statement (.kqueryAtDesk x0 x1) := fun h => nomatch h
theorem kstatArrival x0 x1 : Statement (.kstatArrival x0 x1) := fun h => nomatch h
theorem wregAtSlice x0 x1 x2 : Statement (.wregAtSlice x0 x1 x2) := fun h => nomatch h
theorem wmetArrival x0 x1 x2 : Statement (.wmetArrival x0 x1 x2) := fun h => nomatch h
theorem wrefuseArrival x0 x1 x2 : Statement (.wrefuseArrival x0 x1 x2) := fun h => nomatch h
theorem watchPoll x0 x1 x2 : Statement (.watchPoll x0 x1 x2) := fun h => nomatch h
theorem wcancelAtSlice x0 x1 x2 x3 : Statement (.wcancelAtSlice x0 x1 x2 x3) := fun h => nomatch h
theorem dwait x0 x1 : Statement (.dwait x0 x1) := fun h => nomatch h
theorem dispatch x0 : Statement (.dispatch x0) := fun h => nomatch h
theorem priorityPromotion x0 x1 : Statement (.priorityPromotion x0 x1) := fun h => nomatch h
theorem quadHoldRequest x0 x1 : Statement (.quadHoldRequest x0 x1) := fun h => nomatch h
theorem quadGangStart x0 : Statement (.quadGangStart x0) := fun h => nomatch h
theorem barrierArrival x0 : Statement (.barrierArrival x0) := fun h => nomatch h
theorem barrierExit x0 : Statement (.barrierExit x0) := fun h => nomatch h
theorem barrierWake x0 : Statement (.barrierWake x0) := fun h => nomatch h
theorem slwinWrite x0 : Statement (.slwinWrite x0) := fun h => nomatch h
theorem slwinSwitchDone x0 x1 : Statement (.slwinSwitchDone x0 x1) := fun h => nomatch h
theorem slcolsWrite x0 : Statement (.slcolsWrite x0) := fun h => nomatch h
theorem slcolsSwitch x0 : Statement (.slcolsSwitch x0) := fun h => nomatch h
theorem patrolScrub x0 x1 : Statement (.patrolScrub x0 x1) := fun h => nomatch h
theorem leaseGrant x0 : Statement (.leaseGrant x0) := fun h => nomatch h
theorem releaseMarkerHead x0 : Statement (.releaseMarkerHead x0) := fun h => nomatch h
theorem waithRecheck x0 x1 : Statement (.waithRecheck x0 x1) := fun h => nomatch h
theorem engineCommandComplete x0 x1 x2 : Statement (.engineCommandComplete x0 x1 x2) := fun h => nomatch h
theorem sighAnswer x0 x1 x2 : Statement (.sighAnswer x0 x1 x2) := fun h => nomatch h
theorem scalingExchange x0 x1 : Statement (.scalingExchange x0 x1) := fun h => nomatch h
theorem mcastTransfer x0 : Statement (.mcastTransfer x0) := fun h => nomatch h
theorem drainAddition x0 x1 : Statement (.drainAddition x0 x1) := fun h => nomatch h
theorem freezeGraceEnd x0 : Statement (.freezeGraceEnd x0) := fun h => nomatch h
theorem freezeDone x0 : Statement (.freezeDone x0) := fun h => nomatch h
theorem thawDone x0 : Statement (.thawDone x0) := fun h => nomatch h
theorem pagePreserve x0 x1 : Statement (.pagePreserve x0 x1) := fun h => nomatch h
theorem archiveStart x0 : Statement (.archiveStart x0) := fun h => nomatch h
theorem archivePage x0 x1 : Statement (.archivePage x0 x1) := fun h => nomatch h
theorem checkpointComplete x0 : Statement (.checkpointComplete x0) := fun h => nomatch h
theorem nlctlWrite x0 : Statement (.nlctlWrite x0) := fun h => nomatch h
theorem lnkstWrite x0 : Statement (.lnkstWrite x0) := fun h => nomatch h
theorem cnrectWrite x0 : Statement (.cnrectWrite x0) := fun h => nomatch h
theorem cnctlFence x0 x1 : Statement (.cnctlFence x0 x1) := fun h => nomatch h
theorem cnctlReset x0 : Statement (.cnctlReset x0) := fun h => nomatch h
theorem containmentResetDone x0 : Statement (.containmentResetDone x0) := fun h => nomatch h
theorem registerWrite x0 x1 : Statement (.registerWrite x0 x1) := fun h => nomatch h
theorem hostPostWrite x0 x1 x2 x3 : Statement (.hostPostWrite x0 x1 x2 x3) := fun h => nomatch h
theorem hostPromise x0 x1 x2 x3 : Statement (.hostPromise x0 x1 x2 x3) := fun h => nomatch h
theorem hostReplyWrite x0 : Statement (.hostReplyWrite x0) := fun h => nomatch h
theorem rrheadWrite x0 x1 : Statement (.rrheadWrite x0 x1) := fun h => nomatch h
theorem vfbindWrite x0 x1 : Statement (.vfbindWrite x0 x1) := fun h => nomatch h
theorem domidWrite x0 : Statement (.domidWrite x0) := fun h => nomatch h
theorem firmwareRequestTake x0 : Statement (.firmwareRequestTake x0) := fun h => nomatch h
theorem reductionDescriptorWrite x0 : Statement (.reductionDescriptorWrite x0) := fun h => nomatch h
theorem reductionContribution x0 x1 x2 x3 x4 x5 : Statement (.reductionContribution x0 x1 x2 x3 x4 x5) := fun h => nomatch h
theorem fabricFrameArrival x0 x1 : Statement (.fabricFrameArrival x0 x1) := fun h => nomatch h
theorem thermalTrip  : Statement (.thermalTrip) := fun h => nomatch h
theorem thermalRecover  : Statement (.thermalRecover) := fun h => nomatch h
theorem perstRelease  : Statement (.perstRelease) := fun h => nomatch h
theorem contextCreate x0 x1 : Statement (.contextCreate x0 x1) := fun h => nomatch h
theorem pcieCompletionArrival x0 x1 : Statement (.pcieCompletionArrival x0 x1) := fun h => nomatch h

end Laws.RoundTrip

theorem Laws.RoundTrip.recall x0 x1 : Laws.RoundTrip.Statement (.recall x0 x1) := fun h => nomatch h
end Sys2Proof
end

