-- ==== Sys2Proof/Tests/Slice0.lean ====
section
/-! SUPPORT. Tests: ill-formed terms, words written out from the manual's encodings, and for each statement of the
certificate a state and operands that meet the hypotheses of each of its clauses. -/

namespace Sys2Proof.Tests

open Sys2Proof Sys2Proof.Machine

set_option Elab.async false

/-! ### Ill-formed terms (R33) -/

theorem test_wf_field : (Instr.ext false 5 6 63 1).wf = false ∧ (Instr.ext false 5 6 63 0).wf = true := by decide
theorem test_wf_field_signed : (Instr.exts false 5 6 0 63).wf = true ∧ (Instr.exts false 5 6 1 63).wf = false := by decide
theorem test_wf_insert : (Instr.ins false 5 6 31 33).wf = false := by decide
theorem test_wf_float : (Instr.fadd false 1 2 3 4).wf = true ∧ (Instr.fadd false 1 2 3 5).wf = false := by decide
theorem test_wf_convert : (Instr.fcvt false 1 2 1 0 1).wf = false ∧ (Instr.fcvt false 1 2 1 0 15).wf = true ∧
    (Instr.fcvt false 1 2 0 11 0).wf = false := by decide
theorem test_wf_tend : (Instr.tend false 0 1).wf = false ∧ (Instr.tend false 1 1).wf = true := by decide
theorem test_wf_mask : (Instr.ldAcq false 1 2 0 0).wf = false ∧ (Instr.fenceFull false 0).wf = false ∧
    (Instr.cadd false 1 2 3 0).wf = false ∧ (Instr.post false 1 2 0).wf = false ∧ (Instr.bara false 0).wf = false := by decide
theorem test_wf_dadd : (Instr.dadd false 1 2 3 2).wf = false ∧ (Instr.dadd false 1 2 3 15).wf = true := by decide
theorem test_wf_nstat : (Instr.nstat false 1 2 0).wf = false ∧ (Instr.nstat false 1 2 3).wf = true ∧
    (Instr.nstat false 1 0 5).wf = false := by decide
theorem test_wf_tsub : (Instr.tsub false 1 26 1).wf = true ∧ (Instr.tsub false 1 27 1).wf = false := by decide
theorem test_wf_push : (Instr.push false 3 0).wf = false ∧ (Instr.push false 2 28).wf = true ∧ (Instr.push false 2 29).wf = false ∧
    (Instr.pop false 3 1).wf = false ∧ (Instr.qstat false 3 1).wf = false ∧ (Instr.pushm false 3 1 0 0).wf = false := by decide
theorem test_wf_row : (Instr.vand false 1 2 3 0 0).wf = false ∧ (Instr.vadd false 1 2 3 0 5).wf = false ∧
    (Instr.vmov false 1 2 0 15).wf = false ∧ (Instr.vrcp false 1 2 0 1).wf = false ∧ (Instr.vsel false 1 2 3 0 11).wf = false := by decide
theorem test_wf_parts : (Instr.vcvt false 1 2 4 0 0 5).wf = false ∧ (Instr.vcvt false 1 2 3 0 0 5).wf = true ∧
    (Instr.vqnt false 1 2 0 0 10).wf = false ∧ (Instr.vdq false 1 2 4 0 3).wf = false ∧ (Instr.vdq false 1 2 0 0 1).wf = false := by decide
theorem test_wf_more_rows : (Instr.vredAmax false 1 2 0 7).wf = false ∧ (Instr.vneur false 1 2 3 0 1).wf = false ∧
    (Instr.vfma false 1 2 3 0 7).wf = false := by decide
theorem test_wf_accumulator : (Instr.mva false 4 0 0 0).wf = false ∧ (Instr.mva false 1 0 0 1).wf = false ∧
    (Instr.mva false 0 0 4 0).wf = false ∧ (Instr.amv false 0 4 0 0).wf = false := by decide
theorem test_wf_command : (Instr.mma 0 1).wf = true ∧ (Instr.mma 0 2).wf = false ∧ (Instr.illegalWord 0).wf = false := by decide

/-! ### Words (R92 to R106 and the encoding tables of each chapter) -/

theorem test_decode_alu : decodeTableWord 32 0x02298E80 = some (.sel false 5 6 7 8) ∧
    decodeTableWord 32 0x032981D0 = some (.ext false 5 6 7 16) ∧ decodeTableWord 32 0x0F4848D1 = some (.lui false 9 0x48D1) ∧
    decodeTableWord 32 0x064A5678 = some (.addi false 9 9 0x1678) := by decide +kernel
theorem test_decode_fpu : decodeTableWord 32 0x11298E10 = some (.fadd false 5 6 7 1) ∧
    decodeTableWord 32 0x12298E80 = some (.fma false 5 6 7 8 0) ∧ decodeTableWord 32 0x132981F0 = some (.fcvt false 5 6 1 15 0) := by
  decide +kernel
theorem test_decode_control : decodeTableWord 32 0x22004000 = some (.jalr false 0 1 0) ∧
    decodeTableWord 32 0x2301C001 = some (.tend false 7 1) ∧ decodeTableWord 32 0x24000004 = some (.yield false 4) := by decide +kernel
theorem test_decode_system : decodeTableWord 32 0x70000007 = some (.trap false 7) ∧ decodeTableWord 32 0x71000003 = some (.sysc false 3) ∧
    decodeTableWord 32 0x72000000 = some (.eret false) ∧ decodeTableWord 32 0x73014000 = some (.tlbi false 5) ∧
    decodeTableWord 32 0x74014C00 = some (.nlog false 5 6) := by decide +kernel
theorem test_decode_tasks : decodeTableWord 32 0x50850001 = some (.tsub false 16 20 1) ∧
    decodeTableWord 32 0xD08E8001 = some (.tsub true 17 26 1) ∧ decodeTableWord 32 0x5101C000 = some (.krel false 7) ∧
    decodeTableWord 32 0x5229C000 = some (.kheld false 5 7) := by decide +kernel
theorem test_decode_barriers : decodeTableWord 32 0x54000001 = some (.bara false 1) ∧ decodeTableWord 32 0x54000003 = some (.bara false 3) ∧
    decodeTableWord 32 0x55000000 = some (.barw false) ∧ decodeTableWord 32 0x56000007 = some (.bar false 7) := by decide +kernel
theorem test_decode_memory : decodeTableWord 32 0xB529BFFC = some (.ldWz true 5 6 0x3FFC) ∧
    decodeTableWord 32 0x393A000C = some (.stW false 7 8 12) ∧ decodeTableWord 32 0x3B224608 = some (.ldAcq false 4 9 3 8) ∧
    decodeTableWord 32 0x3C2A0600 = some (.stRel false 5 8 3 0) ∧ decodeTableWord 32 0x3D000043 = some (.fenceRel false 3) := by decide +kernel
theorem test_decode_atomics : decodeTableWord 32 0x4029CC15 = some (.amoMax false 5 7 6 1) ∧
    decodeTableWord 32 0x4029CC19 = some (.amoFaddF32 false 5 7 6) ∧ decodeTableWord 32 0x4129CC8F = some (.casI64 false 5 7 6 8) ∧
    decodeTableWord 32 0x4301CC03 = some (.cadd false 0 7 6 3) ∧ decodeTableWord 32 0x42952600 = some (.dadd false 18 20 19 0) ∧
    decodeTableWord 32 0x442C0000 = some (.dseal false 5 16) := by decide +kernel
theorem test_decode_timelines : decodeTableWord 32 0x46298E00 = some (.tlnew false 5 6 7) ∧
    decodeTableWord 32 0x48B52A03 = some (.send false 22 20 21 3) ∧ decodeTableWord 32 0x4A000021 = some (.reply false 0 1) ∧
    decodeTableWord 32 0x4A41C001 = some (.replyTo false 8 7 1) ∧ decodeTableWord 32 0x4E324003 = some (.nstat false 6 9 3) := by
  decide +kernel
theorem test_decode_rows : decodeTableWord 32 0x6012FCC2 = some (.vmul false 0 4 5 31 3) ∧
    decodeTableWord 32 0x6829_9800 = some (.vaddX false 1 2 3 6 0) ∧ decodeTableWord 32 0x63288C03 = some (.vcvt false 1 2 1 3 0 3) ∧
    decodeTableWord 32 0x6CD52700 = some (.vqntX false 6 5 2 9 12) ∧ decodeTableWord 32 0x662E8803 = some (.vbcast false 1 3 5 2 0) ∧
    decodeTableWord 32 0x67051000 = some (.vneur false 0 1 2 4 0) := by decide +kernel
theorem test_decode_tiles : decodeTableWord 32 0x5C484403 = some (.tldr false 2 8 8 1 3) ∧
    decodeTableWord 32 0x5D254BFE = some (.tstr false 1 5 9 0 0x3FE) ∧ decodeTableWord 32 0x5E604040 = some (.tld false 3 8 64) := by
  decide +kernel
theorem test_decode_queues : decodeTableWord 32 0x59504002 = some (.pushm false 1 8 1 2) ∧
    decodeTableWord 32 0x5A0A0000 = some (.pop false 0 5) ∧ decodeTableWord 32 0x5B8C0000 = some (.qstat false 2 6) ∧
    decodeTableWord 32 0x57000000 = some (.mrls false) ∧ decodeTableWord 32 0x6E3080C0 = some (.mva false 1 4 1 3) ∧
    decodeTableWord 32 0xEFE00000 = some (.amv true 7 0 0 0) := by decide +kernel
theorem test_decode_contexts : decodeTableWord 32 0x76298001 = some (.ctxcRdf false 5 6) ∧
    decodeTableWord 32 0x76298E02 = some (.ctxcWrf false 5 6 7) ∧ decodeTableWord 32 0x75298E00 = some (.ckpt false 5 6 7) := by decide +kernel
theorem test_decode_commands : decodeTableWord 256 0x01 = some (.mma 0 1) ∧ decodeTableWord 256 0x28 = some (.signal 0 0x28) ∧
    decodeTableWord 256 0x43 = some (.bred 0 0x43) ∧ decodeTableWord 256 0x06 = none ∧ decodeTableWord 32 0x14000000 = none := by
  decide +kernel

/-! ### Small states -/

/-- Core 0 of a one-router context that maps its first page, at address 0x50000. -/
def booted : State := State.reset.boot

/-- A core that runs a task outside every timeline. -/
def task : Core := { run := .running, tl := 0xFFFF }

/-- `booted` with one core in another state. -/
def on (k : Core) : State := { booted with cores := [(0, k)] }

/-- `booted` with a context changed. -/
def inCtx (f : Ctx → Ctx) (k : Core) : State := (on k).modCtx 0 f

/-- A result outstanding from word 0. -/
def waitingCore : Core := { task with outs := [(0, { iaddr := 0, dest := .reg 1 8 false, load := 1 })], seq := 1 }

/-- A fault that a result reported. -/
def faultedCore : Core := { task with deferred := [{ seq := 0, t := { code := 6, pc := 0 } }] }

/-! ### Witnesses: encoding and steps -/

theorem witness_WordsRoundTrip : (Instr.add false 1 2 3).isWord = true := by decide
theorem witness_WordsAreUnambiguous : decode 0x01298E00 = .ok (.add false 5 6 7) := by rfl
theorem witness_CommandWords : (0x43#256).extractLsb' 0 8 = 0x43#8 ∧ (0x44#256).extractLsb' 0 8 = 0x44#8 := by decide

/-- The word `add s5, s6, s7` at the pc of core 0. -/
def fetching : State := booted.withFetchWord 32 0x01298E00

/-- Whether a state is about to run the word at the pc of core 0, with what holds of the state after the fetch. -/
def about (s : State) (i : Instr) (f : State → Bool) : Bool :=
  takeDue s.cycle s.agenda = none && firstReady s.cycle s.cores = some 0 && (s.me.inSlot s.me.pc).isNone &&
  match s.translate 0 s.me.pc .fetch with
  | (.ok pa _ _ _, s1) =>
    let u := (s1.touch pa).correct pa 4 false
    !u.poisoned pa 4 && !u.blocked && (match decode (BitVec.ofNat 32 (u.readMem pa 4)) with
      | .ok j => j = i
      | _ => false) && f u
  | _ => false
/-- Whether a word answers a next state of which something holds. -/
def goes (i : Instr) (s : State) (f : State → Bool) : Bool :=
  match exec i s with
  | .next t => f t
  | _ => false
/-- `add s5, s6, s7` and `ldD s1, 0(s2)`. -/
def addWord : Instr := .add false 5 6 7
def loadWord : Instr := .ldD false 1 2 0
/-- A load from the second page, whose entry lies at a slice that changes its window; the fetch finds its own in the TLB. -/
def switching : State :=
  let s := booted.withFetchWord 32 (encode loadWord).toNat
  let s := (s.translate 0 s.me.pc .fetch).2
  { s.modMe fun k => k.put 2 0x10000 with slwinNew := [(s.homeOf 0x40008, 1)] }

theorem witness_StepRunsWord_flash : (match exec .perstRelease State.reset with
    | .next t => firstReady t.cycle t.cores = some 0xB00 && (t.core 0xB00).run = .running
    | _ => false) = true := by decide +kernel
theorem witness_StepRunsWord : about fetching addWord (fun u => u.passesDecode addWord && (u.checkRegs addWord 0x01298E00).isNone &&
      u.me.upset = 0 && u.me.badRegs = [] && u.me.softRegs = [] && goes addWord (u.correctRegs addWord) fun t => !t.blocked) = true ∧
    about switching loadWord (fun u => u.me.upset = 0 && goes loadWord (u.correctRegs loadWord) fun t => t.blocked) = true ∧
    about (fetching.modMe fun k => { k with upset := 2 }) addWord (fun u => u.me.upset = 2 &&
      goes addWord (u.correctRegs addWord) fun t => !(t.core u.cur).stalled u.me.pc u.cycle &&
        !(u.mismatch 0x01298E00 (max (interval addWord) ((t.core u.cur).ready - u.cycle))).blocked) = true ∧
    about (booted.withFetchWord 32 (encode (.eret false)).toNat) (.eret false) (fun u => !u.passesDecode (.eret false) &&
      goes (.eret false) u fun t => !t.blocked) = true ∧
    about (fetching.modMe fun k => { k with badRegs := [6] }) addWord (fun u => match u.checkRegs addWord 0x01298E00 with
      | some v => !v.blocked
      | none => false) = true := by decide +kernel
theorem witness_StepTrapsFetch :
    (let s := on { task with pc := 0x20000 }
     takeDue s.cycle s.agenda = none ∧ firstReady s.cycle s.cores = some 0 ∧ (match s.fetchWord with
      | (.error f, u) => f.code = 4 && !(u.trapWith f).blocked
      | _ => false) = true) ∧
    takeDue booted.cycle booted.agenda = none ∧ firstReady booted.cycle booted.cores = some 0 ∧
    (match booted.fetchWord with
      | (.ok x, u) => x = 0 && !(u.trap 1 (x.setWidth 64)).blocked && (match decode x with
        | .error _ => true
        | _ => false)
      | _ => false) = true := by decide +kernel
/-- A bulk command whose page is found by a slice that changes its window. -/
def waitingFill : State :=
  let k : Core := { task with qb := { entries := [{ cw := 0x40 + 2 ^ 20, entered := true, stage := .armed }] } }
  ({ on k with slwinNew := [((on k).homeOf 0x40000, 1)] } : State).post (.command 0 (0x40 + 2 ^ 20))
theorem witness_StepRunsDue : takeDue (booted.post .thermalTrip).cycle (booted.post .thermalTrip).agenda = some (.thermalTrip, []) ∧
    (match eventMeaning .thermalTrip booted with
      | .next t => !t.blocked
      | _ => false) = true ∧
    takeDue waitingFill.cycle waitingFill.agenda = some (.command 0 (0x40 + 2 ^ 20), []) ∧
    (match eventMeaning (.command 0 (0x40 + 2 ^ 20)) { waitingFill with agenda := [] } with
      | .next t => t.blocked
      | _ => false) = true := by decide +kernel
theorem witness_TimePasses : takeDue State.reset.cycle State.reset.agenda = none ∧ firstReady State.reset.cycle State.reset.cores = none := by
  decide +kernel
theorem witness_StepKeepsMemory : Memory.wf State.reset.mem = true ∧ (match step fetching with
    | .next _ => true
    | _ => false) = true := by decide +kernel
theorem witness_StepKeepsModes : ModesOk fetching := by simp only [ModesOk, ModeOk]; decide +kernel
theorem witness_IllFormedTrap : (Instr.tend false 0 1).isWord = true ∧ (Instr.tend false 0 1).wf = false := by decide
theorem witness_PrivilegeTrap : (Instr.tlbiAll false).isWord = true ∧ (Instr.tlbiAll false).wf = true ∧
    (on task).me.mode.level < (needs (.tlbiAll false)).level := by decide +kernel
theorem witness_WaitMarker : (Instr.add true 1 2 3).isWord = true ∧ (Instr.add true 1 2 3).wf = true ∧ waits (.add true 1 2 3) = true ∧
    (needs (.add true 1 2 3)).level ≤ (on waitingCore).me.mode.level ∧ (on waitingCore).me.waiting = true ∧
    (on faultedCore).me.waiting = false ∧ (on faultedCore).me.deferred ≠ [] := by decide +kernel
theorem witness_HardwiredZero : (1 : BitVec 5) ≠ 0 ∧ (2 : BitVec 5) ≠ 1 := by decide

/-! ### Witnesses: scalar words -/

theorem witness_AluResults : Issues (.add false 1 2 3) (on task) ∧ Issues (.mulh true 0 2 3) (on task) := by
  simp only [Issues]; decide +kernel
theorem witness_CountsAndDivision : Issues (.clz false 1 2) (on task) ∧ Issues (.popc false 0 31) (on task) := by
  simp only [Issues]; decide +kernel
theorem witness_CountsAndDivision_corners : Issues (.div false 1 2 3) (on task) ∧ (on task).me.get 3 = 0 ∧
    (on ((task.put 2 0x8000000000000000).put 3 0xFFFFFFFFFFFFFFFF)).me.get 2 = 0x8000000000000000 ∧
    (on ((task.put 2 0x8000000000000000).put 3 0xFFFFFFFFFFFFFFFF)).me.get 3 = BitVec.allOnes 64 := by
  simp only [Issues]; decide +kernel
theorem witness_SelectResult : Issues (.sel false 1 2 3 4) (on task) ∧ Issues (.sel false 0 2 3 0) (on task) := by
  simp only [Issues]; decide +kernel
theorem witness_BitFields : Issues (.ext false 1 2 63 0) (on task) ∧ (63#6).toNat + 1 + (0#6).toNat ≤ 64 ∧
    64 < (63#6).toNat + 1 + (1#6).toNat := by simp only [Issues]; decide +kernel
theorem witness_Immediates : Issues (.addi false 1 2 0x1FFF) (on task) ∧ Issues (.srai false 1 2 63) (on task) := by
  simp only [Issues]; decide +kernel
theorem witness_Immediates_upper : Issues (.lui false 1 0x40000) (on task) ∧ Issues (.auipc false 1 0) (on task) := by
  simp only [Issues]; decide +kernel
theorem witness_FpuResults : Issues (.fadd false 1 2 3 0) (on task) ∧ Issues (.fclass false 1 2 4) (on task) ∧
    fNV &&& (on task).me.fpen = 0 := by simp only [Issues]; decide +kernel
theorem witness_FcvtResults : Issues (.fcvt false 1 2 1 15 0) (on task) ∧ (fNV ||| fNV) &&& (on task).me.fpen = 0 ∧
    ¬((11#4).toNat ≤ 10 ∨ (11#4).toNat = 15) ∧ ¬(7 ≤ (0#4).toNat ∧ (0#4).toNat ≤ 10 ∨ (0#4).toNat = 15) := by
  simp only [Issues]; decide +kernel
/-- 1.0 in s2, 0 in s3, every flag enabled. -/
def dividing : Core := { task.put 2 0x3F800000 with fpen := 0x3F }
theorem witness_FpeTrap : Issues (.fdiv false 1 2 3 0) (on dividing) ∧
    (let r := fDivV ((fmtD 0).val ((on dividing).me.get 2).toNat) ((fmtD 0).val ((on dividing).me.get 3).toNat)
     ((fmtD 0).result 0 r.1 r.2).2 &&& (on dividing).me.fpen ≠ 0) ∧
    (let k := { task.put 2 0x7FC00000 with fpen := 0x3F }
     Issues (.fcmpLt false 1 2 3 0) (on k) ∧ Issues (.fcmpLe false 1 3 2 0) (on k) ∧ ((fmtD 0).val (k.get 2).toNat).isNan = true ∧
       fNV &&& (on k).me.fpen ≠ 0 ∧ Issues (.fcvt false 1 2 0 0 10) (on k) ∧
       (tyConvert 10 false 0 (tyVal 0 false (k.get 2).toNat)).2 &&& (on k).me.fpen ≠ 0) := by simp only [Issues]; decide +kernel

/-! ### Witnesses: control, CSRs, traps -/

theorem witness_Branches : Issues (.beq false 1 2 0x2000) (on task) ∧ (on task).me.get 1 = (on task).me.get 2 ∧
    Issues (.bne false 1 2 0x1FFF) (on task) ∧ ¬(on task).me.get 1 ≠ (on task).me.get 2 := by simp only [Issues]; decide +kernel
theorem witness_Branches_jumps : Issues (.j false 0x800000) (on task) ∧ Issues (.jal false 0x7FFFFF) (on task) := by
  simp only [Issues]; decide +kernel
theorem witness_JumpRegister : Issues (.jalr false 1 2 0) (on task) ∧ ((on task).me.get 2 + BitVec.ofInt 64 (0#14).toInt).toNat % 4 = 0 ∧
    ((on task).me.get 2 + BitVec.ofInt 64 (3#14).toInt).toNat % 4 ≠ 0 := by simp only [Issues]; decide +kernel
theorem witness_CsrReads : (on task).csrRead 9 = some 0 ∧ csrWaits 9 = true ∧ (on task).me.waiting = false ∧ (on task).me.deferred = [] ∧ Issues (.csrr false 1 9) (on task) ∧
    (0x100 ≤ (0x100#12).toNat ∧ (on task).me.mode = .task) ∧ Issues (.csrw false 1 2 0x100) (on task) ∧
    (on task).csrRead 0x0F = none ∧ Issues (.csrs false 1 2 0x0F) (on task) := by simp only [Issues]; decide +kernel
theorem witness_CsrWrites : (on task).csrRead 9 = some 0 ∧ (on task).me.waiting = false ∧ (on task).me.deferred = [] ∧
    Issues (.csrw false 1 2 9) (on task) ∧ (on task).me.get 2 &&& csrZero 9 = 0 ∧ (on (task.put 2 8)).me.get 2 &&& csrZero 9 ≠ 0 ∧
    (on { task with mode := .supervisor }).csrRead 0x106 = some 0 ∧ Issues (.csrw false 1 2 0x106) (on { task with mode := .supervisor }) := by
  simp only [Issues]; decide +kernel
theorem witness_CsrWrites_others : (let s := on { task with mode := .supervisor }
      (s.csrRead 0x105).isSome = true ∧ Issues (.csrw false 1 2 0x105) s ∧ (0x3F01 : Word) &&& csrZero 0x105 = 0 ∧ (0x3F01 : Word).toNat % 4 < 2 ∧
        (0x3F02 : Word) &&& csrZero 0x105 = 0 ∧ 2 ≤ (0x3F02 : Word).toNat % 4 ∧ (0x4000 : Word) &&& csrZero 0x105 ≠ 0 ∧
        (s.csrRead 0x104).isSome = true ∧ Issues (.csrw false 1 2 0x104) s ∧ (0x100 : Word) &&& csrZero 0x104 = 0 ∧
        (0x1000000000000 : Word) &&& csrZero 0x104 ≠ 0) ∧
    ((on task).csrRead 7).isSome = true ∧ Issues (.csrs false 1 2 7) (on task) ∧ ((on task).csrRead 0xE).isSome = true ∧
    ((on task).csrRead 0x10).isSome = true ∧ ((on task).csrRead 0xA).isSome = true ∧ Issues (.csrc false 1 2 0xA) (on task) := by
  simp only [Issues]; decide +kernel

/-- A context with a trap vector. -/
def vectored (k : Core) : State := inCtx (fun c => { c with tvec := 0x100 }) k
theorem witness_TrapEntry : Issues (.trap false 7) (vectored task) ∧ Issues (.sysc false 3) (vectored task) ∧
    (vectored task).me.waiting = false ∧ (vectored task).me.deferred = [] ∧ (vectored task).me.intrap = false ∧
    ((vectored task).ctx (vectored task).me.ctx).tvec ≠ 0 ∧
    ((vectored { task with run := .trapping { code := 1, pc := 0 } }).core 0).run = .trapping { code := 1, pc := 0 } := by
  simp only [Issues]; decide +kernel
theorem witness_TrapWithoutHandler : Issues (.trap false 7) (on { task with intrap := true, mode := .supervisor }) ∧
    Issues (.sysc false 7) (on task) ∧ ((on task).ctx 0).tvec = 0 ∧ (on task).me.waiting = false ∧ (on task).me.deferred = [] := by
  simp only [Issues]; decide +kernel
/-- A core in a handler. -/
def handling : Core := { task with mode := .supervisor, intrap := true }
theorem witness_TrapReturn : Issues (.eret false) (on { task with mode := .supervisor }) ∧ Issues (.eret false) (on handling) ∧
    (on { handling with outs := waitingCore.outs }).me.waiting = true ∧ (on handling).me.waiting = false ∧
    (on { handling with epc := 2 }).me.epc.toNat % 4 ≠ 0 ∧ (on handling).me.epc.toNat % 4 = 0 := by simp only [Issues]; decide +kernel
theorem witness_TaskEnds : IssuesDrained (.tend false 0 0) (on handling) ∧ IssuesDrained (.tend false 0 0) (on task) ∧
    IssuesDrained (.tend false 2 1) (on (task.put 2 0xFFFF)) ∧ ((on (task.put 2 0xFFFF)).me.get 2).toNat % 65536 = 65535 ∧
    { task with gang := 0x13, run := .ending none false }.quiet = true ∧
    (let q : Core := { task with run := .ending none false }
     q.quiet = true ∧ q.gang = 0 ∧ { q with stores := [(0, 1)] }.quiet = false ∧ (on q).signalWaits none = false ∧
       ({ on q with slwinNew := [((on q).homeOf 0, 0)] } : State).signalWaits (some (0, 1)) = true) ∧
    IssuesDrained (.yield false 0) (on task) ∧ (on task).me.gang = 0 ∧ (on task).me.inline = none ∧
    (on task).me.term.toNat ≤ ((on task).me.now + 1).toNat ∧ IssuesDrained (.yield false 1) (on task) ∧
    (let q : Core := { task with run := .yielding (Vector.replicate 8 0) false }
     q.drained = true ∧ 0 < ((on q).cluster 0).freeSlots 0 ∧ (on q).waitsInOverflow 0 0 = false) ∧
    (let q : Core := { task with run := .leaving (Vector.replicate 8 0) false }
     let full : State := (on q).modCluster 0 fun k => { k with inbox := (List.range 184).map fun i => (i, { divert := 176 ≤ i }) }
     ((on q).core 0).run = .leaving (Vector.replicate 8 0) false ∧ (full.cluster 0).freeSlots 0 = 0 ∧ 8 ≤ (full.cluster 0).diverts) ∧
    (let q : Core := { task with wdogOn := true }
     (on q).budgetOf q = 0 ∧ q.run = .running) := by simp only [IssuesDrained, Issues]; decide +kernel
/-- A supervisor of context 0. -/
def sup : Core := { task with mode := .supervisor }
theorem witness_SupervisorWords : Issues (.tlbi false 1) (on sup) ∧ Issues (.tlbiAll false) (on { sup with stores := [(0, 1)] }) ∧
    Issues (.tlbiAll false) (on { sup with lags := [(0, 30)] }) ∧ (on sup).me.lags = [] ∧
    2 ^ 48 ≤ ((on (sup.put 1 0x1000000000000)).me.get 1).toNat ∧ ((on (sup.put 1 0xFFFFFFFFFFFF)).me.get 1).toNat < 2 ^ 48 ∧
    ((on { sup with run := .flushing 4, tlbiLeft := 2 }).core 0).tlbiLeft = 2 ∧
    ((on sup).ctx 0).units ≠ [] ∧ (on sup).me.stores = [] ∧ (on sup).me.held = [] ∧
    ((on { sup with run := .flushing 4, tlbiLeft := 1 }).core 0).run = .flushing 4 ∧ Issues (.nlog false 1 2) (on sup) ∧
    Issues (.ctxcQuery false 1 2) (on sup) ∧ ((on sup).me.get 2).toNat / 256 = (on sup).me.ctx ∧ ((on sup).ctx 0).st ≠ .empty ∧
    ((on sup).ctx 0).field 2 = some 0 ∧ fieldWritable 2 .supervisor = true ∧ ((on sup).ctx 0).refuses 2 0 = false ∧
    fieldWritable 0 .supervisor = false ∧ ((on sup).ctx 0).refuses 2 1 = true ∧ Issues (.ctxcWrf false 1 2 3) (on (sup.put 2 2)) := by
  simp only [Issues]; decide +kernel

/-! ### Witnesses: memory -/

/-- Whether a translation of the running core succeeds with what holds of its answer. -/
def maps (s : State) (ea : Word) (a : Access) (f : Nat → State → Bool) : Bool :=
  match s.translate s.cur ea a with
  | (.ok pa _ _ _, u) => f pa u
  | _ => false

/-- Whether a translation of the running core fails. -/
def fails (s : State) (ea : Word) (a : Access) : Bool :=
  match s.translate s.cur ea a with
  | (.bad _ _ _, _) => true
  | _ => false

/-- `on` with its page writable and dirty. -/
def data (k : Core) : State := { on k with mem := memWrite (on k).mem 0x40000 0x501BF 8 }

/-- A core with 16 load entries and 32 store entries in use. -/
def fullCore : Core := { task with outs := [(0, { iaddr := 0, load := 16 })], stores := [(0, 32)], seq := 1 }

theorem witness_ScalarLoads : Issues (.ldB false 1 2 0) (on task) ∧ Issues (.ldAcq false 1 2 1 0) (on task) ∧
    2 ^ 48 ≤ ((on (task.put 2 0xFFFF000000000000)).me.get 2 + (0 : BitVec 14).signExtend 64).toNat ∧
    ((on task).me.get 2 + (3 : BitVec 14).signExtend 64).toNat % 4 ≠ 0 ∧ fails (on task) 0x20000 .load = true ∧
    maps (on task) 0xFFF8 .load (fun pa u => pa = 0x5FFF8 && !u.mustWait pa 8 1 0) = true ∧
    maps (on fullCore) 0xFFF8 .load (fun pa u => u.mustWait pa 8 1 0) = true := by simp only [Issues]; decide +kernel
theorem witness_ScalarStores : Issues (.stB false 1 2 0) (on task) ∧ Issues (.stRel false 1 2 1 0) (on task) ∧
    fails (on task) 0x20000 .store = true ∧ maps (data task) 0 .store (fun pa u => !u.mustWait pa 8 0 1) = true ∧
    maps (data fullCore) 0 .store (fun pa u => u.mustWait pa 8 0 1) = true ∧ Issues (.fenceFull false 31) (on task) ∧
    Issues (.fenceAcq false 1) (on task) ∧ Issues (.fenceRel false 1) (on task) ∧
    (on task).me.released (on task).me.seq 31 = true ∧ (on fullCore).me.released (on fullCore).me.seq 1 = false ∧
    (on { task with lags := [(0, 30)], seq := 1 }).me.released 1 1 = true ∧ (on { task with lags := [(0, 30)], seq := 1 }).me.released 1 31 = false ∧
    (on task).me.loads = 0 ∧ (on fullCore).me.loads ≠ 0 := by simp only [Issues]; decide +kernel
/-- A `tend` with a signal on counter 1. -/
def signals : Core := task.put 2 1
theorem witness_TaskEnds_signal : IssuesDrained (.tend false 2 1) (data signals) ∧ (signals.get 2).toNat % 65536 = 1 ∧
    ({ signals with ctrbase := 0xFFFFFFFFFFF8 } : Core).ctrbase + 8 = 0x1000000000000 ∧ fails (on signals) 8 .both = true ∧
    maps (data signals) 8 .both (fun pa u => bankRegion pa false && (u.unpreservedBy signals pa).isEmpty) = true ∧
    (let c : Ckpt := { t := 0, number := 0, pages := [{ va := 0, pa := 0x50000, leaf := 0x40000 }], arch := [], acap := 0, shadow := [] }
     maps ((data { signals with now := 0x50000 }).modCtx 0 fun x => { x with ckpt := some c }) 8 .both fun pa u => !(u.unpreservedBy { signals with now := 0x50000 } pa).isEmpty) = true := by
  simp only [IssuesDrained, Issues]; decide +kernel
/-- A core whose first page is host memory. -/
def hostPage (k : Core) : State := { on k with mem := memWrite (on k).mem 0x40000 0x40000000001BF 8 }
theorem witness_AtomicWords : Issues (.amoAdd false 1 2 3 0) (on task) ∧ Issues (.dseal false 1 2) (on task) ∧
    maps (data task) 0 .both (fun pa u => bankRegion pa true && !u.mustWait pa 8 1 1) = true ∧
    maps (hostPage task) 0 .both (fun pa _ => !bankRegion pa true) = true ∧
    maps (hostPage signals) 8 .both (fun pa _ => !bankRegion pa false) = true ∧ Issues (.dadd false 1 2 3 15) (on task) ∧
    maps (data task) 0 .both (fun pa u => bankRegion pa false && !u.mustWait pa 8 0 1) = true ∧
    Issues (.cadd false 1 2 3 1) (on task) ∧ ((on (task.put 2 0xFFFF)).me.get 2).toNat % 65536 = 65535 ∧
    ((on (task.put 2 0x1FF)).me.get 2).toNat % 65536 ≠ 65535 ∧
    maps (data task) (8 * 0x1FF) .both (fun pa u => bankRegion pa false && !u.mustWait pa 8 1 0 &&
      (u.unpreservedBy u.me pa).isEmpty) = true := by simp only [Issues]; decide +kernel

/-- A request of core 0 that is alone on its way. -/
def asking (r : MReq) : State := { on { task with outs := [(0, { iaddr := 0, dest := r.dest, load := 1 })], seq := 1 } with
  reqs := [(7, { r with stage := 1 })] }
/-- A request of core 0 that is answered. -/
def answered (r : MReq) : State := { asking r with reqs := [(7, { r with stage := 2 })] }
/-- A load of 8 bytes at an address. -/
def loadAt (pa : Nat) : MReq := { core := 0, seq := 0, kind := .load, pa := pa, dest := .reg 1 8 false }

theorem witness_BankReads : Arrives (asking (loadAt 0x7FFFFFFFF8)) 7 { loadAt 0x7FFFFFFFF8 with stage := 1 } ∧ region 0x7FFFFFFFF8 = .hbm ∧
    (asking (loadAt 0)).physOk 0x7FFFFFFFF8 = true ∧ (asking (loadAt 0)).poisoned 0 8 = false ∧
    { asking (loadAt 0) with poison := [0] }.poisoned 0 8 = true ∧ region 0x10000000000 = .window 0 0 ∧
    (asking (loadAt 0)).physOk 0x10000000000 = false ∧ region 0x4000000000000 = .host ∧
    (((asking (loadAt 0)).modCluster 0 fun k => { k with ccache := [(0, 0, 5)] }).cluster 0).cached 0 0 = some 5 ∧
    Arrives (asking { loadAt 0 with kind := .rowLoad, bytes := 64 }) 7 { loadAt 0 with kind := .rowLoad, bytes := 64, stage := 1 } ∧
    Arrives (asking { loadAt 0 with kind := .engRead 3 1 9, bytes := 64 }) 7 { loadAt 0 with kind := .engRead 3 1 9, bytes := 64, stage := 1 } ∧
    Arrives (asking { loadAt 0 with kind := .group }) 7 { loadAt 0 with kind := .group, stage := 1 } ∧ region 0xC000000000000 = .reduction 0 0 ∧
    (asking (loadAt 0x4000000000000)).reqs.find 7 = some { loadAt 0x4000000000000 with stage := 1 } := by
  simp only [Arrives]; decide +kernel
/-- A core that holds what a word has issued. -/
def holding (h : Held) : Core := { task with held := [(0, { what := h, bound := 0 })], seq := 1 }
/-- The same behind an earlier store. -/
def blocked (h : Held) : Core := { task with held := [(1, { what := h, bound := 1 })], stores := [(0, 1)], seq := 2 }
/-- Whether what a core holds may leave. -/
def free (h : Held) (k : Core) (bound : Nat) : Bool := ({ what := h, bound := bound } : HeldEntry).free k
theorem witness_AnswersReturn : (answered (loadAt 0)).reqs.find 7 = some { loadAt 0 with stage := 2 } ∧
    (answered (loadAt 0)).siblings 7 { loadAt 0 with stage := 2 } = false ∧
    ((answered (loadAt 0)).core 0).outs.find 0 = some { iaddr := 0, dest := .reg 1 8 false, load := 1 } ∧
    (answered { loadAt 0 with status := 1 }).reqs.find 7 = some { loadAt 0 with stage := 2, status := 1 } ∧
    (answered { loadAt 0 with kind := .store }).siblings 7 { loadAt 0 with kind := .store, stage := 2 } = false ∧
    (let r : MReq := { loadAt 0 with kind := .rowLoad, dest := .row 7 63 }
     (answered r).siblings 7 { r with stage := 2 } = false ∧ ((answered r).core 0).outs.find 0 = some
       { iaddr := 0, dest := .row 7 63, load := 1 } ∧ (∀ p ∈ (answered r).reqs, p.1 = 7 → p.2 = { r with stage := 2 })) ∧
    (let g : GroupRef := { j := 7, pa := 0x100, va := 0x100, slot := 2 }
     let r : MReq := { loadAt 0 with kind := .rowLoad, dest := .row 7 63, groups := [g], stage := 2 }
     let b : MReq := { loadAt 0x100 with kind := .group, stage := 3 }
     let s : State := { answered r with reqs := [(7, r), (8, b)] }
     s.siblings 7 r = false ∧ s.groupRead r g = some b ∧ b.status = 0 ∧ ∀ p ∈ s.reqs, p.1 = 7 → p.2 = r) ∧
    ((on (holding (.request 3))).core 0).held.find 0 = some { what := .request 3, bound := 0 } ∧
    free (.request 3) (holding (.request 3)) 0 = true ∧ free (.request 3) (blocked (.request 3)) 1 = false ∧
    ((on (blocked (.addition 3))).core 0).held.find 1 = some { what := .addition 3, bound := 1 } ∧
    free (.addition 3) (holding (.addition 3)) 0 = true ∧
    (let r : MReq := { loadAt 0 with kind := .rowLoad, dest := .row 7 63, status := 1, stage := 2 }
     (answered r).siblings 7 r = false ∧ r.groups = [] ∧ ∀ p ∈ (answered r).reqs, p.1 = 7 → p.2 = r) ∧
    (let l : Lag := { id := 9, core := 0, seq := 0, pa := 0, n := 8, old := 0 }
     let far : Lag := { id := 8, core := 0, seq := 1, pa := 8, n := 8, old := 0 }
     let s : State := { on { task with lags := [(0, 30), (1, 30)], seq := 2 } with lagging := [far, l] }
     s.reqs.find 9 = none ∧ (s.lagging.filter fun g => g.id = 9) = [l] ∧ ∀ g ∈ s.lagging, g.id ≠ 9 → g.meets l = false) := by decide +kernel
theorem witness_BankWrites : Arrives (asking { loadAt 0 with kind := .store }) 7 { loadAt 0 with kind := .store, stage := 1 } ∧
    Arrives (asking { loadAt 0 with kind := .engWrite 3 1 9 (some 5) }) 7 { loadAt 0 with kind := .engWrite 3 1 9 (some 5), stage := 1 } ∧
    Arrives (asking { loadAt 0 with kind := .engWrite 3 2 9 none }) 7 { loadAt 0 with kind := .engWrite 3 2 9 none, stage := 1 } ∧
    (asking { loadAt 0 with kind := .store }).poisonKept 0 8 = false ∧ ((asking (loadAt 0)).ctx 0).ckpt = none ∧
    (asking (loadAt 0)).poisoned 0 8 = false ∧ { asking (loadAt 0) with poison := [0] }.poisoned 0 8 = true ∧
    { asking (loadAt 0) with poison := [0] }.poisonKept 0 64 = false ∧ (asking (loadAt 0)).physOk 0 = true ∧
    Memory.wf (asking (loadAt 0)).mem = true ∧ region 0 = .hbm ∧ 0 < (loadAt 0).bytes := by
  simp only [Arrives]; decide +kernel
theorem witness_DeterministicAdd : Arrives (asking { loadAt 0 with kind := .dadd 15 }) 7 { loadAt 0 with kind := .dadd 15, stage := 1 } ∧
    ((asking (loadAt 0)).slice ((asking (loadAt 0)).homeOf 0)).line 0 0 8 = none ∧
    (let v := (asking (loadAt 0)).slice ((asking (loadAt 0)).homeOf 0)
     (v.lines.filter fun l => l.holds && bankOf l.pa = bankOf 0).length < 128) ∧
    (let l : HoldLine := { ctx := 0, pa := 0, wd := 8, ty := 15, sp := true }
     let s := (asking (loadAt 0)).modSlice ((asking (loadAt 0)).homeOf 0) fun v => { v with lines := [l] }
     (s.slice (s.homeOf 0)).line 0 0 8 = some l ∧ (s.slice (s.homeOf 0)).line 0 0 4 = none ∧ l.sp = true ∧ l.pois = false) ∧
    (∀ n < 17, ∀ ty < 2,
      let l : HoldLine := { ctx := 0, pa := 0, wd := 8, ty := BitVec.ofNat 4 (15 - ty), entries := (List.range n).map fun i => (i, i) }
      let s := (asking (loadAt 0)).modSlice ((asking (loadAt 0)).homeOf 0) fun v => { v with lines := [l] }
      (s.slice (s.homeOf 0)).line 0 0 8 = some l ∧ (s.slice (s.homeOf 0)).line 0 0 4 = none ∧ l.wd = 8 ∧ l.sp = false ∧
        l.pois = false ∧ l.entries.length = n ∧ (l.ty = 15 ↔ ty = 0)) := by
  simp only [Arrives]; decide +kernel

/-! ### Witnesses: rows, tiles, accumulators, queues -/

/-- A row instruction that waits for the vector unit. -/
def rowOp : RowOp := { kind := .arith 0, ty := 10, d := 7, a := 1, b := 2, row := 63 }
theorem witness_RowWords : Issues (.vadd false 0 1 2 31 0) (on task) ∧ Issues (.vqnt false 0 1 4 0 12) (on task) ∧
    (on task).me.tagFault [(1, [0], 0)] = none ∧ (on (task.setTile 1 { tag := 7 })).me.tagFault [(1, [0], 0)] = some 0x170 ∧
    8 ≤ (on { task with rowQ := List.replicate 8 rowOp }).me.rowQ.length ∧ ((on (task.setTile 1 { tag := 3 })).me.tile 1).tag ≠ 0 ∧
    (on task).me.tileHeld 0 = false := by simp only [Issues]; decide +kernel
theorem witness_RowUnit : (let s := on { task with rowQ := [rowOp] }
      (s.cluster 0).vecAt ≤ s.cycle ∧ s.nextVector 0 = some 0 ∧ (s.core 0).rowQ = [rowOp] ∧ (s.core 0).rowUpset = 0 ∧
        (s.core 0).softRows = [] ∧ (s.core 0).softSide = []) ∧
    (let o : RowOp := { rowOp with kind := .dq 1, ty := 3 }
     let k := { task with badSide := [rowKey o.a o.row * 8 + 1] }
     (∀ x ∈ o.reads, k.rowBad x = false) ∧ ∃ j ∈ o.readsSide, k.badSide.contains (rowKey o.a o.row * 8 + j) = true) ∧
    ((∀ x ∈ rowOp.reads, task.rowBad x = false) ∧ task.badSide = [] ∧ task.rowUpset = 0) ∧
    (7, 63, 0).1 * 64 + 63 ∈ [511] ∧ (on { task with badRows := [511 * 8 + 7] }).me.rowBad 511 = true ∧ 127 ∈ rowOp.reads ∧
    (let r : RowRun := { op := rowOp, rows := [(511, 5)] }
     ((on { task with rowRun := [r] }).core 0).rowRun = [r] ∧ r.due ≤ booted.cycle ∧ r.side = [] ∧ r.part = false ∧ r.spk = none ∧
       r.fail = none) ∧
    ({ op := rowOp, fail := some (false, 63) } : RowRun).fail = some (false, rowOp.row) ∧ rowOp.ty = 10 := by decide +kernel
/-- A spiking neuron of each kind by its refractory count, in row 63 of tile 2, and potentials in tile 7. -/
def neurons (t left : Nat) : Core := (task.setRow 7 63 (BitVec.ofNat 512 t)).setRow 2 63 (BitVec.ofNat 512 left)
theorem witness_RowValues : (fmtOf 0).isSome = true ∧ (fmtOf 1).isSome = true ∧ (10 : BitVec 4).toNat = 10 ∧
    (let o : RowOp := { rowOp with kind := .cvt 1 1, ty := 0 }
     0 < tyBytes o.ty.toNat ∧ 0 < tyBytes (1 : BitVec 4).toNat ∧
       1 < max (tyBytes 0) (tyBytes 1) / min (tyBytes 0) (tyBytes 1)) ∧
    (let o : RowOp := { rowOp with kind := .cvt 5 3, ty := 0 }
     3 < max (tyBytes 0) (tyBytes 5) / min (tyBytes 0) (tyBytes 5) ∧ o.kind = .cvt 5 3) ∧
    (({ rowOp with kind := .qnt 7, tag := 0 } : RowOp).tag = 0 ∧ 7 < 8) ∧
    (({ rowOp with kind := .qnt 3, tag := 4 } : RowOp).tag = 4 ∧ 3 < 4) ∧ ({ rowOp with kind := .red 0, ty := 0 } : RowOp).ty.toNat = 0 ∧
    (let o : RowOp := { rowOp with kind := .neur, ty := 0, np0 := 0x3F80000000000000, np2 := 0xFF800000 }
     let u := fun (k : Core) => (fmtD 0).minMax true ((fmtD 0).fma 0 (elem (k.row 7 63).toNat 4 0) (o.np0.fld 31 0)
       (elem (k.row 1 63).toNat 4 0)).1 ((fmtD 0).convert 0 ((fmtD 0).val (o.np2.fld 31 0))).1
     elem ((neurons 0 3).row 2 63).toNat 4 0 = 3 ∧ elem ((neurons 0 0).row 2 63).toNat 4 0 = 0 ∧
       ((fmtD 0).val (o.np0.fld 63 32)).isNan = false ∧ ((fmtD 0).val (u (neurons 0 0))).isNan = false ∧
       ((fmtD 0).val (u (neurons 0 0))).lt ((fmtD 0).val (o.np0.fld 63 32)) = true ∧
       ((fmtD 0).val (u (neurons 0 0))).lt ((fmtD 0).val 0) = false) := by decide +kernel
theorem witness_TileWords : Issues (.tldr false 1 31 2 1 0x1FF) (on task) ∧ Issues (.tst false 1 2 0) (on task) ∧
    (let P := (on task).planTile 1 0xFFC0 [63] false false
     P.bad = none ∧ P.s.me.tileHeld 1 = false ∧ P.s.me.touches (fun key => key = rowKey 1 63) = false ∧
       P.s.rowsWait P.rows 1 0 = false) ∧
    ((on task).planTile 1 0x20000 [63] false false).bad.isSome = true ∧
    (let P := (data task).planTile 1 0 [0] false true
     P.bad = none ∧ P.s.me.willWrite (fun key => key = rowKey 1 0) = false ∧ P.s.loading P.s.cur (rowKey 1 0) = false ∧
       P.s.me.rowBad (rowKey 1 0) = false ∧ P.rows.all (fun q => q.groups.isEmpty) = true ∧ P.s.rowsWait P.rows 0 1 = false) ∧
    { task with badRows := [64 * 8] }.rowBad (rowKey 1 0) = true := by simp only [Issues]; decide +kernel
theorem witness_AccumulatorWords : Issues (.mva false 3 1 3 0) (on task) ∧ Issues (.amv false 1 0 0 0) (on task) ∧
    ((on task).me.tile 1).tag = 0 ∧ ((on (task.setTile 1 { tag := 7 })).me.tile 1).tag ≠ 0 ∧
    (on task).me.willWrite (fun key => key / 64 = 1) = false ∧ (on task).loading 0 64 = false ∧
    (∀ r : BitVec 6, (on task).me.rowBad (rowKey 1 r) = false) ∧
    (on task).accBusy 0 (((on task).cluster 0).concerned 0 false) = none ∧
    (let s := (on task).modCluster 0 fun v => v.setDesc 0 { v := true, ocore := 1 }
     (s.accBusy 0 ((s.cluster 0).concerned 0 false)).isSome = true) ∧
    (((on task).modCluster 0 fun v => v.setDesc 0 { v := true, aty := 3 }).cluster 0).accDesc 0 =
      { v := true, ocore := 0, aty := 3 } ∧ Issues (.mrls false) (on task) ∧ ((on task).cluster 0).badAcc = [] ∧
    (on task).me.softRows = [] ∧ ((on task).cluster 0).softAcc = [] := by
  simp only [Issues]; decide +kernel
/-- A command of the running task in a queue. -/
def entry (cw : BitVec 256) : QEntry := { cw := cw, entered := true }
/-- A core with a full queue of bulk commands. -/
def queued (n : Nat) : Core := { task with qb := { entries := List.replicate n (entry 0x40) } }
theorem witness_QueueWords : Issues (.push false 2 28) (on task) ∧ 8 ≤ ((on (queued 8)).me.queue 2).used ∧
    ((on (queued 7)).me.queue 2).used < 8 ∧ (on task).me.acqHoldsPush 2 = false ∧
    (on { task with outs := [(0, { iaddr := 0, acq := 1 })] }).me.acqHoldsPush 2 = true ∧ Issues (.pushm false 1 2 7 0) (on task) ∧
    (match (on task).pieces 0 (List.range 8) with
      | (.ok l, u) => l.all fun p => !u.mustWait p 32 8 0
      | _ => false) = true ∧ ((on task).me.queue 1).used + 8 ≤ 16 ∧ Issues (.pop false 2 1) (on task) ∧
    ((on task).me.queue 2).fifo = [] ∧ ((on task).me.queue 2).entries = [] ∧
    (∃ e ∈ ((on (queued 1)).me.queue 2).entries, e.marker = false ∧ e.epoch = (on (queued 1)).me.epoch) ∧
    ((on (queued 1)).me.queue 2).fifo = [] ∧
    ((on { task with qb := { fifo := [1, 2] } }).me.queue 2).fifo = 1 :: [2] ∧ Issues (.qstat false 0 1) (on task) ∧
    ((on (holding (.push 0))).core 0).held.find 0 = some { what := .push 0, bound := 0 } ∧
    (∀ e ∈ ((on (holding (.push 0))).me.queue 0).entries, e.known = true) ∧
    free (.push 0) (holding (.push 0)) 0 = true ∧ ((on (holding (.push 0))).core 0).rowQ = [] ∧
    ((on (holding (.push 0))).core 0).rowRun = [] := by simp only [Issues]; decide +kernel

/-! ### Witnesses: commands -/

/-- A command at the head of a queue, its engine ready. -/
def headed (q : Nat) (cw : BitVec 256) : Core :=
  let Q : Queue := { entries := [{ entry cw with stage := if q = 0 then .granted else .armed }] }
  if q = 0 then { task with qm := Q } else if q = 1 then { task with qw := Q } else { task with qb := Q }
/-- That command. -/
def head (q : Nat) (cw : BitVec 256) : QEntry := { entry cw with stage := if q = 0 then .granted else .armed }
/-- A command word by its words 0 to 3. -/
def command (w0 w1 w2 w3 : Word) : BitVec 256 := w3 ++ w2 ++ w1 ++ w0
/-- A scratchpad side of four lines a row. -/
def side4 : Word := 0x400000000000
/-- A read and a write command of all 64 columns of f32, the transposition of one element. -/
def readOut : BitVec 256 := command 0x03 side4 0 0
def turn : BitVec 256 := command 0x405 side4 side4 0
/-- Whether a range of a bulk command is found without a fault. -/
def found (s : State) (e : QEntry) (writes : Bool) (ls : List (Nat × Nat × Nat)) (f : List BulkLine → State → Bool) : Bool :=
  match s.bulkXlate e 0 writes ls with
  | ((xs, none, false), u) => u.slwinNew = [] && u.soft = [] && f xs u
  | _ => false

theorem witness_MatrixAndBulkCommands_heads : AtHead (on (headed 0 0x01)) 0 0 0x01 (head 0 0x01) ∧
    AtHead (on (headed 0 0x9000000001)) 0 0 0x9000000001 (head 0 0x9000000001) ∧ AtHead (on (headed 0 readOut)) 0 0 readOut (head 0 readOut) ∧
    AtHead (on (headed 0 turn)) 0 0 turn (head 0 turn) ∧ AtHead (data (headed 2 0x40)) 0 2 0x40 (head 2 0x40) := by
  refine ⟨?_, ?_, ?_, ?_, ?_⟩ <;> simp only [AtHead] <;> decide +kernel
theorem witness_MatrixAndBulkCommands : (on (headed 0 0x01)).soft = [] ∧ ((on (headed 0 0x01)).cluster 0).softAcc = [] ∧
    ((on (headed 0 0x01)).core 0).softRows = [] ∧ ((on (headed 0 0x01)).core 0).softSide = [] ∧
    classNumber (cwFld 0x01 0 39 36) = some 5 ∧ classNumber (cwFld 0x01 0 35 32) = some 5 ∧ cwFld 0x01 0 29 28 = 0 ∧
    tagServes (task.tile (BitVec.ofNat 3 (cwFld 0x01 0 27 25))).tag (cwFld 0x01 0 39 36) = true ∧
    (task.tileOperand 0 0 64 16).bad = false ∧ (booted.cluster 0).badAcc = [] ∧ ((booted.cluster 0).accDesc 0).v = false ∧
    (arrayClass 6).aty = 2 ∧ classNumber (cwFld 0x1000000000 0 39 36) = some 6 ∧
    classNumber (cwFld 0x9000000001 0 39 36) = none ∧
    (match spadDesc (cwWord readOut 1) false with
      | some d => 64 * 4 ≤ 64 * d.rpitch && !(d.linesOf 64 256).any (fun p => spadSize < p.2.2 + 64) &&
          !booted.linesBad 0 256 (d.linesOf 64 256)
      | none => false) = true ∧
    (let C := ((on (headed 0 readOut)).modCluster 0 fun v => v.setDesc 0 { v := true }).cluster 0
     C.otherOwner 0 [0] = false ∧ (C.accDesc 0).v = true ∧ (C.accDesc 0).aty ≠ 3) ∧
    cwMask turn = true ∧
    (match spadDesc (cwWord turn 1) false, spadDesc (cwWord turn 2) false with
      | some d, some d2 => d.tpitch = 0 && d2.tpitch = 0 && 1 ≤ d.rpitch &&
          !(d.linesOf 1 4 ++ d2.linesOf 1 4).any (fun p => spadSize < p.2.2 + 64) && !booted.linesBad 0 4 (d.linesOf 1 4)
      | _, _ => false) = true ∧
    (data (headed 2 0x40)).bulkFree 0 = true ∧
    found (data (headed 2 0x40)) (head 2 0x40) false (linesFrom 4 0 16) (fun xs u => u.bulkPoison xs = none &&
      found u (head 2 0x40) true (linesFrom 4 0 16) (fun ys v => v.bulkPoison xs = none && v.bulkPoison ys = none)) = true ∧
    found (data (headed 2 0x40)) (head 2 0x40) true (linesFrom 4 0xFFC 1) (fun _ _ => true) = true ∧
    bulkFillTy 0 = true ∧ bulkAddTy 0 = true ∧ bulkAxpyTy 0 = true ∧ bulkFillTy 11 = false ∧ bulkAddTy 5 = false ∧ bulkAxpyTy 5 = false := by
  decide +kernel

/-- `data` with 64 bytes at the start of its page, and 64 after them. -/
def records (l g : Nat) (k : Core) : State :=
  { data k with mem := memWrite (memWrite (data k).mem 0x50000 l 64) 0x50040 g 64 }
/-- The layout record of one row of 16 f32 elements at 0x100, and a group record of the own cluster 0. -/
def flat : Nat := 0x100 + 16 * 2 ^ 64 + 15 * 2 ^ (192 + 51)
def alone : Nat := 2 ^ 62 + 0xFFFF + 2 ^ 64
/-- The layout record of one row of 32 elements of a block type, with a scaling record at 0x20000. -/
def blocks : Nat := 0x100 + 11 * 2 ^ 48 + 32 * 2 ^ 64 + 31 * 2 ^ (192 + 51) + 0x20000 * 2 ^ 448
/-- A walker command with one line a row, which names the records of `records`. -/
def walk (op : Word) : BitVec 256 := command op 0 0x100000200000 0
/-- The row of a tile. -/
def oneRow (cw : BitVec 256) (l : Layout) : List RowGeo := [(tileAt cw l true).row 0 false]
/-- What a walker reads at its handle. -/
def laid (s : State) (cw : BitVec 256) (e : QEntry) (f : Layout → State → Bool) : Bool :=
  match (s.modWalker 0 fun w => { w with last := 0 }).readRecord 0 e 0 with
  | (.ok r, u) => match layoutOf r with
    | some l => l.fits cw true && f l u
    | none => false
  | _ => false
/-- Whether rows are found and have no fault. -/
def rowsFound (u : State) (e : QEntry) (l : Layout) (a : Access) (g : List RowGeo) (f : List RowIo → State → Bool) : Bool :=
  match u.walkerRows 0 e l a g with
  | (.ok rows, v) => rowsFault l rows = none && v.slwinNew = [] && v.soft = [] && f rows v &&
      (match walkerDesc e.cw with
        | some d => !d.beyond l (List.range rows.length)
        | none => false)
  | _ => false
/-- Three pages: blocks, their scale groups, and a bank window with the scaling record. -/
def scaled (k : Core) : State :=
  let m := (records blocks alone k).mem
  let m := memWrite m 0x40008 (0x10000 + 23 * 2 ^ 48) 8
  let m := memWrite m 0x40010 0x601BF 8
  let m := memWrite m 0x40020 0x100000001BF 8
  { records blocks alone k with mem := m, slices := [(0, { win := 1 })] }

theorem witness_WalkerCommands : AtHead (on (headed 1 (walk 0x20))) 0 1 (walk 0x20) (head 1 (walk 0x20)) ∧
    (on (headed 1 (walk 0x20))).slotFree 0 = true ∧ (walkerDesc (walk 0x20)).isSome = true ∧
    (match (on (headed 1 0x20)).readRecord 0 (head 1 0x20) 0xFFFF with
      | (.error c, _) => c = 1
      | _ => false) = true ∧
    laid (records flat alone (headed 1 (walk 0x20))) (walk 0x20) (head 1 (walk 0x20)) (fun l u =>
      l.fits (walk 0x20) false && rowsFound u (head 1 (walk 0x20)) l .load (oneRow (walk 0x20) l) (fun rows v =>
        rows.length = 1 && !v.segBad (rows.headD { g := { jlo := 0, jhi := 0, va := 0 } }))) = true ∧
    laid (records flat alone (headed 1 (walk 0x21))) (walk 0x21) (head 1 (walk 0x21)) (fun l u =>
      rowsFound u (head 1 (walk 0x21)) l .store (oneRow (walk 0x21) l) (fun _ _ => true)) = true ∧
    laid (records flat alone (headed 1 (walk 0x25))) (walk 0x25) (head 1 (walk 0x25)) (fun l u =>
      match u.indexRows 0 (walk 0x25) l with
      | (.ok geos, y) => rowsFound y (head 1 (walk 0x25)) l .load geos (fun rows _ => rows.length = 1)
      | _ => false) = true ∧
    laid (records flat alone (headed 1 (walk 0x23))) (walk 0x23) (head 1 (walk 0x23)) (fun l u =>
      match u.readRecord 0 (head 1 (walk 0x23)) 1 with
      | (.ok gr, x) => match groupOf gr 0 with
        | some g => g.dests = [(0, 0)] && (x.ctx 0).hasCompute 0 && rowsFound x (head 1 (walk 0x23)) l .load (oneRow (walk 0x23) l)
            (fun rows v => rows.all (fun io => !v.segBad io) && cwFld (walk 0x23) 0 63 51 < 4096 && match v.cmdCounter 0 (head 1 (walk 0x23)) g.drh with
              | (.ok dr, _) => dr = none
              | _ => false)
        | none => false
      | _ => false) = true ∧
    (on (headed 1 0x28)).me.qw.entries.all (fun q => q.stage ≠ .running) = true ∧
    (match (records (flat + 15 * 2 ^ 48) alone (headed 1 (walk 0x20))).readRecord 0 (head 1 (walk 0x20)) 0 with
      | (.ok r, u) => (layoutOf r).isNone && (match u.readRecord 0 (head 1 (walk 0x20)) 1 with
        | (.ok g, _) => (groupOf g 0).isSome
        | _ => false)
      | _ => false) = true := by
  simp only [AtHead]; decide +kernel
/-- The command of `scaled`. -/
def scaling : BitVec 256 := command 0x22 0 0x200000000000 0
theorem witness_WalkerCommands_wstq : AtHead (scaled (headed 1 scaling)) 0 1 scaling (head 1 scaling) ∧
    laid (scaled (headed 1 scaling)) scaling (head 1 scaling) (fun l u =>
      match u.stqPlan 0 scaling (head 1 scaling) l with
      | (.ok (_, rows, sra), _) => rows.length = 1 && sra = 0x10000000000 && stqLegal scaling (some l) && (head 1 scaling).xd.isNone &&
          (walkerDesc scaling).isSome
      | _ => false) = true := by
  simp only [AtHead]; decide +kernel

/-! ### Witnesses: engines, messages, keys, timelines -/

/-- A core with one command in a queue. -/
def queue1 (q : Nat) (e : QEntry) : Core :=
  let Q : Queue := { entries := [e] }
  if q = 0 then { task with qm := Q } else if q = 1 then { task with qw := Q } else { task with qb := Q }
/-- A transfer of a byte into scratchpad 0. -/
def transfer (gen : BitVec 2) : Mcast := { dst := 0, core := 0, uid := 0, ctx := 0, row := 0, port := 0, pa := 0x20000000000, n := 1, v := 7, gid := 0, gen := gen }
/-- A command that runs. -/
def runs1 (cw : BitVec 256) (work : Nat) (drain : Option Nat) : QEntry :=
  { entry cw with stage := .running, openWork := work, drain := drain }

theorem witness_EngineSteps :
    (let e : QEntry := { entry 0x01 with stage := .hold }
     ((on (queue1 0 e)).me.queue 0).front = some e ∧ (on (queue1 0 e)).enginesGo e.ctx = true ∧ (on (queue1 0 e)).waitMet e = true) ∧
    (let e : QEntry := { entry 0x01 with stage := .hold, waitPa := some 0 }
     ({ on (queue1 0 e) with poison := [0] } : State).waitMet e = false) ∧
    ((on (queue1 1 (runs1 0x20 0 none))).me.queue 1).entries.find? (fun e =>
      e.ser = 0 && e.stage = .running && e.due ≤ 0 && e.openWork = 0 && !e.marker) = some (runs1 0x20 0 none) ∧
    (let s := on (headed 0 0x01)
     let s : State := { s with cores := [(0, queue1 0 { entry 0x01 with stage := .armed })] }
     (s.cluster 0).leaseAt ≤ s.cycle ∧ (s.cluster 0).lease = none ∧ (s.cluster 0).accBegun = 0 ∧
       ((List.range 4).map fun j => ((s.cluster 0).leaseLast + 1 + j) % 4).find? (fun i => s.qmReady (4 * 0 + i)) = some 0 ∧
       (s.core 0).qm.front = some { entry 0x01 with stage := .armed }) ∧
    (on (queue1 0 { marker := true })).me.qm.entries = { marker := true } :: [] ∧
    (let s (g : BitVec 2) : State := { on task with mcasts := [(7, transfer g)], walkers := [(0, { mcdrop := 1 })] }
     (∀ g, (s g).mcasts.find 7 = some (transfer g) ∧ (s g).fencedCluster (((transfer g).pa - 0x20000000000) / 0x80000) = none) ∧
       (transfer 0).gen = ((s 0).walker 0).accept.get 0 0 ∧ (transfer 1).gen - ((s 1).walker 0).accept.get 0 0 = 1 ∧
       (transfer 2).gen ≠ ((s 2).walker 0).accept.get 0 0 ∧ (transfer 2).gen - ((s 2).walker 0).accept.get 0 0 ≠ 1 ∧
       (((s 2).walker 0).mcdrop + 1) % 1024 ≠ 1) ∧
    ((on (queue1 1 (runs1 0x23 0 (some 0x50000)))).addCounter 0x50000 1).1 = true ∧
    ((on (queue1 1 (runs1 0x23 0 (some 0x50000)))).me.queue 1).entries.find? (fun e =>
      e.ser = 0 && e.stage = .running && e.openWork = 0 && e.drain.isSome && !e.marker) = some (runs1 0x23 0 (some 0x50000)) ∧
    (transfer 0).refused = false ∧ ({ transfer 0 with refused := true } : Mcast).refused = true ∧
    (transfer 0).grouped = true ∧ ({ transfer 0 with grouped := false } : Mcast).grouped = false ∧
    (on (queue1 1 (runs1 0x23 0 (some 0x50000)))).heldOff 0x50000 = false ∧
    (on (queue1 1 (runs1 0x20 0 none))).engineStopped 0 1 = false ∧
    (let old : MReq := { core := 0x900, seq := 0, kind := .engRead 0 1 3, pa := 0, bytes := 8, stage := 1, at_ := some 0 }
     let reqs : Map MReq := (List.range 4).map fun p => (p, { old with via := some p })
     ({ on (queue1 1 (runs1 0x20 0 none)) with reqs := reqs, cycle := 2048 } : State).engineStopped 0 1 = true) ∧
    (let e := { runs1 0x21 0 none with writes := [(0x50000, 1, 7)], slotWrites := [(0x50040, 2, 5)] }
     e.writeReqs 0 1 ≠ [] ∧ (runs1 0x20 0 none).writeReqs 0 1 = []) ∧
    (let r : MReq := { core := 0x900, seq := 0, kind := .engWrite 0 1 3 none, pa := 0, bytes := 8, stage := 2, status := 2 }
     ({ on task with reqs := [(7, r)] } : State).reqs.find 7 = some r ∧ 2 ≤ r.status.toNat) ∧
    (let e := { runs1 scaling 1 none with layout := BitVec.ofNat 512 blocks }
     let s := scaled (queue1 1 e)
     (s.core 0).qw.entries.find? (fun e => e.ser = 0 && e.stage = .running && e.openWork != 0 && e.xd.isNone && !e.marker) = some e ∧
     (match layoutOf e.layout with
        | some l => (match s.stqPlan 0 e.cw e l with
          | (.ok _, v) => v.slwinNew = [] && v.soft = []
          | _ => false)
        | none => false) = true) := by decide +kernel

/-- A task with its head 4 in s1, a target in s2 and the stamp 1 in s3. -/
def sender (target : Word) : Core := ((task.put 1 4).put 2 target).put 3 1
/-- The message of a send queue. -/
def queuedSend : SendEntry := { r := Vector.replicate 8 0, fk := 2, cl := 0, bound := 0 }
/-- An open channel of timeline 0. -/
def channel : OutSlot := { v := true, st := 2 }
theorem witness_MessageWords : Issues (.send false 1 2 3 1) (on (sender 0x10000)) ∧ recTrap 4 0 0 0 = none ∧
    sendBad 4 = false ∧ ((sender 0x10000).get 2).toNat / 2 ^ 16 = 1 ∧ (booted.ctx 0).hasCluster 0 = true ∧
    stampTest 0 0 0 1 = none ∧ 8 ≤ { sender 0x10000 with sendQ := List.replicate 8 queuedSend }.sendQ.length ∧ task.sendQ.length < 8 ∧
    recClass 0x30000000000004 = 3 ∧ { task with mode := .supervisor }.mode ≠ .task ∧ recTrap 0x30000000000004 0 0 0 = none ∧
    ((sender 127).get 2).toNat < 128 ∧ ({ task with tl := 0 } : Core).tl ≠ 0xFFFF ∧ (0 : BitVec 16).toNat % 1024 = (on task).myCluster ∧
    (((on task).modCluster 0 fun k => { k with outs := [(127, channel)] }).cluster 0).outs.get 127 {} = channel ∧
    stampTest channel.l 0 0 1 = none ∧ Issues (.post false 1 2 31) (on (sender 4096)) ∧ postBad true 4 = false ∧
    ((sender 4096).get 2).toNat / 1024 = 4 ∧ postBad false 4 = false ∧ ((sender 3).get 2).toNat < 4096 ∧
    (booted.ctx 0).hasCluster (3 / 4) = true ∧ Issues (.reply false 1 1) (on task) ∧ replyBad 4 = false ∧
    task.src ≠ 0xFFF ∧ ({ task with src := 0xFFF } : Core).src = 0xFFF ∧ Issues (.replyTo false 1 2 1) (on (sender 3)) ∧
    Issues (.nstat false 1 2 3) (on task) ∧ (task.get 2).toNat % 1024 = (on task).myCluster ∧
    (let k := { task with sendQ := [queuedSend] }
     k.sendQ = queuedSend :: [] ∧ queuedSend.free k = true ∧ (on k).mayInject 0 queuedSend = true ∧ queuedSend.host = false ∧
       queuedSend.err = false ∧ k.run ≠ .stopped) := by simp only [Issues]; decide +kernel

/-- A record put into cluster 0 by `tsub`. -/
def submitted : Item := { st := .submitting, mask := 15 }
/-- A query of core 0 under way. -/
def asks (a : Ask) (v : Option Word) : State :=
  { on waitingCore with queries := [{ core := 0, seq := 0, what := a, answer := v, d := 1, ctx := 0 }] }
/-- A task that holds the key 0xFFFE and names it in s2. -/
def keyed : Core := { (task.put 2 0xFFFE) with keyList := [0xFFFE], keys := 1 }
theorem witness_TaskAndKeyWords : (recKind (4 + 4 * 2 ^ 48) = 4 ∧ tsubBad (4 + 4 * 2 ^ 48) = false ∧
      ∀ j, j < 4 → (booted.ctx 0).hasCluster ((on task).myCluster / 4 * 4 + j) = true) ∧
    Issues (.tsub false 1 26 1) (on (sender 0)) ∧ recTrap 4 0 0 0 = none ∧ tsubBad 4 = false ∧
    recClass 4 ≠ 3 ∧ recKind 4 ≠ 4 ∧ 0 < (booted.cluster 0).freeSlots 0 ∧ booted.waitsInOverflow 0 0 = false ∧
    ({ booted.cluster 0 with inbox := (List.range 4096).map fun i => (i, {}) } : Cluster).freeSlots 0 = 0 ∧
    Issues (.krel false 2) (on keyed) ∧ keyed.keyAt ((keyed.get 2).setWidth 16) = some 0 ∧ (keyed.get 2).toNat < 65536 ∧
    keyed.gang = 0 ∧ 65536 ≤ ((task.put 2 65536).get 2).toNat ∧ task.keyAt 0 = none ∧ Issues (.kheld false 1 2) (on keyed) ∧
    65535 ≤ ((task.put 2 65535).get 2).toNat ∧ (keyed.get 2).toNat < 65535 ∧
    (holding (.submit 3)).held.find 0 = some { what := .submit 3, bound := 0 } ∧ free (.submit 3) (holding (.submit 3)) 0 = true ∧
    ((on task).setItem 0 3 submitted).item 0 3 = some submitted ∧
    (holding (.key 5)).held.find 0 = some { what := .key 5, bound := 0 } ∧ free (.key 5) (holding (.key 5)) 0 = true ∧
    (holding (.key 5)).entryCluster < 576 ∧
    ((asks (.kquery 5) none).query 0 0).isSome = true ∧ ((asks (.kquery 5) (some 2)).query 0 0).map (·.answer) = some (some 2) := by
  simp only [Issues]; decide +kernel

/-- A task of timeline 0 of cluster 0 with two operands. -/
def timed (a b : Word) : Core := { ((task.put 2 a).put 3 b) with tl := 0 }
/-- A cluster whose slots of one kind are all taken. -/
def full (f : Cluster → Cluster) : State := (on (timed 0 0)).modCluster 0 f
/-- An opening that asks timeline 0. -/
def opening (f : Cluster → Cluster) (adv : Word) : State := (asks (.chopen 5 0 0x100000000 adv) none).modCluster 0 f
theorem witness_TimelineWords : Issues (.tlnew false 1 2 3) (on (timed 0x4000 0xFFFFFFFFFFFC)) ∧
    ((timed 0x4000 0xFFFFFFFFFFFC).get 2).toNat < 65536 ∧ 0x4000 / 2 ^ 14 % 2 = 1 ∧ 0x4000 / 2 ^ 10 % 16 = 0 ∧
    ((timed 0 0xFFFFFFFFFFFC).get 3).toNat < 2 ^ 48 ∧ ((timed 0 0xFFFFFFFFFFFC).get 3).toNat % 4 = 0 ∧
    (booted.ctx 0).hasCluster 0 = true ∧ Issues (.tlfree false 2) (on (timed 0 0)) ∧ Issues (.promise false 2) (on (timed 0 0)) ∧
    task.tl = 0xFFFF ∧ (timed 0 0).tl ≠ 0xFFFF ∧ END * 65536 < ((timed 0xFFFFFFFFFFFFFFFF 0).get 2).toNat ∧
    ({ timed 0 0 with term := 1 } : Core).get 2 = 0 ∧ Issues (.chopen false 1 2 3) (on (timed 0x70000 0x100000000)) ∧
    ((timed 0x70000 0x100000000).get 2).toNat < 2 ^ 21 ∧ 0x70000 / 2 ^ 16 % 16 ≤ 7 ∧
    ((timed 0x70000 0x100000000).get 3).toNat / 2 ^ 32 ≠ 0 ∧ (booted.cluster 0).freeOut = some 0 ∧
    ((full fun k => { k with outs := (List.range 128).map fun i => (i, channel) }).cluster 0).freeOut = none ∧
    Issues (.chclose false 2) (on (timed 127 0)) ∧ ((timed 127 0).get 2).toNat < 128 ∧
    ((full fun k => { k with outs := [(127, channel)] }).cluster 0).outs.get 127 {} = channel ∧
    ((asks (.tlnew 0x4000 4) none).query 0 0).map (·.what) = some (.tlnew 0x4000 4) ∧
    ((full fun k => { k with tls := (List.range 16).map fun i => (i, { st := .run }) }).cluster 0).freeSlot = none ∧
    (booted.cluster 0).freeSlot = some 0 ∧ ((booted.cluster 0).tls.get 15 {}).st = .free ∧
    ((asks (.tlnew 0x4000 4) (some 0)).query 0 0).map (·.answer) = some (some 0) := by
  simp only [Issues]; decide +kernel
theorem witness_TimelineWords_chopen : ((booted.cluster 0).tls.get 0 {}).st = .free ∧
    (let s := opening (fun k => { k with tls := [(0, { st := .idle })] }) 0
     (s.query 0 0).map (·.answer) = some none ∧ ((s.cluster 0).tls.get 0 {}).st = .idle ∧ ((s.cluster 0).tls.get 0 {}).gen.toNat = 0 ∧
       (s.cluster 0).freeIn = some 0 ∧ (s.cluster 0).ins = [] ∧ ¬ (0 : Word).toNat < (s.floor 0 0).toNat) ∧
    (let s := opening (fun k => { k with tls := [(0, { st := .idle, intake := 0x10000 })] }) 0
     (0 : Word).toNat < (s.floor 0 0).toNat) ∧
    (let s := opening (fun k => { k with tls := [(0, { st := .idle })], ins := [(111, { v := true, st := 1 })] }) 0
     ∃ p ∈ (s.cluster 0).ins, p.1 < 112 ∧ p.2.v = true ∧ p.2.st = 1 ∧ p.2.tls = 0 ∧ p.2.rank = 0) ∧
    (let s := opening (fun k => { k with tls := [(0, { st := .idle })]
                                         ins := (List.range 112).map fun i => (i, { v := true, st := 1, rank := 1 }) }) 0
     (s.cluster 0).freeIn = none ∧ ∀ p ∈ (s.cluster 0).ins, p.2.rank ≠ 0) ∧
    (∀ code, code < 6 → ∀ g < 2,
      let s := { opening (fun k => { k with tls := [(0, { st := .run, gen := BitVec.ofNat 2 g })], outs := [(5, { v := true, st := 1 })] }) 0 with
        queries := [{ core := 0, seq := 0, what := .chopen 5 0 0x100000000 0, answer := some 5, code := code, d := 1, ctx := 0 }] }
      (s.query 0 0).map (fun q => (q.answer, q.code)) = some (some 5, code) ∧
        (((s.cluster 0).tls.get 0 {}).gen.toNat = (timed 0 0).tl.toNat / 16384 ↔ g = 0)) ∧
    (booted.fencedCluster 0 = none ∧ booted.fencedCluster 1 = none) ∧
    (let s : State := { booted with cnrect := [(3, 0x1000001)], cnctl := [(3, 1)] }
     s.fencedCluster 0 = none ∧ s.fencedCluster 48 = some 3) ∧
    ((0xFFFF : BitVec 16).toNat / 16384 ≠ ((booted.cluster 0).tls.get 15 {}).gen.toNat) ∧
    (∀ st, ((full fun k => { k with tls := [(0, { st := st })] }).cluster 0).tls.get 0 {} = { st := st }) := by
  repeat refine ⟨by decide +kernel, ?_⟩
  exact fun _ => rfl

/-! ### Witnesses: the network and the timelines -/

/-- The router of cluster 0. -/
def home : Nat := routerOfCluster 0
/-- A flit for cluster 0 at a port of its router. -/
def flit (fk : Nat) : Flit := { src := 5, dr := home, dp := 0, fk := fk, port := 1 }
/-- Cluster 0 changed, and its router. -/
def there (f : Cluster → Cluster) (r : Router) : State := { (on task).modCluster 0 f with routers := [(home, r)] }
/-- A router that holds one flit within a window of the throttle. -/
def holdsFlit (f : Flit) : Router := { flits := [f], winAt := 100 }
/-- A message open since cycle 0, and the same state 2,048 cycles later. -/
def sent : OpenSend := { src := 0, mtag := 3, core := some 0, out := none, seq := 0, at_ := some 0, ctx := 0 }
def aged (n : Nat) : State := { there (fun k => { k with openSends := [sent], stop := true }) {} with cycle := n }

theorem witness_NetworkSteps_injection :
    (let s := there (fun k => { k with inject := [flit 2] }) {}
     s.tooOld 0 = false ∧ s.fencedCluster 0 = none ∧ (s.cluster 0).inject = flit 2 :: [] ∧ (flit 2).due ≤ s.cycle ∧ s.windowOpen (flit 2) = true ∧ (s.cluster 0).injAt ≤ s.cycle ∧
       ∀ g ∈ (s.router home).flits, g.port ≠ 26 + 0 % 4) ∧
    (let s : State := { on task with slices := [(95, { inject := [flit 1] })] }
     (s.slice 95).inject = flit 1 :: [] ∧ (s.slice 95).injAt ≤ s.cycle ∧
       ∀ g ∈ (s.router (routerOfSlice 95)).flits, g.port ≠ 26 + 95 % 2) ∧
    (aged 2048).tooOld 0 = true ∧ ((aged 2048).cluster 0).stop = true ∧ ((aged 2048).cluster 0).injAt ≤ (aged 2048).cycle ∧
    (∀ g ∈ ((aged 2048).cluster 0).inject, g.fk < 6 ∨ 8 < g.fk) ∧
    ((aged 2048).cluster 0).openSends = [sent] ∧ sent.at_ = some 0 ∧ (aged 2047).cycle < 0 + 2048 ∧
    (∀ r ∈ (aged 2047).reqs, r.2.core / 4 ≠ 0) := by decide +kernel
theorem witness_NetworkSteps_arbitration :
    (let s := there id (holdsFlit { flit 2 with dr := home + 1 })
     (s.router home).flits = [{ flit 2 with dr := home + 1 }] ∧ s.cycle < (s.router home).winAt ∧ (flit 2).due ≤ s.cycle ∧
       (flit 2).port < 26 ∧ (flit 2).err = false ∧ (flit 2).soft = false ∧ computeOfRouter home = some 0 ∧ s.fenceOf 0 = none ∧
       ((s.modRouter home fun x => { x with flits := [] }).productive home { flit 2 with dr := home + 1 }).find? (fun p =>
         decide (p < 26) && s.linkOpen home (portDest home p)) = portTo home (home + 1)) ∧
    (let f := { flit 2 with dr := home + 96 }
     let s : State := { there id (holdsFlit f) with links := [((bridgeLink home (home + 96)).getD 0, { retrain := true })] }
     f.dr ≠ home ∧ (s.productive home f).find? (fun p => decide (p < 26) && s.linkOpen home (portDest home p)) = none ∧
       ((List.range 26).filter fun p => s.linkOpen home (portDest home p)).head? = some 0) ∧
    (let s : State := { asking { loadAt 0 with left := 1 } with routers := [(home, holdsFlit { flit 0 with req := some 7 })] }
     (s.router home).flits = [{ flit 0 with req := some 7 }] ∧ s.reqs.find 7 = some { loadAt 0 with left := 1, stage := 1 } ∧
       s.inOrder { loadAt 0 with left := 1, stage := 1 } = true ∧ (flit 0).abroad = none) ∧
    (answered { loadAt 0 with left := 1 }).reqs.find 7 = some { loadAt 0 with left := 1, stage := 2 } ∧
    computeOfRouter (routerOfSlice 0) = none ∧ ({ flit 9 with mseq := 63 } : Flit).mseq.toNat = 63 ∧
    ({ flit 9 with ev := some (.deskKrel 0 0 0 16 7) } : Flit).mseq.toNat < 12 ∧
    ((there id (holdsFlit (flit 2))).modCtx 0 fun c => { c with st := .frozen }).backFull 0 0 = true ∧
    (there id (holdsFlit (flit 8))).backFull 0 0 = false ∧ (there id (holdsFlit (flit 2))).backedFor 0 0 = none ∧ ((there id (holdsFlit (flit 2))).ctx 0).images.has 0 = false ∧
    0 < ((there id (holdsFlit (flit 2))).cluster 0).freeSlots 0 ∧ (there id (holdsFlit (flit 2))).waitsInOverflow 0 0 = false ∧
    (let m : Item := { src := 5, mask := 1 }
     let s := there (fun k => { k with inbox := [(9, m)] }) (holdsFlit { flit 2 with fi := 3 })
     (s.cluster 0).inbox.find? (fun p => decide (p.2.st = .filling) && decide (p.2.src = 5) && decide (p.2.mtag = 0) &&
       decide (p.2.cls = 0)) = some (9, m) ∧ m.mask.getLsbD 3 = false ∧ m.mask ||| 8 ≠ 15) := by decide +kernel
theorem witness_NetworkSteps_receipts :
    (let q : OutSlot := { v := true, st := 2, old := 0xFFFFFFFF }
     let o := { sent with out := some 127, seq := 0xFFFFFFFF }
     let s := there (fun k => { k with openSends := [o], outs := [(127, q)] }) {}
     (s.cluster (0 / 4)).openSends.find? (fun o => decide (o.src = 0) && decide (o.mtag = BitVec.ofNat 8 3)) = some o ∧ o.core = some 0 ∧
       (s.cluster (0 / 4)).outs.find 127 = some q ∧ q.acked = [] ∧ o.seq = q.old) ∧
    (asking (loadAt 0)).reqs.find 7 = some { loadAt 0 with stage := 1 } ∧ (loadAt 0).core = 0 ∧ (loadAt 0).posts = false ∧
    { loadAt 0 with kind := .rowStore }.posts = true ∧
    (let s : State := { on task with routers := [(0, { left := 8, deflected := 1 }), (1, { level := 3, left := 4 }), (2, { level := 1, left := 16, deflected := 1 })] }
     let thr := fun i => s.thr[i]?.getD 0
     (thr 0 * 8 ≤ 1 * 256 ∧ (s.router 0).level < 3) ∧ ((s.router 1).level = 3 ∧ 0 * 256 < thr 5 * 4) ∧
       (¬ thr 1 * 16 ≤ 1 * 256 ∧ ¬ 1 * 256 < thr 3 * 16)) ∧
    (let e : TEntry := { item := 9, ctx := 0 }
     ((there (fun k => { k with entries := [(47, e)] }) {}).cluster 0).entries.find 47 = some e) := by decide +kernel
/-- A diverted record, and a context with room for some. -/
def diverted : Item := { divert := true, st := .pending, mask := 15 }
def diverting (cap : Word) (ovf : List OvRec) (standing : Bool) : State :=
  (there (fun k => { k with inbox := [(9, diverted)] }) {}).modCtx 0 fun c => { c with oqcap := cap, ovf := ovf, ovfStanding := standing }
/-- A record in the overflow queue. -/
def spilled : OvRec := { pos := 0, cluster := 0, item := { mask := 15, st := .pending }, order := 0 }
theorem witness_NetworkSteps_overflow : ((diverting 0 [] true).cluster 0).ctx = some 0 ∧
    ((diverting 0 [] true).cluster 0).nextDivert = some (9, diverted) ∧
    ((diverting 0 [] true).ctx 0).oqcap.toNat ≤ ((diverting 0 [] true).ctx 0).ovf.length ∧
    ((diverting 0 [] true).ctx 0).ovfStanding = true ∧ ((diverting 0 [] false).ctx 0).ovfStanding = false ∧
    ((diverting 2 [spilled] false).ctx 0).ovf.length < ((diverting 2 [spilled] false).ctx 0).oqcap.toNat ∧ diverted.tl = none ∧
    Memory.wf (diverting 2 [spilled] false).mem = true ∧ diverted.err = false ∧ diverted.soft = false ∧
    ((there (fun k => { k with inbox := (List.range 4096).map fun i => (i, {}) }) {}).cluster 0).freeSlots (classOf .req) = 0 ∧
    0 < ((diverting 2 [spilled] false).cluster 0).freeSlots (classOf .req) ∧ (diverting 2 [spilled] false).backed 0 = none ∧
    (diverting 2 [spilled] false).toRecall 0 (classOf .req) = some spilled := by decide +kernel
theorem witness_NetworkSteps_links : (let L : Link := { winAt := 1, replays := 15 }
      ¬ (L.winAt = 0 ∨ L.winAt + 65536 ≤ 65536) ∧ 16 ≤ L.replays + 1 ∧ L.rate < 2 ∧ 2 ≤ ({ L with rate := 2 } : Link).rate) ∧
    (({} : Link).winAt = 0 ∧ 1 < 16) ∧
    ({ on task with links := [(575, { retrain := true, trainAt := 9 })] } : State).cycle < 9 ∧
    ({ on task with links := [(575, { retrain := true })] } : State).links.get 575 {} = { retrain := true } ∧
    ({ retrain := true } : Link).trainAt ≤ (on task).cycle := by decide +kernel

/-- A context that is frozen. -/
def frozen (s : State) : State := s.modCtx 0 fun c => { c with st := .frozen }
/-- A record of timeline 15 through in-slot 111, and one that is untimed. -/
def stamped : Item := { st := .pending, mask := 15, tl := some (15, 0), inSlot := 111, rank := 7, r := #v[4, 0x10000, 0, 0, 0, 0, 0, 0] }
def untimed : Item := { st := .pending, mask := 15, r := #v[4, 0, 0, 0, 0, 0, 0, 0] }
/-- Timeline 15 with its one channel at a horizon. -/
def waitsFor (h : Word) (t : Timeline) (n : Nat) : State :=
  let i : InSlot := { v := true, st := 1, tls := 15, rank := 7, h := h }
  let s := there (fun k => { k with tls := [(15, t)], inbox := [(9, stamped)], ins := [(111, i)] }) {}
  { s with cycle := n }
theorem witness_HorizonSteps_promises : (frozen (on task)).backed 0 = some 0 ∧ (on task).backed 0 = none ∧
    (({} : InSlot).v = false) ∧ countedUpTo (rebuild 0 0) 0 = true ∧ countedUpTo (rebuild 0 127) 0 = false ∧
    ({} : InSlot).pval = allOnes ∧ countedUpTo (rebuild 0 127) ({ pval := 5, pseq := 100 } : InSlot).pseq = false ∧
    ({ pval := 5, pseq := 100 } : InSlot).pval ≠ allOnes ∧ countedUpTo (rebuild 0 127) ({ pval := 5, pseq := 127 } : InSlot).pseq = true ∧
    (let s := there (fun k => { k with outs := [(127, { channel with st := 3 })] }) {}
     (s.cluster 0).outs.find 127 = some { channel with st := 3 } ∧ s.outQueued 0 127 = false) ∧
    (on { task with sendQ := [{ queuedSend with out := some 127 }] }).outQueued 0 127 = true ∧
    (let s := there (fun k => { k with outs := [(127, { channel with l := 1 })] }) {}
     tick channel.lastp + channel.q ≤ tick (advert (s.floor 0 0) 1)) ∧
    (let o := { channel with q := 2 ^ 32 - 1 }
     let s := there (fun k => { k with outs := [(127, o)] }) {}
     ¬ (tick o.lastp + o.q ≤ tick (advert (s.floor 0 0) 0) ∨ (o.askp = true ∧ o.lastp.toNat < (advert (s.floor 0 0) 0).toNat))) := by
  decide +kernel
theorem witness_HorizonSteps_transit :
    (let s := waitsFor 0 { st := .wait, blocked := some 0, who := some 9, intake := 0x10000 } 64
     let T := (s.cluster 0).tls.get 15 {}
     let i : InSlot := { v := true, st := 1, tls := 15, rank := 7, h := 0, since := some 0 }
     let s := s.modCluster 0 fun k => { k with ins := [(111, i)] }
     T.who = some 9 ∧ (s.cluster 0).candidate 15 = some (9, stamped) ∧ T.st = .wait ∧ max (0 + 64) 0 ≤ s.cycle ∧
       (s.cluster 0).ins = [(111, i)] ∧ passes (111, i) stamped = false ∧ s.asks 0 111 i = true ∧ i.asked = none) ∧
    (waitsFor 0 { st := .wait, blocked := some 0 } 63).cycle < max (0 + 64) 0 ∧ (waitsFor 0 {} 99).cycle < max (0 + 64) (0 + 256) ∧
    (let s := waitsFor 0x10000 { st := .wait } 0
     (s.cluster 0).candidate 15 = some (9, stamped) ∧ ((s.cluster 0).tls.get 15 {}).st = .wait ∧ stamped.divert = false ∧
       s.backed 0 = none ∧ stamped.r.stamp.toNat < ((s.cluster 0).tls.get 15 {}).ovmin.toNat ∧
       ∀ c ∈ (s.cluster 0).inSlots 15, passes c stamped = true) ∧
    ((waitsFor 0 { st := .idle } 0).cluster 0).candidate 15 = some (9, stamped) := by decide +kernel
theorem witness_HorizonSteps_events :
    (let s := waitsFor 0 {} 0
     s.backed 0 = none ∧ (s.cluster 0).ctx = some 0 ∧ ((s.cluster 0).ins.get 111 {}).v = true ∧ ((s.cluster 0).ins.get 111 {}).rank < 8 ∧
       (s.cluster 0).events < 256) ∧
    256 ≤ ((there (fun k => { k with inbox := (List.range 256).map fun i => (i, { ev := true }) }) {}).cluster 0).events ∧
    (let s := there (fun k => { k with inbox := [(9, untimed)] }) {}
     (s.cluster 0).inbox = [(9, untimed)] ∧ untimed.tl = none ∧ untimed.st = .pending ∧ untimed.divert = false ∧ s.tagFor 0 untimed = some 16) := by
  decide +kernel
/-- A token on its way. -/
def token (f : Ctx → Ctx) : State := inCtx f task
theorem witness_HorizonSteps_survey : ((on task).ctx 0).tokOn = false ∧ ((on task).ctx 0).st = .running ∧ (on task).tokenWanted 0 = false ∧
    (token fun c => { c with qreq := true }).tokenWanted 0 = true ∧
    ((token fun c => { c with qreq := true }).ctxs.filter fun p => p.2.tokOn).length < 16 ∧
    (let C (i : Nat) : Ctx := { st := .running, qreq := true, tokOn := i != 0 }
     let s : State := { on task with ctxs := (List.range 17).map fun i => (i, C i) }
     (s.ctx 0).tokOn = false ∧ s.tokenWanted 0 = true ∧ 16 ≤ (s.ctxs.filter fun p => p.2.tokOn).length) ∧
    (let X := (token fun c => { c with tokOn := true, tokPos := 190 }).ctx 0
     X.tokOn = true ∧ X.st = .running ∧ X.publishing = none ∧ X.tokPos < 191) ∧
    (let X := (frozen (token fun c => { c with tokOn := true })).ctx 0
     X.tokOn = true ∧ X.st ≠ .running) ∧
    (let s : State := { token (fun c => { c with tokOn := true }) with cycle := 65536 }
     (s.ctx 0).tokOn = true ∧ (s.ctx 0).tokStart + 65536 ≤ s.cycle ∧ (s.ctx 0).tokStalled = false) := by decide +kernel

/-! ### Witnesses: desks, dispatcher, barrier -/

/-- A key entry held by tag 16 of cluster 0, with others in its queue. -/
def heldKey (q : List (Nat × Nat)) : KeyEntry := { ctx := 0, key := 7, hcl := 0, htag := 16, queue := q }
/-- A slice with key entries. -/
def desk (l : List KeyEntry) : State := { on task with slices := [(0, { keys := l })] }
/-- A task entry and its record in cluster 0. -/
def entryOf (e : TEntry) (m : Item) : State := there (fun k => { k with entries := [(16, e)], inbox := [(9, m)] }) {}
/-- An entry that asks for the key 7, after it for the key 8. -/
def acquiring : TEntry := { item := 9, ctx := 0, keys := [7, 8], since := some 0 }
/-- An entry that waits for one counter, at address 0. -/
def conditioned : TEntry := { item := 9, ctx := 0, phase := .cond, since := some 0, poll := 1, watch := #v[some 0, none] }
/-- A record with one condition, COND 1, of the word at a target. -/
def oneCond (target : Word) : Item := { untimed with st := .entered, r := #v[4 + 2 ^ 59, 0, 0, 0, 0, 0, target, 0] }

theorem witness_DispatcherSteps_desks : ((on task).slice 0).keyEntry 0 7 = none ∧ ((on task).slice 0).keys.length < 4096 ∧
    (on task).mayStart 0 = true ∧ 4096 ≤ ((desk (List.replicate 4096 { heldKey [] with key := 8 })).slice 0).keys.length ∧
    ((desk (List.replicate 4096 { heldKey [] with key := 8 })).slice 0).keyEntry 0 7 = none ∧
    ((desk [heldKey []]).slice 0).keyEntry 0 7 = some (heldKey []) ∧ ((desk [heldKey []]).slice 0).holds < 512 ∧
    512 ≤ ((desk [heldKey (List.replicate 512 (1, 16))]).slice 0).holds ∧ (heldKey []).hcl ≠ 1 ∧ (heldKey []).htag = 16 ∧
    ((desk [heldKey [(1, 17)]]).slice 0).keyEntry 0 7 = some (heldKey [(1, 17)]) := by decide +kernel
theorem witness_DispatcherSteps_entries : ((entryOf acquiring untimed).cluster 0).entries.find 16 = some acquiring ∧
    ((on task).cluster 0).entries.find 16 = none ∧ (entryOf acquiring untimed).backed 0 = none ∧ acquiring.phase = .acq ∧
    ({ acquiring with retryAt := some 0 } : TEntry).retryAt = some 0 ∧ 0 ≤ (entryOf acquiring untimed).cycle ∧
    (entryOf acquiring untimed).cycle < 1 ∧ acquiring.retryAt = none ∧ acquiring.keys[acquiring.granted]? = some 7 ∧ acquiring.keys[acquiring.granted + 1]? = some 8 ∧
    ({ acquiring with granted := 1 } : TEntry).keys[1 + 1]? = none ∧ (entryOf acquiring untimed).item 0 9 = some untimed ∧
    recCond untimed.r[0] = 0 ∧ (conditioned.watch[0]?).getD none = some 0 ∧ ((entryOf conditioned (oneCond 0)).cluster 0).entries.find 16 = some conditioned ∧
    (entryOf conditioned (oneCond 0)).item 0 9 = some (oneCond 0) ∧ conditioned.met.getLsbD 0 = false ∧
    conditioned.poll.getLsbD 0 = true ∧ recCond (oneCond 0).r[0] = 1 ∧
    (let s := entryOf conditioned (oneCond 0)
     s.slwinNew = [] ∧ s.soft = [] ∧ s.backed 0 = none ∧ s.poisoned 0 8 = false ∧ condHolds (s.readMem 0 8) (BitVec.ofNat 32 ((recCondWord (oneCond 0).r 0).fld 47 16)) = true) ∧
    (let s : State := { entryOf conditioned (oneCond 0x10000) with poison := [0] }
     s.poisoned 0 8 = true ∧
       condHolds ((entryOf conditioned (oneCond 0x10000)).readMem 0 8) (BitVec.ofNat 32 ((recCondWord (oneCond 0x10000).r 0).fld 47 16)) = false) ∧
    ((entryOf conditioned (oneCond 0x10000)).slice ((on task).homeOf 0)).watches.length < 64 ∧
    (let w : Watch := { ctx := 0, handle := 0, pa := 0, target := 1, cluster := 1, tag := 16, cond := 0 }
     let s : State := { on task with slices := [((on task).homeOf 0, { watches := List.replicate 64 w })] }
     64 ≤ (s.slice (s.homeOf 0)).watches.length ∧ (s.slice (s.homeOf 0)).watches.any (fun q =>
       q.ctx = 0 && q.cluster = 0 && q.tag = 16 && q.cond = 0) = false ∧ (s.slice (s.homeOf 0)).watches.any (fun q =>
       q.ctx = 0 && q.cluster = 1 && q.tag = 16 && q.cond = 0) = true) ∧ ({ conditioned with poll := 0 } : TEntry).poll.getLsbD 0 = false ∧
    (2 ^ 20 - 1 < 0 + 2 ^ 20 ∧ acquiring.noted = false ∧ acquiring.since = some 0) := by decide +kernel
/-- A cluster with a READY task, its cores in some states. -/
def choosing (kind : Word) (cores : List (Nat × Core)) : State :=
  { entryOf { item := 9, ctx := 0, phase := .ready } { untimed with r := #v[4 + kind * 2 ^ 48, 0, 0, 0, 0, 0, 0, 0] } with cores := cores }
/-- The first task of a cluster and its free cores. -/
def chosen (s : State) (free : List Nat) : Bool :=
  s.mayStart 0 && (s.cluster 0).gang4.isNone && !(s.router home).quadHeld &&
  (s.readyTasks 0).all (fun p => p.2.2.core.isNone && !p.2.2.isBulk && p.2.1.defAt.isNone && !p.2.2.ev) &&
  (firstTask s.cycle (s.cluster 0).rr (s.readyTasks 0)).map Prod.fst = some 16 &&
  ((coresOf 0).filter fun c => (s.core c).run = .free) = free
theorem witness_DispatcherSteps_choice : chosen (choosing 0 [(0, task)]) [1, 2, 3] = true ∧ chosen (choosing 3 []) [0, 1, 2, 3] = true ∧
    chosen (choosing 3 [(0, task), (1, task), (2, task)]) [3] = true ∧ chosen (choosing 4 [(0, task)]) [1, 2, 3] = true ∧
    recKind (4 + 3 * 2 ^ 48) = 3 ∧ recKind (4 + 4 * 2 ^ 48) = 4 ∧ recKind 4 = 0 ∧
    (let e : TEntry := { item := 9, ctx := 0, phase := .quad }
     (entryOf e untimed).cluster 0 |>.entries.find 16) = some { item := 9, ctx := 0, phase := .quad } ∧
    ((entryOf acquiring untimed).router home).holds.contains (0, 16) = false ∧
    (let r : Router := { holds := [(0, 16)], quadHeld := true }
     let s : State := { there (fun k => { k with entries := [(16, acquiring)], inbox := [(9, untimed)] }) r with
       cores := (List.range 16).map fun i => (i, { run := .held }) }
     (s.router (routerOfCompute 0)).holds = (0, 16) :: [] ∧ (s.router (routerOfCompute 0)).quadHeld = true ∧
       (∀ i < 16, (s.core (0 * 16 + i)).run = .held) ∧ s.mayStart ((s.cluster 0).ctx.getD 0) = true ∧ s.item 0 acquiring.item = some untimed) := by
  decide +kernel

/-- A member of the gang of four of cluster 0, member 3. -/
def member : Core := { task with gang := 0x13 }
/-- The gang's barrier entry. -/
def gangOf (b : Barrier) (k : Core) : State := (on k).modCluster 0 fun v => { v with barrier := b }
theorem witness_DispatcherSteps_words : Issues (.bara false 31) (on member) ∧ task.gang = 0 ∧ member.gang ≠ 0 ∧ member.pend < 2 ∧
    2 ≤ ({ member with pend := 2 } : Core).pend ∧ Issues (.barw false) (on task) ∧ IssuesDrained (.barw false) (on member) ∧
    ({ member with pend := 1 } : Core).pend ≠ 0 ∧ Issues (.bar false 1) (on task) ∧ IssuesDrained (.bar false 1) (on member) ∧
    member.arrived ≠ some member.pc ∧ IssuesDrained (.bar false 1) (on { member with arrived := some member.pc }) ∧
    IssuesDrained (.bar false 1) (on { member with arrived := some member.pc, pend := 1 }) := by simp only [IssuesDrained, Issues]; decide +kernel
theorem witness_DispatcherSteps_unit : (holding .arrival).held.find 0 = some { what := .arrival, bound := 0 } ∧
    free .arrival (holding .arrival) 0 = true ∧ (∀ p ∈ (holding .arrival).held, p.1 < 0 → p.2.what ≠ .arrival) ∧ memberBit member.gang = 8 ∧
    (let b : Barrier := { v := true, arr := 3, exit := 0 }
     (gangOf b member).barrierOf member.gang = b ∧ b.arr &&& 8 = 0 ∧ b.arr ||| 8 ||| b.exit ≠ b.full) ∧
    (let b : Barrier := { v := true, arr := 7, exit := 0 }
     b.arr &&& 8 = 0 ∧ b.arr ||| 8 ||| b.exit = b.full ∧ b.exit ≠ b.full ∧ b.nxt = 0) ∧
    (let b : Barrier := { v := true, arr := 8, exit := 0 }
     b.arr &&& 8 ≠ 0 ∧ b.arr ||| b.exit ≠ b.full ∧ b.exit ||| 8 ≠ b.full ∧ b.arr ||| (b.exit ||| 8) ≠ b.full) ∧
    ({ member with arrivals := [0x13] } : Core).arrivals = member.gang :: [] ∧ member.run ≠ .exiting ∧
    member.arrivals = [] ∧ ({} : Barrier).v = false ∧
    (let u := (gangOf {} member).modCore 0 fun q => { q with arrivals := [] }
     (7 : BitVec 16).getLsbD 0 = true ∧ (u.core 0).gang.toNat / 16 = member.gang.toNat / 16) ∧
    (let b : Barrier := { v := true, exit := 7 }
     b.exit ||| 8 = b.full) ∧ ({ member with run := .exiting } : Core).run = .exiting ∧ member.tl = 0xFFFF ∧
    ({ member with run := .parked 4 } : Core).pend = 0 := by decide +kernel

/-! ### Witnesses: device registers, outside links, freezing -/

/-- A device that is ready, its context 0 bound to function 383, with a route of that function to in-slot 111. -/
def bound : State := { on task with devReady := true, vfs := [(383, { bind := 0x100 })],
                                    routes := [(383 * 1024 + 1023, { w := 2 ^ 18 + 111 * 2 ^ 10 })] }
/-- The fields of a route that matter to its writes. -/
def windowOf (s : State) (f : Nat → Route → Bool) : Bool :=
  match s.window 383 1023 1 with
  | some (x, e) => f x e
  | none => false
theorem witness_RegisterAndHostSteps_registers : ({ on task with slsel := 95 } : State).slsel < 96 ∧
    96 ≤ ({ on task with slsel := 96 } : State).slsel ∧ (3 : Word).toNat < 4 ∧
    ({ on task with slwinNew := [(95, 3)] } : State).slwinNew.find 95 = some (3 : BitVec 2).toNat ∧
    2 ≤ ((List.range 4).filter fun i => (3 : Word).getLsbD i).length ∧ (on task).columnsMayMove = false ∧
    State.reset.columnsMayMove = true ∧ ((List.range 4).filter fun i => (8 : Word).getLsbD i).length < 2 ∧
    ({ on task with slcolsNew := some 3 } : State).slcolsNew = some 3 ∧ bankRegion 0 false = true ∧ region 0 = .hbm ∧
    region 0x10000000000 = .window 0 0 ∧ (on task).homeOf 0x10000400000 = 1 ∧ (on task).homeOf 0x10000000000 = 0 ∧
    ({ on task with soft := [0] } : State).soft = [0 / 8] ∧ (0x1FF : Word).getLsbD 8 = true ∧ bound.boundFns.length < 144 ∧
    rectHas 0x1000000 (15 / 16) = true ∧ (1 : Word).getLsbD 0 = true ∧ (0xFFFFC : Word).toNat < 2 ^ 20 ∧
    (0xFFFFC : Word).toNat % 4 ≠ 3 ∧ ({ on task with lnksel := 599 } : State).lnksel < 600 ∧
    (({ on task with cnctl := [(31, 1)], cnsel := 31 } : State).cnctl.get 31 0).getLsbD 0 = true ∧
    (on task).rectOk 31 0x200000000000000 = false ∧ (on task).rectOk 31 0x1000000 = true ∧ ((on task).cnctl.get 31 0).getLsbD 0 = false ∧
    ({ on task with cnctl := [(31, 1)] } : State).cnctl.get 31 0 = 1 ∧ ({ on task with cnctl := [(31, 5)] } : State).cnctl.get 31 0 = 5 ∧ ({ on task with cnctl := [(31, 3)] } : State).cnctl.get 31 0 = 3 ∧
    (let s : State := { on task with cnctl := [(31, 3)], cnrect := [(31, 0x1000000)] }
     s.cnapplied.contains 31 = false ∧ s.rectDrained (s.cnrect.get 31 0) = true ∧
       { s with cnapplied := [31] }.cnapplied.contains 31 = true ∧
       (s.modRouter home fun r => { r with flits := [flit 2] }).rectDrained (s.cnrect.get 31 0) = false) ∧
    (256 : Word).toNat ≤ 256 ∧ 0x20 ∉ [0x08, 0x10, 0x18] ∧ (bound.vf 383).bind.getLsbD 8 = true ∧ ((on task).vf 383).bind.getLsbD 8 = false ∧
    (on task).boundTo 383 = none ∧ (bound.boundTo 383).isSome = true ∧ (on task).devReady = false ∧ bound.devReady = true ∧
    ((on task).ctx 0).st ≠ .empty ∧ ((on task).ctx 0).oqcap.toNat ≤ (0 : Word).toNat := by decide +kernel
theorem witness_RegisterAndHostSteps_posts : (on task).devReady = false ∧ bound.devReady = true ∧ bound.window 383 1022 1 = none ∧
    windowOf bound (fun x e => x = 0 && !e.untimed && e.slot = 111) = true ∧
    windowOf { bound with routes := [(383 * 1024 + 1023, { w := 2 ^ 18 + 2 ^ 17 })] } (fun _ e => e.untimed) = true ∧
    [4, 0, 0, 0, 0, 0, 0, (0 : Word)].length = 8 ∧ (4 : Word) ≠ allOnes ∧ recCheck 4 0 0 0 = .ok ∧ recClass 4 = 0 ∧
    (let s := bound.modCluster 0 fun k => { k with ins := [(111, { h := 0x10000, v := true, st := 1 })] }
     (0xFFFF : Word).toNat < ((s.clusterOf 0 0).ins.get 111 {}).h.toNat ∧
       ((s.clusterOf 0 0).ins.get 111 {}).h.toNat ≤ (0x10000 : Word).toNat) ∧
    (∀ ut < 2, let e : Route := { w := BitVec.ofNat 64 (2 ^ 18 + 111 * 2 ^ 10 + ut * 2 ^ 17), h := 0x10000 }
      let s : State := { bound with routes := [(384 * 1024 + 1023, e)] }
      s.window 384 1023 1 = some (0xFF, e) ∧ (e.untimed = true ↔ ut = 1)) ∧
    recCheck 0x30000000000004 0 0 0 = .ok ∧ recClass 0x30000000000004 = 3 ∧ (0xFFFF : Word).toNat < (0x10000 : Word).toNat := by decide +kernel
/-- A core whose head message the host takes, and a reply ring. -/
def replying : SendEntry := { queuedSend with host := true }
def ringed (cap tail : Word) : State :=
  { bound with cores := [(0, { task with sendQ := [replying] })], vfs := [(383, { bind := 0x100, rrcap := cap, rrtail := tail })] }
/-- A reduction window of one line with two devices. -/
def twoDevices : Window := { desc := [0, 2 ^ 40 + 2 * 2 ^ 26, 2 ^ 63, 1, 0, 0, 0, 0] }
theorem witness_RegisterAndHostSteps_outside :
    (let s := ringed 65535 65535
     (s.core 0).sendQ = replying :: [] ∧ replying.host = true ∧ replying.err = false ∧ replying.free (s.core 0) = true ∧ replying.soft = false ∧ Memory.wf s.mem = true ∧ (s.core 0).run ≠ .stopped ∧
       s.fnOf (s.core 0).ctx = some 383 ∧ (s.vf 383).rrcap ≠ 0 ∧ (s.vf 383).rrtail - (s.vf 383).rrhead = (s.vf 383).rrcap) ∧
    ((ringed 65535 65534).vf 383).rrtail - ((ringed 65535 65534).vf 383).rrhead ≠ ((ringed 65535 65534).vf 383).rrcap ∧
    ((ringed 0 0).vf 383).rrcap = 0 ∧
    (let s := token fun c => { c with save := 0x61000 }
     (s.ctx 0).st ≠ .empty ∧ 4096 ≤ (s.ctx 0).save.toNat ∧ s.deviceRead 0x60000 16 = s ∧ s.readMem 0x60000 8 = s.readMem 0x60008 8) ∧
    (let s := token fun c => { c with save := 0x61000 }
     let s : State := { s with mem := memWrite s.mem 0x60000 1 8 }
     s.readMem 0x60000 8 ≠ s.readMem 0x60008 8 ∧ s.deviceRead 0x60040 64 = s ∧ s.readMem (0x60000 + 64 + 64 * (0 % 63)) 1 ≠ 1 ∧
       s.readMem (0x60000 + 64 + 64 * (0 % 63)) 1 ≠ 2 ∧
       ∀ code < 3, { s with mem := memWrite s.mem 0x60040 code 1 }.readMem (0x60000 + 64 + 64 * (0 % 63)) 1 = code) ∧
    (let ws := [2 ^ 64 - 1, 1, 2, 3, 4, 5, 6]
     ws.length = 7 ∧ ∀ n ∈ ws, n < 2 ^ 64) ∧
    (∀ st < 3, let s : State := { on task with links := [(599, { retrain := st == 1, down := st == 2, trainAt := 5 })] }
      ((s.portLink 23).retrain = true ↔ st = 1) ∧ ((s.portLink 23).down = true ↔ st = 2)) ∧ (on task).abroad = [] ∧
    twoDevices.valid = true ∧ ({ twoDevices with desc := [] } : Window).valid = false ∧
    ({ on task with windows := [(63, twoDevices)] } : State).windows.find 63 = some twoDevices ∧ twoDevices.size ≤ 64 ∧
    60 < twoDevices.size ∧ twoDevices.names 63 = true ∧ twoDevices.names 62 = false ∧ (2 : BitVec 2) ≠ twoDevices.gen ∧
    (2 : BitVec 2) - twoDevices.gen ≠ 1 ∧ 60 % twoDevices.elem = 0 ∧ 4 = twoDevices.elem ∧ twoDevices.done.contains 60 = false ∧
    twoDevices.got = [] ∧ 2 ≤ twoDevices.devices.length ∧ (∀ p ∈ (on task).slices, p.2.win = 0) := by decide +kernel

/-- A context of one compute router. -/
def launch : Launch :=
  { row := 11, col := 11, height := 1, width := 1, ptroot := 0, ctrb := 0, catbase := 0, tvec := 0, suph := 0, supcl := 0, lopen := 0
    oqbase := 0, oqcap := 0, dlbase := 0, dlcap := 0, save := 0, bkcap := 0, image := [], timelines := [], channels := [] }
/-- A core in firmware mode, context 0 in a state. -/
def firmware (st : CtxState) : State := inCtx (fun c => { c with st := st, graceEnd := 5 }) { task with mode := .firmware }
theorem witness_ContextWords_ctxc : ((0xFF00 : Word) &&& 0xFFFFFFFFFFFF00FF = 0 ∧ (0xFF00 : Word).toNat / 256 % 256 = 255) ∧
    ((0 : Word) &&& 0xFFFFFFFFFFFF00FF = 0) ∧ Issues (.ctxcFrz false 1 2) (firmware .running) ∧ ((firmware .running).ctx 0).st = .running ∧
    ((firmware .freezing).ctx 0).st = .freezing ∧ ((firmware .frozen).ctx 0).st = .frozen ∧ ((firmware .thawing).ctx 0).st = .thawing ∧
    ((firmware .empty).ctx 0).st = .empty ∧ Issues (.ctxcThaw false 1 2) (firmware .frozen) ∧ Issues (.ctxcTear false 1 2) (firmware .frozen) := by
  simp only [Issues]; decide +kernel
theorem witness_FreezeSteps : ((firmware .freezing).ctx 0).st = .freezing ∧ ((firmware .thawing).ctx 0).st = .thawing ∧
    ((firmware .frozen).ctx 0).st ≠ .freezing ∧ ((firmware .frozen).ctx 0).st ≠ .thawing ∧ (firmware .freezing).cycle < ((firmware .freezing).ctx 0).graceEnd ∧ (firmware .freezing).resting 0 = false ∧
    (let s : State := { firmware .freezing with cycle := 5 }
     (s.ctx 0).graceEnd ≤ s.cycle ∧ (∀ i ∈ (s.ctx 0).coreList, (s.core i).deferred = [])) ∧
    (inCtx (fun c => { c with st := .freezing }) { task with run := .stopped }).resting 0 = true ∧
    (let s := firmware .thawing
     s.lodgers 0 = [] ∧ (s.ctx 0).images = [] ∧ memRead s.mem ((s.ctx 0).save.toNat + 24) 8 = 0 ∧ (s.ctx 0).ckpt = none) ∧
    (let s := (firmware .thawing).modCluster 0 fun k => { k with ctx := some 1 }
     let s := s.modCtx 1 fun c => { c with st := .running }
     ((s.lodgers 0).any fun y => (s.ctx y).st != .frozen) = true) ∧
    (on task).mayCreate 1 launch = true ∧ (on task).mayCreate 0 launch = false ∧ (∀ p ∈ (on task).ctxs, p.2.ckpt = none) ∧
    Memory.wf (on task).mem = true ∧
    (let l := { launch with image := [(0x60000, 1), (0x60000, 2)] }
     l.image = [(0x60000, 1)] ++ (0x60000, 2) :: [] ∧ ∀ p ∈ ([] : List (Nat × BitVec 8)), p.1 ≠ 0x60000) := by decide +kernel
/-- A core that declares a checkpoint at tick 1 with the descriptor at the start of its page. -/
def declares (n : Nat) : State := records n (2 ^ 64) { sup with regs := ((sup.put 1 1).put 2 0).regs }
/-- What is read of the descriptor. -/
def declaredAs (s : State) (f : List Word → State → Bool) : Bool :=
  match s.descWords 0 2 with
  | (.ok ws, z) => f ws z
  | _ => false
/-- A checkpoint of one page. -/
def onePage : CkPage := { va := 0, pa := 0x50000, leaf := 0x40000 }
def taking (f : Ckpt → Ckpt) : State :=
  { token (fun c => { c with ckpt := some (f { t := 0, number := 1, pages := [onePage], arch := [0x60000, 0x70000], acap := 1, shadow := [] }) }) with
    mem := (data task).mem }
theorem witness_ContextWords_ckpt : Issues (.ckpt false 3 1 2) (declares 1) ∧
    2 ^ 48 ≤ ((task.put 1 0x1000000000000).get 1).toNat ∧ ((declares 1).me.get 1).toNat < 2 ^ 48 ∧ eaBad ((declares 1).me.get 2) 64 = none ∧
    (match (declares 1).descWords 0 1 with
      | (.ok h, u) => (h.getD 0 0).fld 15 0 = 1 && (u.ctx 0).ckpt.isNone && tick ((u.router (routerOfSrc 0)).surv.get 0 {}).mer < 1
      | _ => false) = true ∧
    (match (declares 1025).descWords 0 1 with
      | (.ok h, _) => 1024 < (h.getD 0 0).fld 15 0
      | _ => false) = true ∧
    declaredAs (declares 1) (fun ws z => (z.declared 0 1 ws).isSome &&
      z.plainPages 0 ((ws.getD 1 0).fld 47 0) ((ws.getD 2 0).fld 12 0 + 1) = some [0x50000] &&
      z.plainPages 0 ((ws.getD 3 0).fld 47 0) ((ws.getD 4 0).fld 31 0) = some []) = true ∧
    declaredAs (declares (1 + 0x30000 * 2 ^ 64)) (fun ws z =>
      (z.plainPages 0 ((ws.getD 1 0).fld 47 0) ((ws.getD 2 0).fld 12 0 + 1)).isNone) = true := by simp only [Issues]; decide +kernel
theorem witness_CheckpointSteps :
    (match (taking id).ctx 0 |>.ckpt with
      | some K => K.archived.contains 0 = false && K.preserved.isEmpty && K.pages[0]? = some onePage && K.shadow.isEmpty && !K.started &&
          decide (K.t * 65536 ≤ ((taking id).ctx 0).mer.toNat)
      | none => false) = true ∧ ((taking id).ctx 0).st = .running ∧ (taking id).deviceRead onePage.leaf 8 = taking id ∧
    memRead (taking id).mem onePage.leaf 8 / 256 % 2 = 1 ∧
    (let K : Ckpt := { t := 1, number := 1, pages := [onePage], arch := [], acap := 0, shadow := [0x80000], archived := [0], started := true, next := 1 }
     (((taking fun _ => K).ctx 0).mer.toNat < K.t * 65536) ∧ K.shadow = 0x80000 :: [] ∧ K.archived.contains 0 = true ∧
       K.pages[K.next]? = none ∧ K.pages.length ≤ K.next ∧ K.acap ≤ K.count) ∧
    (let K : Ckpt := { t := 0, number := 1, pages := [onePage], arch := [], acap := 1, shadow := [], preserved := [(0, 0x80000)], started := true }
     K.pages[0]? = some onePage ∧ K.preserved = [(0, 0x80000)] ∧ K.count < K.acap) := by decide +kernel

/-! ### Single steps, with results worked out by hand from the rules -/

/-- A register after a word. -/
def after (i : Instr) (s : State) (f : State → Bool) : Bool :=
  match exec i s with
  | .next t => f t
  | _ => false
/-- A task with two operands in s2 and s3. -/
def two (a b : Word) : State := on ((task.put 2 a).put 3 b)

/-- R92: the low 64 bits of a sum. -/
theorem test_add_wraps : after (.add false 2 2 3) (two 0xFFFFFFFFFFFFFFFF 2) (fun t => t.me.get 2 = 1 && t.me.pc = 4) = true := by
  decide +kernel
/-- R29: s0 discards a write. -/
theorem test_zero_register : after (.add false 0 2 3) (two 1 2) (fun t => t.me.get 0 = 0) = true := by decide +kernel
/-- R82, R92: the most negative number divided by -1, and a division by 0. -/
theorem test_div_corners : after (.div false 1 2 3) (two 0x8000000000000000 0xFFFFFFFFFFFFFFFF) (fun t => t.me.get 1 = 0x8000000000000000) = true ∧
    after (.div false 1 2 3) (two 5 0) (fun t => t.me.get 1 = 0xFFFFFFFFFFFFFFFF) = true := by decide +kernel
/-- R92: the high half of a signed product. -/
theorem test_mulh : after (.mulh false 1 2 3) (two 0xFFFFFFFFFFFFFFFF 2) (fun t => t.me.get 1 = 0xFFFFFFFFFFFFFFFF) = true := by decide +kernel
/-- R74: 1.5 + 2.25 is 3.75 in f64, type code 1. -/
theorem test_fadd : after (.fadd false 1 2 3 1) (two 0x3FF8000000000000 0x4002000000000000) (fun t => t.me.get 1 = 0x400E000000000000) = true := by
  decide +kernel
/-- R93: `sel` with c = s0 takes s[b]. -/
theorem test_sel : after (.sel false 1 2 3 0) (two 5 6) (fun t => t.me.get 1 = 6) = true := by decide +kernel
/-- R92: a shift count of 64 is a count of 0, and `sra` copies the sign. -/
theorem test_shifts : after (.sll false 1 2 3) (two 3 64) (fun t => t.me.get 1 = 3) = true ∧
    after (.sra false 1 2 3) (two 0x8000000000000000 63) (fun t => t.me.get 1 = 0xFFFFFFFFFFFFFFFF) = true := by decide +kernel
/-- The worked conversions of f32 to e4m3 under RNE, RTZ and RNE.s (R79 and the table after R81). -/
theorem test_convert_e4m3 : tyConvert 5 false 0 (tyVal 0 false 0x43E60000) = (0x7E, fNX) ∧
    tyConvert 5 false 0 (tyVal 0 false 0x43EB0000) = (0x7E, fOF ||| fNX) ∧ tyConvert 5 false 0 (tyVal 0 false 0xFF800000) = (0xFE, fOF) ∧
    tyConvert 5 false 0 (tyVal 0 false 0x80000000) = (0x80, 0) ∧ tyConvert 5 false 0 (tyVal 0 false 0x3A800000) = (0, fUF ||| fNX) ∧
    tyConvert 5 false 0 (tyVal 0 false 0xFFC00000) = (0xFF, 0) ∧ tyConvert 5 false 1 (tyVal 0 false 0x43EB0000) = (0x7E, fNX) ∧
    tyConvert 5 false 4 (tyVal 0 false 0x43EB0000) = (0x7E, fSAT ||| fNX) := by decide +kernel
/-- The worked block under the OCP rule: 5.0, -1.5, 0.25 and -0.0 under the scale word 0x5FC00 (R69, R71). -/
theorem test_quantise_ocp : scaleOcp 1 { neg := false, m := 5, e := 0 } = 0x5FC00 ∧
    quantise 0 0x5FC00 (tyVal 0 false 0x40A00000) = (6, fNX) ∧
    quantise 0 0x5FC00 (tyVal 0 false 0xBFC00000) = (0xB, 0) ∧
    quantise 0 0x5FC00 (tyVal 0 false 0x3E800000) = (0, fUF ||| fNX) ∧
    quantise 0 0x5FC00 (tyVal 0 false 0x80000000) = (8, 0) := by decide +kernel
/-- The worked block under delayed scaling: the ring maximum 10.0, the elements 10.0 and 12.0 (R70). -/
theorem test_quantise_delayed : scaleDelayed 1 (tyVal 0 false 0x41200000) = 0x5FEAB ∧
    quantise 0 0x5FEAB (tyVal 0 false 0x41200000) = (7, fNX) ∧
    quantise 0 0x5FEAB (tyVal 0 false 0x41400000) = (7, fOF ||| fNX) := by decide +kernel
/-- The worked row of R298: 2^24 and fifteen ones, summed by the tree and by the scan. -/
theorem test_tree_and_scan : treeOf (lane 0 0 0 4 · · 0) 6 (0x4B800000 :: List.replicate 15 0x3F800000) 0 = (0x4B800007, fNX) ∧
    (let r := scanOf (lane 0 0 0 4 · · 0) (0x4B800000 :: List.replicate 15 0x3F800000)
     r.1.take 4 = [0x4B800000, 0x4B800000, 0x4B800001, 0x4B800001] ∧ r.1.drop 14 = [0x4B800007, 0x4B800007] ∧ r.2 = fNX) := by
  decide +kernel

/-- R163: a walker's write leaves at completion as its request to the line's home, five flits as a row store has (R146, log 35); the command waits
for the answer. -/
theorem test_engine_write_leaves :
    after (.engineCommandComplete 0 1 0) { on (queue1 1 { runs1 0x21 0 none with writes := [(0x50000, 1, 7)] }) with nextId := 7 } (fun t =>
      (match t.reqs.find 7 with
        | some r => r.kind = .engWrite 0 1 0 none && r.core = 0x900 && r.pa = 0x50000 && r.stage = 1
        | none => false) && (t.walker 0).inject.length = 5 &&
      (t.me.queue 1).entries.all fun e => e.stage = .running && e.openWork = 1 && e.writes.isEmpty) = true := by decide +kernel
/-- R427: the answer of status 3 ends the command with CODE ACCESS. -/
theorem test_engine_write_refused :
    after (.storeAck 7) { on (queue1 1 { runs1 0x21 1 none with uid := 3 }) with
      reqs := [(7, { core := 0x900, seq := 0, kind := .engWrite 0 1 3 none, pa := 0, bytes := 8, stage := 2, status := 3 })] } (fun t =>
      t.reqs.isEmpty && (t.me.queue 1).entries.all fun e => e.openWork = 0 && e.elem.toNat / 2 ^ 56 = 0x83) = true := by decide +kernel

end Sys2Proof.Tests
end

section
/-! ## Memory stays in its canonical form

Memory is written by `memWrite` alone (a store, an addition, the A and D bits of a walk) and cleared by dropping listed bytes, and
both keep its form (`wf_memWrite`, `memFrom_filter`). So every operation of the model that gives a state has one lemma `MemOk.f`
here: it gives canonical memory from canonical memory. An operation made of others takes theirs in the order in which it is
written, and the lemmas of the instructions and events meet in `MemOk.step`. A lemma about an operation with a continuation takes
what the continuation keeps as a hypothesis. -/

namespace Sys2Proof.Machine

open Sys2Proof

set_option Elab.async false

/-! ### What a step may be made of -/

/-- Where the outcome is a next state, its memory is canonical. -/
def NextOk (r : Result State) : Prop := ∀ t, r = .next t → MemOk t

/-- A state that may be none has canonical memory. -/
def OptOk (o : Option State) : Prop := ∀ t, o = some t → MemOk t

/-- An update of other fields of the state. -/
theorem MemOk.same {s t : State} (h : MemOk s) (e : t.mem = s.mem := by with_reducible rfl) : MemOk t := by
  unfold MemOk
  rw [e]
  exact h

theorem MemOk.next {s : State} (h : MemOk s) : NextOk (.next s) := fun _ e => Host.Outcome.next.inj e ▸ h

theorem MemOk.some {s : State} (h : MemOk s) : OptOk (some s) := fun _ e => Option.some.inj e ▸ h

theorem OptOk.none : OptOk .none := fun _ e => nomatch e

/-- The state in a pair that a match has taken apart. -/
theorem MemOk.of_pair {α : Type} {p : α × State} {a : α} {t : State} (h : MemOk p.2) (e : p = (a, t)) : MemOk t := by
  subst e
  exact h

theorem MemOk.of_triple {α β : Type} {p : α × β × State} {a : α} {b : β} {t : State} (h : MemOk p.2.2)
    (e : p = (a, b, t)) : MemOk t := by
  subst e
  exact h

theorem MemOk.ite {c : Prop} [Decidable c] {s t : State} (hs : MemOk s) (ht : MemOk t) : MemOk (if c then s else t) := by
  split <;> assumption

theorem OptOk.ite {c : Prop} [Decidable c] {o p : Option State} (ho : OptOk o) (hp : OptOk p) : OptOk (if c then o else p) := by
  split <;> assumption

theorem MemOk.memWrite {s : State} (h : MemOk s) {a v n : Nat} : MemOk { s with mem := memWrite s.mem a v n } :=
  wf_memWrite _ _ _ _ h

theorem MemOk.foldl {α : Type} {l : List α} {f : State → α → State} {s : State} (h : MemOk s)
    (hf : ∀ s x, MemOk s → MemOk (f s x)) : MemOk (l.foldl f s) := by
  induction l generalizing s with
  | nil => exact h
  | cons x t ih => exact ih (hf s x h)

theorem MemOk.foldl_snd {α β : Type} {l : List β} {f : α × State → β → α × State} {p : α × State} (h : MemOk p.2)
    (hf : ∀ p x, MemOk p.2 → MemOk (f p x).2) : MemOk (l.foldl f p).2 := by
  induction l generalizing p with
  | nil => exact h
  | cons x t ih => exact ih (hf p x h)

/-! ### Memory -/

section
variable {s : State} (h : MemOk s) {n : Nat}
include h

theorem MemOk.clean {a : Nat} : MemOk (s.clean a n) := h

theorem MemOk.writeMem {a v : Nat} : MemOk (s.writeMem a n v) := wf_memWrite _ _ _ _ h

theorem MemOk.writeRow {a : Nat} {r : Row} : MemOk (s.writeRow a r) := h.writeMem

theorem MemOk.addPoison {a : Nat} : MemOk (s.addPoison a) := h

theorem MemOk.spoil {a : Nat} : MemOk (s.spoil a n) := h.foldl fun _ _ h => h.addPoison

end

/-! ### Units -/

section
variable {s : State} (h : MemOk s) {cl x c : Nat}
include h

theorem MemOk.setCore {k : Core} : MemOk (s.setCore c k) := h

theorem MemOk.modCore {f : Core → Core} : MemOk (s.modCore c f) := h.setCore

theorem MemOk.modMe {f : Core → Core} : MemOk (s.modMe f) := h.modCore

theorem MemOk.setCluster {k : Cluster} : MemOk (s.setCluster cl k) := h

theorem MemOk.modCluster {f : Cluster → Cluster} : MemOk (s.modCluster cl f) := h.setCluster

theorem MemOk.modRouter {r : Nat} {f : Router → Router} : MemOk (s.modRouter r f) := h

theorem MemOk.modWalker {i : Nat} {f : Walker → Walker} : MemOk (s.modWalker i f) := h

theorem MemOk.modSlice {i : Nat} {f : Slice → Slice} : MemOk (s.modSlice i f) := h

theorem MemOk.modCtx {f : Ctx → Ctx} : MemOk (s.modCtx x f) := h

theorem MemOk.modUnit {f : Cluster → Cluster} : MemOk (s.modUnit x cl f) := .ite h.modCtx h.modCluster

theorem MemOk.modLink {l : Nat} {f : Link → Link} : MemOk (s.modLink l f) := h

theorem MemOk.postIn {d : Nat} {e : Event} : MemOk (s.postIn d e) := h

theorem MemOk.post {e : Event} : MemOk (s.post e) := h.postIn

theorem MemOk.posts {es : List Event} : MemOk (s.posts es) := h.foldl fun _ _ h => h.post

theorem MemOk.postOnce {d : Nat} {e : Event} : MemOk (s.postOnce d e) := .ite h h.postIn

theorem MemOk.postLate {e : Event} : MemOk (s.postLate e) := h.same.postIn

theorem MemOk.draw : MemOk s.draw.2 := h

theorem MemOk.newId : MemOk s.newId.2 := h

theorem MemOk.engineView {cls : BitVec 5} : MemOk (s.engineView cls).2 := by
  unfold State.engineView
  extract_lets
  split
  · exact h
  · exact h.draw

end

/-! ### Flits -/

section
variable {s : State} (h : MemOk s) {u tag cl sl x val : Nat} {o : DeskOp} {fs : List Flit}
include h

theorem MemOk.offerIn {d : Nat} : MemOk (s.offerIn d fs) := by
  unfold State.offerIn
  split
  · exact h
  · exact h.modRouter.postIn

theorem MemOk.inject : MemOk (s.inject u fs) := .ite h.offerIn (MemOk.ite h.modCluster h.modSlice).postOnce

theorem MemOk.injectIn {d : Nat} : MemOk (s.injectIn u d fs) := (MemOk.ite h.modCluster h.modSlice).postIn

theorem MemOk.walkerInject {i : Nat} : MemOk (s.walkerInject i fs) := h.modWalker.foldl fun _ _ h => h.postOnce

theorem MemOk.toDesk {e : Event} : MemOk (s.toDesk sl x cl tag val o e) := h.inject

theorem MemOk.fromDesk {e : Event} : MemOk (s.fromDesk sl x cl tag val o e) := h.inject

end

/-! ### Home -/

section
variable {s : State} (h : MemOk s) {pa n x src c : Nat} {aux : Word}
include h

theorem MemOk.fwNote {k : FwKind} {named : List Nat} : MemOk (s.fwNote k named) := .ite h h.writeRow.same

theorem MemOk.logAt {r kind tag : Nat} {val : Word} : MemOk (s.logAt r kind src tag x val aux) := .ite h h.modRouter

theorem MemOk.machineCheck {k : CheckKind} {r : Nat} : MemOk (s.machineCheck k r src x aux) := h.logAt.same.fwNote

theorem MemOk.softLog {r : Nat} {what : Word} : MemOk (s.softLog r src x what) := h.draw.logAt

theorem MemOk.softTiles {rows side : Nat → Bool} : MemOk (s.softTiles c rows side) :=
  .ite h (h.modCore.foldl (fun _ _ h => h.softLog))

theorem MemOk.softAccs {rows : Nat → Bool} : MemOk (s.softAccs c rows) := .ite h (h.modCluster.foldl (fun _ _ h => h.softLog))

theorem MemOk.correct {whole : Bool} : MemOk (s.correct pa n whole) := h.same.foldl fun _ _ h => .ite h h.draw.logAt

theorem MemOk.testWatches : MemOk (s.testWatches pa) := .ite h (h.modSlice.foldl (fun _ _ h => h.fromDesk))

theorem MemOk.watchesIn : MemOk (s.watchesIn pa n) := .ite (h.foldl (fun _ _ h => h.testWatches)) h

theorem MemOk.touch : MemOk (s.touch pa) := .ite h.same h

theorem MemOk.touchAll : MemOk (s.touchAll pa n) := .ite h.touch (.ite h.same h)

end

/-! ### Inbox -/

section
variable {s : State} (h : MemOk s) {cl x n c iface pa src t reason id : Nat} {m : Item}
include h

theorem MemOk.modSurv {f : Surv → Surv} : MemOk (s.modSurv iface x f) := h.modRouter

theorem MemOk.countSent {stamp : Word} : MemOk (s.countSent iface x stamp) := h.modSurv

theorem MemOk.countReceived : MemOk (s.countReceived iface x) := h.modSurv

theorem MemOk.setItem {i : Nat} : MemOk (s.setItem cl i m) := h.modCluster

theorem MemOk.dropItem {i : Nat} : MemOk (s.dropItem cl i) := by
  unfold State.dropItem
  split
  · exact h
  · exact h.modCluster.post

theorem MemOk.note {code : Nat} {p1 p2 p3 : Word} : MemOk (s.note iface x code p1 p2 p3) :=
  .ite h.modCtx h.newId.draw.countSent.offerIn

theorem MemOk.ringKick : MemOk (s.ringKick pa n) := h.foldl fun _ _ h => .ite h.postIn h

theorem MemOk.bankWrite {v : Nat} : MemOk (s.bankWrite pa n v src x) :=
  (MemOk.ite h.correct.writeMem.logAt.note h.correct.writeMem).ringKick.watchesIn

theorem MemOk.deviceWrite {v : Nat} : MemOk (s.deviceWrite pa n v) := h.touchAll.bankWrite

theorem MemOk.deviceRead : MemOk (s.deviceRead pa n) := h.touchAll.correct

theorem MemOk.backWrite {i : Nat} {e : BackEntry} : MemOk (s.backWrite x i e) := by
  unfold State.backWrite
  extract_lets _ s1
  have h1 : MemOk s1 := h.foldl fun _ _ h => h.deviceWrite
  exact .ite h1.spoil h1

theorem MemOk.toBacking {e : BackEntry} : MemOk (s.toBacking x e) := by
  unfold State.toBacking
  extract_lets _ s1 _ _
  have h1 : MemOk s1 := .ite h.backWrite.deviceWrite h
  exact .ite h1.modCtx.modCtx.fwNote h1.modCtx

theorem MemOk.deadLetter {at_ : Nat} {r : Rec} {inSlot : Nat} : MemOk (s.deadLetter at_ x r id inSlot reason src) := by
  unfold State.deadLetter
  extract_lets _ _ _ _ s1 s2 _ s3
  have h1 : MemOk s1 := h.foldl fun _ _ h => h.deviceWrite
  have h3 : MemOk s3 := MemOk.modCtx (.ite h.modCtx h1.modCtx)
  exact .ite h3.note h3

theorem MemOk.readItem : MemOk (s.readItem cl m) := .ite h.machineCheck (.ite h.softLog h)

theorem MemOk.recordSpoilt {a : Nat} : MemOk (s.recordSpoilt m a) := .ite h.spoil h

theorem MemOk.countNak {r dr lx : Nat} {what : Word} : MemOk (s.countNak n r dr src x lx what) :=
  .ite h.logAt.same.note h.logAt.same

theorem MemOk.nakRecord : MemOk (s.nakRecord n cl m) := h.countNak.offerIn

theorem MemOk.deadItem : MemOk (s.deadItem cl m id reason) := by
  unfold State.deadItem
  split
  · exact h.nakRecord
  · exact .ite h.readItem.deadLetter h.readItem.deadLetter.recordSpoilt

theorem MemOk.modOverflow {f : List OvRec → List OvRec} : MemOk (s.modOverflow cl f) := by
  unfold State.modOverflow
  split
  · exact h
  · exact h.modCtx

theorem MemOk.refloor : MemOk (s.refloor cl t) := h.foldl fun _ _ h => .ite h.post h

theorem MemOk.retest : MemOk (s.retest cl t) := by
  unfold State.retest
  extract_lets _ _ s1
  have h1 : MemOk s1 := by
    unfold s1
    refine .ite ?_ h
    split
    · exact h.modCluster
    · extract_lets _ _ _ s2
      have h2 : MemOk s2 := .ite h.modCluster.postIn h.modCluster
      refine .ite h.modCluster.post ?_
      split
      · exact h2.postIn
      · exact h2
  exact h1.refloor

theorem MemOk.retestAll : MemOk (s.retestAll cl) := h.foldl fun _ _ h => .ite h h.retest

theorem MemOk.closeIn : MemOk (s.closeIn cl c) := by
  unfold State.closeIn
  extract_lets
  split
  · exact h
  · exact .ite h.modCluster.same h

theorem MemOk.countNext : OptOk (s.countNext cl c) := by
  unfold State.countNext
  extract_lets
  refine .ite h.some ?_
  split
  · exact h.setItem.some
  · exact .ite h.modOverflow.some OptOk.none

theorem MemOk.advanceE : MemOk (s.advanceE cl c n) := by
  induction n generalizing s with
  | zero => exact h
  | succ n ih =>
    unfold State.advanceE
    split
    · exact h
    · exact ih (h.countNext _ ‹_›).modCluster

theorem MemOk.unpark : MemOk (s.unpark cl c) := h.modCluster

theorem MemOk.counted : MemOk (s.counted cl c) := h.advanceE.unpark.retest.closeIn

theorem MemOk.deliver {j : Nat} : MemOk (s.deliver cl j) := by
  unfold State.deliver
  split
  · exact h
  · split
    · exact h.setItem.post
    · exact .ite (.ite h.draw.deadItem.dropItem (.ite h.deadItem.dropItem.modCluster.counted h.setItem.counted)) (.ite (.ite
        h.deadItem.dropItem (.ite h.deadItem.dropItem h.setItem.retest.post)) (.ite (.ite h.setItem h.setItem.retest)
        h.deadItem.dropItem))

theorem MemOk.receipt {mtag : BitVec 8} : MemOk (s.receipt cl src x mtag) := h.inject

theorem MemOk.freeTimeline : MemOk (s.freeTimeline cl t) :=
  ((h.foldl (fun _ _ h => .ite h.deadItem.dropItem.modCluster h.deadItem.dropItem)).modCluster.foldl (fun _ _ h => .ite h.post
    h)).foldl fun _ _ h => .ite h.closeIn h

end

/-! ### Ops -/

section
variable {s : State} (h : MemOk s) {c code : Nat} {i : Instr} {body : State → State} {tval : Word}
include h

theorem MemOk.kick : MemOk (s.kick c) := by
  unfold State.kick
  extract_lets _ s1 s2
  have h1 : MemOk s1 := h.foldl fun _ _ h => .ite h.post h
  have h2 : MemOk s2 := by
    unfold s2
    split
    · exact h1
    · exact .ite h1.post h1
  split
  · exact .ite h2 h2.post
  · exact .ite h2.postIn h2
  · exact .ite h2.post h2
  · exact h2

theorem MemOk.setBarrier {gang : BitVec 16} {b : Barrier} : MemOk (s.setBarrier gang b) := .ite h.modRouter h.modCluster

theorem MemOk.watch : MemOk (s.watch c) := .ite h.postIn h

theorem MemOk.endTrapped : MemOk (s.endTrapped c code) :=
  .ite h.setCore.kick (h.foldl (fun _ _ h => .ite h h.modCore.kick)).note

theorem MemOk.enterTrap {t0 : Trap} : MemOk (s.enterTrap c t0) :=
  .ite h.note.endTrapped (.ite h.note.endTrapped h.setCore.watch)

theorem MemOk.takeTrap {t : Trap} : MemOk (s.takeTrap c t) := .ite h.setCore h.enterTrap

theorem MemOk.trap : MemOk (s.trap code tval) := h.takeTrap

theorem MemOk.trapWith {t : Trap} : MemOk (s.trapWith t) := h.takeTrap

theorem MemOk.trapChan {stp : Nat} : MemOk (s.trapChan tval stp) := h.trapWith

theorem MemOk.returnTrap : MemOk (s.returnTrap c) := .ite h.takeTrap h.setCore.watch

theorem MemOk.stall : MemOk s.stall := h.modMe

theorem MemOk.advance : MemOk s.advance := h.modMe

theorem MemOk.result {d : BitVec 5} {v : Word} : MemOk (s.result d v) := h.modMe

theorem MemOk.waited (hbody : ∀ s, MemOk s → MemOk (body s)) : MemOk (s.waited body) := .ite h.stall (.ite (hbody _ h) h.trap)

theorem MemOk.word (hbody : ∀ s, MemOk s → MemOk (body s)) : NextOk (word i body s) :=
  (MemOk.ite h.trap (.ite h.trap (.ite (h.waited hbody) (hbody _ h)))).next

theorem MemOk.wordWaits (hbody : ∀ s, MemOk s → MemOk (body s)) : NextOk (wordWaits i body s) :=
  h.word fun _ h => h.waited hbody

end

/-! ### Access -/

section
variable {s : State} (h : MemOk s) {x va pa id t n c stores : Nat} {kind : Access} {add : Bool} {r : MReq} {rel : Option
  (BitVec 5)} {ea : Word}
include h

theorem MemOk.readWalk : MemOk (s.readWalk x va) := .ite h (h.foldl (fun _ _ h => h.deviceRead))

/-- A walk writes the A and D bits of the leaf that it finds. -/
theorem MemOk.walkVa {m : Mode} : MemOk (s.walkVa x va kind m).2.2 := by
  unfold State.walkVa
  extract_lets
  split
  · exact h.readWalk
  · split
    · exact h.readWalk
    · exact .ite h.readWalk h.readWalk.memWrite.watchesIn

theorem MemOk.translate : MemOk (s.translate c ea kind).2 := by
  unfold State.translate
  extract_lets
  split
  · exact h
  · split
    · exact h
    · split
      · exact h.modCore
      · split
        · exact h.walkVa.of_triple ‹_›
        · exact (h.walkVa.of_triple ‹_›).modCore.modCluster

theorem MemOk.counterPa {cl : Nat} {base : Word} {handle : BitVec 16} {m : Mode} :
    MemOk (s.counterPa x cl base handle m).2 := by
  unfold State.counterPa
  extract_lets _ r
  have hr : MemOk r.2 := by
    unfold r
    split
    · exact h
    · exact h.walkVa
  split
  · exact hr
  · split <;> exact hr

theorem MemOk.copyPage {src dst : Nat} : MemOk (s.copyPage src dst) :=
  (h.deviceRead.touchAll.correct.writeMem.foldl (fun _ _ h => h.addPoison)).watchesIn

theorem MemOk.clearD {p : CkPage} : MemOk (s.clearD x p) := h.deviceRead.memWrite.same.watchesIn

theorem MemOk.ckptFails {reason : Nat} : MemOk (s.ckptFails x reason) := by
  unfold State.ckptFails
  split
  · exact h
  · exact h.modCtx.note

theorem MemOk.preservePage {i : Nat} : MemOk (s.preservePage x i) := by
  unfold State.preservePage
  split
  · exact h
  · refine .ite h ?_
    split
    · exact h
    · exact h.ckptFails
    · exact h.copyPage.clearD.modCtx

theorem MemOk.preserveFor {m : Mode} : MemOk (s.preserveFor x t pa va m) := by
  unfold State.preserveFor
  split
  · exact h
  · exact h.preservePage.walkVa

theorem MemOk.preserveAll : MemOk (s.preserveAll pa) := by
  unfold State.preserveAll
  refine h.foldl fun _ _ h => ?_
  split
  · exact h
  · exact h.preservePage

theorem MemOk.mirror : MemOk (s.mirror x t pa n) := by
  unfold State.mirror
  split
  · exact h
  · refine .ite h ?_
    split
    · exact h
    · split
      · exact h
      · exact h.touch.bankWrite

theorem MemOk.setReq : MemOk (s.setReq id r) := h

theorem MemOk.lateResult {d : BitVec 5} {v : Word} : MemOk (s.lateResult d v) := h.setCore.newId.setReq.postLate

theorem MemOk.sendReq : MemOk (s.sendReq id r) := h.setReq.modCore.inject

theorem MemOk.sendRsp : MemOk (s.sendRsp id r) :=
  .ite h.newId.setReq.injectIn (.ite h.newId.setReq.injectIn h.newId.setReq.offerIn)

theorem MemOk.stallOn {pas : List Nat} : MemOk (s.stallOn pas) := (h.foldl (fun _ _ h => h.foldl (fun _ _ h => h.post))).stall

theorem MemOk.enterReqs {held : Bool} {l : List MReq} : MemOk (s.enterReqs held l) := by
  induction l generalizing s with
  | nil => exact h
  | cons r t ih => exact ih (.ite h.newId.setReq h.newId.sendReq)

theorem MemOk.issueAll {rs : List MReq} {out : Option OutRes} : MemOk (s.issueAll rs out stores rel add) :=
  h.setCore.enterReqs

theorem MemOk.issue {out : Option OutRes} : MemOk (s.issue r out stores rel add) := h.issueAll

theorem MemOk.leave {seq : Nat} : MemOk (s.leave c seq) := h.foldl fun _ _ h => h.sendReq

theorem MemOk.access {go : Nat → Word → State → State} (hgo : ∀ x y s, MemOk s → MemOk (go x y s)) :
    MemOk (s.access ea n kind go) := by
  unfold State.access
  split
  · exact h.trapWith
  · split
    · exact (h.translate.of_pair ‹_›).trapWith
    · exact hgo _ _ _ (h.translate.of_pair ‹_›)

end

/-! ### Flags -/

section
variable {s : State} (h : MemOk s)
include h

theorem MemOk.fpResult {d : BitVec 5} {v : Word} {fl : Flags} : MemOk (s.fpResult d v fl) := .ite h.trap h.modMe

end

/-! ### Bank -/

section
variable {s : State} (h : MemOk s) {pa id x seq : Nat} {ty : BitVec 4} {r : MReq}
include h

theorem MemOk.slotsAt {slots : BitVec 3} {v src : Nat} : MemOk (s.slotsAt pa slots v src x) :=
  .ite h.bankWrite (.ite h.correct.bankWrite.addPoison.logAt.note h.correct.bankWrite)

theorem MemOk.lagAt {write : State → State} (hwrite : ∀ s, MemOk s → MemOk (write s)) : MemOk (s.lagAt id r write) := by
  have ht : MemOk (write { s with lagging := [] }) := hwrite _ h.same
  exact ht.same.modCore

theorem MemOk.relag {core : Nat} : MemOk (s.relag core seq) := h.modCore.kick

theorem MemOk.lagDone : MemOk (s.lagDone id) := by
  unfold State.lagDone
  split
  · exact h
  · refine MemOk.foldl (.ite ?_ ?_) fun _ _ h => h.relag
    · exact h.same.postLate
    · exact h.same

theorem MemOk.bankStore {n v : Nat} : MemOk (s.bankStore r n v) := h.bankWrite.mirror

theorem MemOk.addCounter {v : Word} : MemOk (s.addCounter pa v).2 := by
  unfold State.addCounter
  extract_lets
  split
  · exact h.correct
  · exact h.correct.writeMem.testWatches

theorem MemOk.daddApply {l : HoldLine} {v : Nat} : MemOk (s.daddApply l ty v).2 := by
  unfold State.daddApply
  extract_lets
  split
  · exact h.correct
  · exact h.correct.writeMem.testWatches

theorem MemOk.drainLine {l : HoldLine} : MemOk (s.drainLine l).2 :=
  MemOk.foldl_snd (p := (l, s)) h fun _ _ h => h.daddApply

theorem MemOk.daddAt {wd idx v : Nat} : MemOk (s.daddAt x pa wd ty idx v) := by
  unfold State.daddAt
  extract_lets
  split
  next l fresh _ =>
    extract_lets s1
    have h1 : MemOk s1 := .ite h.modSlice h
    refine .ite h1.modSlice ?_
    split
    next l t e =>
      have ht : MemOk t := by
        split at e
        · cases e
          exact h1
        · cases e
          exact h1.drainLine.modSlice
      exact ht.daddApply.modSlice

theorem MemOk.dsealAt : MemOk (s.dsealAt x pa).2 := by
  refine MemOk.foldl_snd (p := ((0, false), s)) h fun p _ h => ?_
  split
  · exact h
  · split
    next t e =>
      refine MemOk.modSlice (s := t) ?_
      split at e
      · cases e
        exact h
      · exact h.drainLine.of_pair e

theorem MemOk.finish : MemOk (s.finish id r) :=
  .ite (MemOk.ite h.postLate h).same.modCore (MemOk.ite h.postLate h).same.modCore.kick

theorem MemOk.defer {c : Nat} {t : Trap} : MemOk (s.defer c seq t) := h.modCore

theorem MemOk.finishRows {row : Nat} : MemOk (s.finishRows id r row) := by
  unfold State.finishRows
  extract_lets _ _ _ s1
  have h1 : MemOk s1 := by
    unfold s1
    refine .ite h.modCore ?_
    split
    · exact h.modCore
    · exact h.modCore.defer
  exact h1.finish

end

/-! ### Engine -/

section
variable {s : State} (h : MemOk s) {c q : Nat} {r : MReq}
include h

theorem MemOk.modEntry {is : QEntry → Bool} {f : QEntry → QEntry} : MemOk (s.modEntry c q is f) := h.modCore

theorem MemOk.modFront {f : QEntry → QEntry} : MemOk (s.modFront c q f) := h.modEntry

theorem MemOk.kickQueues : MemOk (s.kickQueues c) := h.post

theorem MemOk.takeNumber {t : Nat} : MemOk (s.takeNumber c q t).2 := by
  unfold State.takeNumber
  split
  · exact h.modWalker
  · exact h.modCore

theorem MemOk.sendEngine : MemOk (s.sendEngine c q r) :=
  .ite h.newId.takeNumber.setReq.walkerInject h.newId.takeNumber.setReq.inject

theorem MemOk.sendEngines {rs : List MReq} : MemOk (s.sendEngines c q rs) := h.foldl fun _ _ h => h.sendEngine

theorem MemOk.workDone {uid : Nat} {f : QEntry → QEntry} : MemOk (s.workDone c q uid f) := by
  unfold State.workDone
  extract_lets
  split
  · exact h.modEntry
  · exact .ite h.modEntry (.ite h.modEntry.post h.modEntry.postIn)

theorem MemOk.engineAnswered {id : Nat} : MemOk (s.engineAnswered id r) := by
  unfold State.engineAnswered
  extract_lets
  split
  · exact h.same
  · exact h.same.workDone

end

/-! ### Loads -/

section
variable {s : State} (h : MemOk s) {id n core : Nat} {status : BitVec 4} {k : BitVec 5} {w : Bool} {i : Instr} {r : MReq}
include h

theorem MemOk.load {d : BitVec 5} {signed : Bool} {ea : Core → Word} {acq : BitVec 5} : NextOk (load i d n signed ea acq s) :=
  h.word fun _ h => h.access (fun _ _ _ h => .ite h.stall h.issue.advance)

theorem MemOk.store {b : BitVec 5} {ea : Core → Word} {rel : Option (BitVec 5)} : NextOk (store i b n ea rel s) :=
  h.word fun _ h => h.access (fun _ _ _ h => .ite h.stallOn h.issue.advance)

@[simp] theorem MemOk.execFenceFull : NextOk (execFenceFull w k s) := h.word fun _ h => .ite h.advance h.stall

@[simp] theorem MemOk.execFenceAcq : NextOk (execFenceAcq w k s) := h.word fun _ h => .ite h.advance h.stall

@[simp] theorem MemOk.execFenceRel : NextOk (execFenceRel w k s) := h.word fun _ h => h.modMe

@[simp] theorem MemOk.execStRelStoreLeaves {seq : Nat} : NextOk (execStRelStoreLeaves core seq s) := by
  refine MemOk.next ?_
  extract_lets
  split
  · exact .ite h.setCore.leave h
  · exact h

theorem MemOk.answer {data : Word} : MemOk (s.answer id r status data) := h.sendRsp

theorem MemOk.fillCache {cl x line : Nat} : MemOk (s.fillCache cl x line) := .ite h h.modCluster

theorem MemOk.rowAnswer {row : Row} : MemOk (s.rowAnswer id r status row) := h.sendRsp

theorem MemOk.readDone {v : Nat} : MemOk (s.readDone id r v) := .ite h.answer h.rowAnswer

theorem MemOk.refuse : MemOk (s.refuse id r status) := .ite h.answer h.rowAnswer

theorem MemOk.refusedStore : MemOk (s.refusedStore r) := h.note

theorem MemOk.failAt : MemOk (s.failAt id r status) := by
  unfold State.failAt
  refine .ite h.refuse ?_
  split
  · exact h.refusedStore.answer
  · exact h.refusedStore.answer
  · exact h.refusedStore.answer
  · exact h.answer

theorem MemOk.atTarget {is : ReqKind → Bool} {again : Event} {go : MReq → State → State}
    (hgo : ∀ x s, MemOk s → MemOk (go x s)) :
    MemOk (s.atTarget id is again go) := by
  unfold State.atTarget
  split
  · exact h
  · exact .ite h (.ite h.postIn (.ite h.postIn (.ite h.failAt (hgo _ _ h.correct))))

theorem MemOk.readAnswer : MemOk (s.readAnswer id r) :=
  .ite (MemOk.ite h.fillCache h).refuse (MemOk.ite h.fillCache h).readDone

theorem MemOk.readAt : MemOk (s.readAt id r) := by
  unfold State.readAt
  split
  · exact h.readDone
  · split
    · exact h.postIn.postIn
    · exact h.refuse
    · exact .ite h.refuse h.readAnswer

@[simp] theorem MemOk.execBankLoad : NextOk (execBankLoad id s) := (h.atTarget (fun _ _ h => h.readAt)).next

theorem MemOk.contribute {w off v : Nat} : MemOk (s.contribute w off n v) := h.foldl fun _ _ h => h.post

theorem MemOk.storeAt {v : Row} {write : State → State} (hwrite : ∀ s, MemOk s → MemOk (write s)) :
    MemOk (s.storeAt id r v write) := by
  unfold State.storeAt
  extract_lets
  split
  · exact .ite h.contribute.answer h.refusedStore.answer
  · exact .ite (MemOk.ite (h.lagAt hwrite) (hwrite _ h)).finish (MemOk.ite (h.lagAt hwrite) (hwrite _ h)).answer
  · exact .ite (MemOk.ite (h.lagAt hwrite) (hwrite _ h)).answer h.refusedStore.answer
  · exact .ite (MemOk.ite (h.lagAt hwrite) (hwrite _ h)).answer h.answer

theorem MemOk.engineAt {slots : Option (BitVec 3)} : MemOk (s.engineAt id r slots) := by
  unfold State.engineAt
  split
  · exact .ite h.contribute.answer h.answer
  · refine .ite h.answer ?_
    extract_lets s1
    have h1 : MemOk s1 := by
      unfold s1
      split
      · exact h.bankWrite
      · exact h.slotsAt
    exact h1.mirror.answer

@[simp] theorem MemOk.execBankStore : NextOk (execBankStore id s) := by
  refine MemOk.next (h.atTarget fun _ _ h => ?_)
  split
  · exact h.engineAt
  · exact h.storeAt fun _ h => h.bankStore

theorem MemOk.returned : MemOk (s.returned id r) := by
  unfold State.returned
  extract_lets _ _ s1
  have h1 : MemOk s1 := by
    unfold s1
    refine .ite h (.ite h.defer ?_)
    split
    · exact h.modCore
    · exact h
  exact h1.finish

theorem MemOk.cmdReturned {q : BitVec 2} : MemOk (s.cmdReturned id r q) := h.finishRows.modCore.post

@[simp] theorem MemOk.execLoadResponse : NextOk (execLoadResponse id s) := by
  refine MemOk.next ?_
  split
  · exact h
  · refine .ite h ?_
    split
    · exact h.returned
    · exact h.returned
    · exact h.returned
    · exact h.returned
    · exact h.returned
    · exact h.cmdReturned
    · exact h.engineAnswered
    · exact h
    · exact h
    · exact h
    · exact h
    · exact h
    · exact h
    · exact h

@[simp] theorem MemOk.execStoreAck : NextOk (execStoreAck id s) := by
  refine MemOk.next ?_
  split
  · exact h.lagDone
  · exact .ite h.engineAnswered (.ite h.finish h)

@[simp] theorem MemOk.execPcieCompletionArrival : NextOk (execPcieCompletionArrival id status s) := by
  refine MemOk.next ?_
  split
  · exact h
  · exact .ite h (.ite h.failAt (.ite h.readAnswer h))

@[simp] theorem MemOk.execPcieCompletionTimeout : NextOk (execPcieCompletionTimeout id s) := h.execPcieCompletionArrival

@[simp] theorem MemOk.execTranslationWalk {va : Word} {kind : Access} : NextOk (execTranslationWalk core va kind s) :=
  h.translate.next

end

/-! ### Atomics -/

section
variable {s : State} (h : MemOk s) {id : Nat} {a d b : BitVec 5} {w w32 : Bool} {i : Instr}
include h

theorem MemOk.atomicWord {n : Nat} {peer : Bool} {loads stores : Nat} {go : Nat → Word → State → State}
    (hgo : ∀ x y s, MemOk s → MemOk (go x y s)) :
    NextOk (atomicWord i a n peer loads stores go s) :=
  h.word fun _ h => h.access (fun _ _ _ h => .ite h.trapWith (.ite h.stallOn (hgo _ _ _ h).advance))

theorem MemOk.amo {fn : BitVec 4} : NextOk (amo i fn w32 d a b s) := by
  unfold Machine.amo
  exact h.atomicWord fun _ _ _ h => h.issue

theorem MemOk.cas {c : BitVec 5} : NextOk (cas i w32 d a b c s) := by
  unfold Machine.cas
  exact h.atomicWord fun _ _ _ h => h.issue

@[simp] theorem MemOk.execDadd {y : BitVec 4} : NextOk (execDadd w d a b y s) := by
  unfold Machine.execDadd
  exact h.atomicWord fun _ _ _ h => h.issue

@[simp] theorem MemOk.execCadd {k : BitVec 5} : NextOk (execCadd w d a b k s) :=
  h.word fun _ h => .ite h.result (h.access (fun _ _ _ h => .ite h.trapWith (.ite h.stallOn h.issue.modMe.advance)))

@[simp] theorem MemOk.execDseal : NextOk (execDseal w d a s) := h.atomicWord fun _ _ _ h => h.issue

@[simp] theorem MemOk.execCaddAdditionSent {core seq : Nat} : NextOk (execCaddAdditionSent core seq s) := by
  refine MemOk.next ?_
  extract_lets
  split
  · exact .ite h.setCore.leave h
  · exact h

@[simp] theorem MemOk.execAmoAtBank : NextOk (execAmoAtBank id s) := by
  refine MemOk.next (h.atTarget fun _ _ h => ?_)
  split
  · exact .ite h.answer (.ite h.answer h.bankStore.answer)
  · exact h

@[simp] theorem MemOk.execCasAtBank : NextOk (execCasAtBank id s) :=
  (h.atTarget (fun _ _ h => .ite h.answer (.ite h.answer (MemOk.ite h.bankStore h).answer))).next

@[simp] theorem MemOk.execCounterAddAtBank : NextOk (execCounterAddAtBank id s) := by
  refine MemOk.next (h.atTarget fun _ _ h => ?_)
  refine .ite h.answer ?_
  extract_lets
  split
  · exact (h.addCounter.of_pair ‹_›).mirror.answer
  · exact (h.addCounter.of_pair ‹_›).answer

@[simp] theorem MemOk.execDaddAtBank : NextOk (execDaddAtBank id s) := by
  refine MemOk.next (h.atTarget fun _ _ h => ?_)
  split
  · exact .ite h.answer (MemOk.ite h.daddAt.mirror h.daddAt).answer
  · exact h

@[simp] theorem MemOk.execDsealAtBank : NextOk (execDsealAtBank id s) := by
  refine MemOk.next (h.atTarget fun _ _ h => ?_)
  refine .ite h.answer ?_
  split
  · exact (h.dsealAt.of_pair ‹_›).answer
  · exact (MemOk.ite (h.dsealAt.of_pair ‹_›).mirror (h.dsealAt.of_pair ‹_›)).answer

end

/-! ### Branch -/

section
variable {s : State} (h : MemOk s) {a : BitVec 5} {w : Bool}
include h

theorem MemOk.goto {t : Word} : MemOk (s.goto t) := h.modMe

theorem MemOk.branch {i : Instr} {b : BitVec 5} {o : BitVec 14} {c : Word → Word → Bool} : NextOk (branch i a b o c s) :=
  h.word fun _ h => .ite h.goto h.advance

@[simp] theorem MemOk.execJ {o : BitVec 24} : NextOk (execJ w o s) := h.word fun _ h => h.goto

@[simp] theorem MemOk.execJal {o : BitVec 24} : NextOk (execJal w o s) := h.word fun _ h => h.modMe.goto

@[simp] theorem MemOk.execJalr {d : BitVec 5} {i : BitVec 14} : NextOk (execJalr w d a i s) :=
  h.word fun _ h => .ite h.trap h.modMe.goto

end

/-! ### Tasks -/

section
variable {s : State} (h : MemOk s) {cl tag x c : Nat} {key : BitVec 16} {m : Item}
include h

theorem MemOk.aboutKey {o : DeskOp} {e : Nat → Nat → Nat → Nat → BitVec 16 → Event} :
    MemOk (s.aboutKey x cl tag key o e) :=
  h.toDesk

theorem MemOk.sendKrel : MemOk (s.sendKrel x cl tag key) := h.aboutKey

theorem MemOk.sendKreq : MemOk (s.sendKreq x cl tag key) := h.aboutKey

theorem MemOk.sendWreg {j : Nat} {e : TEntry} : MemOk (s.sendWreg cl tag j e m) := by
  unfold State.sendWreg
  split
  · exact h
  · exact h.inject

theorem MemOk.releaseKeys {k : Core} : MemOk (s.releaseKeys k) := h.foldl fun _ _ h => h.sendKrel

theorem MemOk.timelineEnds {tl : BitVec 16} : MemOk (s.timelineEnds tl) := by
  unfold State.timelineEnds
  refine .ite h ?_
  extract_lets
  refine .ite h ?_
  split
  · exact h.modCluster.retest
  · exact h.freeTimeline
  · exact h

theorem MemOk.placeMarker : MemOk (s.placeMarker c) := h.modCore.modCluster.post

theorem MemOk.freeCore : MemOk (s.freeCore c) := by
  unfold State.freeCore
  extract_lets _ _ _ s1
  have h1 : MemOk s1 := by
    unfold s1
    split
    · exact h.placeMarker.modCore.posts
    · exact h.placeMarker.modCore.posts.dropItem
  exact h1.post

theorem MemOk.setEntry {e : TEntry} : MemOk (s.setEntry cl tag e) := h.modCluster

theorem MemOk.makeReady {e : TEntry} : MemOk (s.makeReady cl tag e) := h.setEntry.post.postIn

theorem MemOk.cancelWatches {e : TEntry} : MemOk (s.cancelWatches cl tag e) := by
  unfold State.cancelWatches
  refine h.foldl fun _ _ h => ?_
  split
  · exact h
  · exact h.toDesk

theorem MemOk.giveBack {cores : List Nat} : MemOk (s.giveBack cores) := h.foldl fun _ _ h => .ite h.modCore h

theorem MemOk.unhold : MemOk (s.unhold cl) := .ite h h.modCluster.giveBack

theorem MemOk.cancelHold : MemOk (s.cancelHold cl tag) := .ite h (.ite h.modRouter h.modRouter.giveBack.posts)

theorem MemOk.dropEntry {e : TEntry} : MemOk (s.dropEntry cl tag e) := by
  unfold State.dropEntry
  extract_lets s1 s2 s3 s4 s5
  have h1 : MemOk s1 := h.foldl fun _ _ h => h.sendKrel
  have h2 : MemOk s2 := by
    unfold s2
    split
    · exact h1
    · exact h1.aboutKey
  have h3 : MemOk s3 := .ite h2.cancelWatches h2
  have h4 : MemOk s4 := .ite h3.cancelHold h3
  exact (MemOk.ite h4.unhold.post h4).modCluster

theorem MemOk.recordGone {i : Nat} : MemOk (s.recordGone cl i m) := by
  unfold State.recordGone
  extract_lets _ s1
  have h1 : MemOk s1 := by
    unfold s1
    split
    · exact h.dropItem
    · exact .ite h.dropItem.modCluster.retest (.ite h.dropItem.freeTimeline h.dropItem)
  exact h1.post

theorem MemOk.abandon {code : Nat} {e : TEntry} : MemOk (s.abandon cl tag code e) := by
  unfold State.abandon
  split
  · exact h.dropEntry
  · exact h.dropEntry.note.recordGone

theorem MemOk.startTask {e : TEntry} {shape anchor : Nat} {cores : List (Nat × Nat)} :
    MemOk (s.startTask cl tag e m shape anchor cores) := by
  unfold State.startTask
  refine .ite h.readItem.dropEntry.giveBack.recordGone ?_
  extract_lets _ _ _ _ s1 s2 s3 _ s4
  have h1 : MemOk s1 := h.readItem.foldl fun _ _ h => h.modCore.watch
  have h3 : MemOk s3 := (MemOk.ite h1 h1.setBarrier).foldl fun _ _ h => h.aboutKey
  exact (MemOk.ite h3.modCluster.setItem.modCore h3.modCluster.dropItem).post

theorem MemOk.registerFrom {n : Nat} {e : TEntry} {l : List Nat} : MemOk (s.registerFrom cl tag n m e l) := by
  induction l generalizing s e with
  | nil => exact .ite h.makeReady (h.setEntry.foldl fun _ _ h => .ite h h.sendWreg)
  | cons j t ih =>
    unfold State.registerFrom
    extract_lets
    split
    · exact ih h
    · split
      · exact (h.counterPa.of_pair ‹_›).abandon
      · exact ih (h.counterPa.of_pair ‹_›)

theorem MemOk.registerConds {e : TEntry} : MemOk (s.registerConds cl tag e m) := h.registerFrom

theorem MemOk.enterEntry {i : Nat} : MemOk (s.enterEntry cl tag i m) := by
  unfold State.enterEntry
  extract_lets keys
  split
  next o t e =>
    have ht : MemOk t := h.newId.of_pair e
    clear_value keys
    split
    · exact ht.setItem.setEntry.sendKreq
    · exact ht.setItem.setEntry.registerConds

end

/-! ### Network -/

section
variable {s : State} (h : MemOk s) {link cl cluster router id j src x : Nat} {up : Bool} {f : Flit} {m : Item}
include h

theorem MemOk.discard {r : Nat} : MemOk (s.discard r f) := h.logAt

theorem MemOk.nak {r n : Nat} : MemOk (s.nak r n f) := by
  unfold State.nak
  extract_lets _ s1 _ s2
  have h1 : MemOk s1 := .ite h.countNak.countReceived h.countNak
  have h2 : MemOk s2 := by
    unfold s2
    split
    · exact h1.same
    · exact h1.same
    · exact h1.post
    · exact h1
  exact h2.offerIn

theorem MemOk.completeMessage : MemOk (s.completeMessage cl j f) := by
  unfold State.completeMessage
  split
  · exact h
  · split
    next o t e =>
      extract_lets _ _ s1 _ s2
      have h2 : MemOk s2 := (h.newId.of_pair e).countReceived.receipt.setItem
      split
      · exact h2.readItem.toBacking.dropItem
      · exact .ite h2.deliver.post h2.deliver

theorem MemOk.leaveSlot : MemOk (s.leaveSlot x cl j m) := .ite h.modUnit h.modUnit.deviceWrite

theorem MemOk.takeMessage : OptOk (s.takeMessage cl f) := by
  unfold State.takeMessage
  extract_lets
  split
  · refine .ite h.discard.some ?_
    split
    · exact (MemOk.ite h.setItem.completeMessage h.setItem).some
    · exact .ite (MemOk.ite h.setItem.completeMessage h.setItem).some (.ite OptOk.none (MemOk.ite
        h.leaveSlot.newId.setItem.completeMessage h.leaveSlot.newId.setItem).some)
  · exact .ite h.discard.some (.ite OptOk.none (MemOk.ite h.newId.setItem.completeMessage h.newId.setItem).some)

theorem MemOk.orBacking {e : Event} : MemOk (s.orBacking x cl e) := by
  unfold State.orBacking
  split
  · exact h.toBacking
  · exact h.post

theorem MemOk.eject : OptOk (s.eject cl f) := by
  unfold State.eject
  refine .ite OptOk.none ?_
  split
  · exact h.takeMessage
  · exact h.takeMessage
  · exact h.takeMessage
  · exact h.receipt.orBacking.some
  · exact h.orBacking.some
  · exact h.orBacking.some
  · exact h.post.some
  · exact h.discard.some

theorem MemOk.takeRequest : OptOk (s.takeRequest id) := by
  unfold State.takeRequest
  split
  · exact h.some
  · exact .ite h.some (.ite (MemOk.ite h.setReq.post h.setReq).some OptOk.none)

theorem MemOk.takeResponse : MemOk (s.takeResponse id) := by
  unfold State.takeResponse
  split
  · exact h
  · exact .ite h (.ite (h.setReq.post.foldl (fun _ _ h => h.postOnce)) h.setReq)

theorem MemOk.takeTransfer : MemOk (s.takeTransfer id) := by
  unfold State.takeTransfer
  split
  · exact h
  · exact .ite h.same.post h.same

theorem MemOk.takeDesk {r : Nat} : OptOk (s.takeDesk r f) := by
  unfold State.takeDesk
  refine .ite h.discard.some ?_
  split
  · exact h.some
  · split
    · exact h.post.some
    · exact .ite h.post.some (.ite OptOk.none h.orBacking.some)

theorem MemOk.takeFrame {r d : Nat} : OptOk (s.takeFrame r d f) :=
  .ite OptOk.none (.ite h.some (.ite h.countReceived.offerIn.some (.ite h.discard.some (MemOk.ite h.same.countReceived.offerIn
    h.same).some)))

theorem MemOk.take {r : Nat} : OptOk (s.take r f) := by
  unfold State.take
  split
  · exact h.takeFrame
  · split
    · exact h.takeRequest
    · exact h.takeResponse.some
    · exact h.takeDesk
    · refine MemOk.some ?_
      split
      · exact h.post
      · exact h
    · refine MemOk.some ?_
      split
      · exact h.post
      · exact h
    · exact h.takeTransfer.some
    · split
      · exact h.eject
      · exact (MemOk.ite h h.discard).some

theorem MemOk.flitUnderWay : MemOk (s.flitUnderWay router f) := by
  unfold State.flitUnderWay
  refine .ite h ?_
  extract_lets
  split
  · exact h.modCluster.same
  · split
    · exact .ite h.setReq.postIn h
    · exact h
  · exact .ite h.modCluster.postIn h

theorem MemOk.offerAgain : MemOk (s.offerAgain router f) := by
  unfold State.offerAgain
  split
  · exact (MemOk.ite h.modWalker h.modCluster).postOnce
  · exact h.modSlice.postOnce
  · exact h

theorem MemOk.dropBadFlits {now : List Flit} : MemOk (s.dropBadFlits router now) :=
  h.foldl fun _ _ h => .ite h.machineCheck (.ite h.softLog h)

end

theorem MemOk.arb_of_pair {p : Arb × List Flit} {b : Arb} {l : List Flit} (e : p = (b, l)) (h : MemOk p.1.s) : MemOk b.s := by
  subst e
  exact h

/-! The arbiter of a router carries the state with it. -/

section
variable {a : Arb} (h : MemOk a.s) {r : Nat} {f : Flit} {l : List Flit}
include h

theorem MemOk.arbLeave {p : Nat} {good : Bool} : MemOk (a.leave r p f good).s := h.modRouter.modRouter.postIn

theorem MemOk.arbTryEject : ∀ b ∈ a.tryEject r f, MemOk b.s := by
  intro b e
  unfold Arb.tryEject at e
  split at e
  · cases e
  · obtain ⟨t, ht, rfl⟩ := Option.map_eq_some_iff.mp e
    exact (h.take t ht).modRouter

theorem MemOk.arbFirst : ∀ b ∈ a.first r f, MemOk b.s := by
  intro b e
  unfold Arb.first at e
  split at e
  · exact h.arbTryEject b e
  · obtain ⟨p, -, rfl⟩ := Option.map_eq_some_iff.mp e
    exact h.arbLeave

theorem MemOk.arbArriving : MemOk (a.arriving r l).1.s := by
  induction l generalizing a with
  | nil => exact h
  | cons f t ih =>
    unfold Arb.arriving
    split
    · exact ih (h.arbFirst _ ‹_›)
    · exact ih h

theorem MemOk.arbOffered {n : Nat} : MemOk (a.offered r n l).1.s := by
  induction l generalizing a with
  | nil => exact h
  | cons f t ih =>
    unfold Arb.offered
    split
    next b e =>
      split at e
      · exact ih (h.arbFirst b e)
      · cases e
    · exact ih h

theorem MemOk.arbSecond : MemOk (a.second r l).s := by
  induction l generalizing a with
  | nil => exact h
  | cons f t ih =>
    unfold Arb.second
    split
    · exact ih h.modRouter
    · exact ih h.arbLeave

end

section
variable {s : State} (h : MemOk s) {link cl cluster router id j src x : Nat} {up : Bool} {f : Flit} {m : Item}
include h

@[simp] theorem MemOk.execFlitArrival : NextOk (execFlitArrival router s) := by
  refine MemOk.next ?_
  extract_lets _ _ _ _ _ _ _ s1
  have h1 : MemOk s1 := h.modRouter.dropBadFlits.foldl fun _ _ h => h.nak
  refine .ite h ?_
  split
  split
  extract_lets
  split
  next a _ ea =>
    have ha : MemOk a.s := MemOk.arb_of_pair ea (MemOk.arbArriving h1)
    split
    extract_lets
    split
    next b _ eb =>
      have hb : MemOk b.s := MemOk.arb_of_pair eb ha.arbOffered
      extract_lets _ c s2 _ _ s3
      have hc : MemOk c.s := MemOk.arbSecond (hb.foldl fun _ _ h => h.flitUnderWay)
      have h3 : MemOk s3 := by
        have h2 : MemOk s2 := hc.foldl fun _ _ h => h.offerAgain
        exact .ite h2 h2.modRouter.postIn
      exact .ite h3.modRouter.postIn h3

theorem MemOk.offerFlit {u : Nat} : MemOk (s.offerFlit u f) := (MemOk.ite h.modCluster h.modSlice).modRouter.postIn.postOnce

@[simp] theorem MemOk.execFlitInject : NextOk (execFlitInject cluster s) := by
  refine MemOk.next ?_
  split
  · extract_lets
    refine .ite h (.ite h.postOnce ?_)
    refine .ite h.postOnce ?_
    split
    · exact h
    · exact h.modSlice.offerFlit
  · extract_lets
    refine .ite (MemOk.ite h.post h) (.ite (MemOk.ite h.post h).postOnce ?_)
    refine .ite (MemOk.ite h.post h).postOnce ?_
    split
    · exact (MemOk.ite h.post h).modCluster.offerFlit
    · exact .ite (MemOk.ite h.post h) (MemOk.ite h.post h).modWalker.offerFlit
    · exact (MemOk.ite h.post h)

@[simp] theorem MemOk.execInjectionStop : NextOk (execInjectionStop cluster s) :=
  (MemOk.ite h.modCluster.postOnce h.modCluster.postOnce).next

@[simp] theorem MemOk.execThrottleWindow : NextOk (execThrottleWindow router s) := by
  refine MemOk.next ?_
  extract_lets _ _ _ _ _ _ s1
  have h1 : MemOk s1 := .ite h.modRouter.postIn h.modRouter
  refine .ite ?_ h1
  split
  · exact h1
  · exact h1.posts

@[simp] theorem MemOk.execBulkDeferExpiry {tag : Nat} : NextOk (execBulkDeferExpiry cluster tag s) := by
  refine MemOk.next ?_
  split
  · exact h
  · exact h.post

theorem MemOk.settleSend {mtag : BitVec 8} : MemOk (s.settleSend src mtag) := by
  unfold State.settleSend
  extract_lets
  split
  · exact h
  · extract_lets _ s1 s2
    have h1 : MemOk s1 := by
      unfold s1
      split
      · exact h.modCluster
      · exact h.modCluster.modCore
    have h2 : MemOk s2 := by
      unfold s2
      split
      · exact h1
      · exact h1.modCluster
    exact h2.foldl fun _ _ h => h.kick

@[simp] theorem MemOk.execReceiptArrival {mtag : Nat} : NextOk (execReceiptArrival src mtag s) := h.settleSend.next

@[simp] theorem MemOk.execNakArrival {mtag : Nat} {mem : Bool} : NextOk (execNakArrival src mtag mem s) := by
  refine MemOk.next ?_
  refine .ite ?_ h.settleSend
  split
  · exact h
  · exact .ite (MemOk.ite h.refusedStore h).setReq.post h

@[simp] theorem MemOk.execOverflowWrite : NextOk (execOverflowWrite cluster s) := by
  refine MemOk.next ?_
  split
  · extract_lets
    refine .ite (.ite h h.modCtx.note) ?_
    split
    next o t e =>
      extract_lets s1 _ s2 s3
      have h1 : MemOk s1 := (h.newId.of_pair e).readItem.foldl fun _ _ h => h.deviceWrite
      have h2 : MemOk s2 := h1.recordSpoilt.modCtx.modCluster
      have h3 : MemOk s3 := by
        unfold s3
        split
        · exact h2
        · exact h2.modCluster.retest
      exact h3.posts
  · exact h

theorem MemOk.recallDead {t : Nat} {g : BitVec 2} : MemOk (s.recallDead cl t j g m) :=
  .ite (.ite h.deadItem.dropItem.modCluster.counted h.deadItem.dropItem.closeIn) h.deadItem.dropItem

@[simp] theorem MemOk.execRecall {cls : MsgClass} : NextOk (execRecall cluster cls s) := by
  refine MemOk.next ?_
  extract_lets
  refine .ite h ?_
  split
  · exact h
  · extract_lets _ s1
    have h1 : MemOk s1 := h.modCtx
    refine .ite h ?_
    split
    next j t e =>
      have ht : MemOk t := h1.newId.of_pair e
      extract_lets _ s2
      have h2 : MemOk s2 := by
        unfold s2
        split
        · exact ht.setItem.post
        · extract_lets _ s3
          have h3 : MemOk s3 := ht.setItem.modCluster.postIn
          exact .ite h3.recallDead (.ite h3.retest.post h3.retest)
      exact h2.post.foldl fun _ _ h => .ite h h.post

@[simp] theorem MemOk.execOvminRecomputeDone {slot : Nat} : NextOk (execOvminRecomputeDone cluster slot s) :=
  h.modCluster.retest.posts.next

theorem MemOk.holdLink : MemOk (s.holdLink link) := (h.foldl (fun _ _ h => h.modRouter)).modLink

theorem MemOk.releaseLink : MemOk (s.releaseLink link) := h.modLink.foldl fun _ _ h => h.modRouter.postIn

theorem MemOk.loseAnswers : MemOk (s.loseAnswers link) := by
  unfold State.loseAnswers
  extract_lets
  refine h.modLink.foldl fun _ _ h => ?_
  split
  · exact h
  · exact h.setReq

theorem MemOk.linkDown : MemOk (s.linkDown link) := by
  unfold State.linkDown
  extract_lets _ _ _ s1
  have h1 : MemOk s1 := h.holdLink.modLink.logAt.machineCheck
  exact .ite (h1.loseAnswers.foldl (fun _ _ h => h.post)) h1

theorem MemOk.retrainAt {rate : Nat} : MemOk (s.retrainAt link rate) := h.holdLink.modLink.logAt.postIn

theorem MemOk.delayLink {d : Nat} : MemOk (s.delayLink link up d) := h.modRouter.foldl fun _ _ h => h.postIn

@[simp] theorem MemOk.execLinkReplay {seqno : Word} : NextOk (execLinkReplay link up seqno s) :=
  (MemOk.ite (.ite h.logAt.modLink.delayLink.linkDown h.logAt.modLink.delayLink.retrainAt) h.logAt.modLink.delayLink).next

@[simp] theorem MemOk.execRetrainEnd {ok : Bool} : NextOk (execRetrainEnd link ok s) :=
  (MemOk.ite h (.ite (.ite h.modLink.releaseLink.posts h.modLink.releaseLink) h.linkDown)).next

end

/-! ### Queues -/

section
variable {s : State} (h : MemOk s) {c q core : Nat} {ser : BitVec 16} {cw : BitVec 256} {legal : BitVec 256 → Bool} {a : BitVec
  5} {w : Bool} {e : QEntry}
include h

theorem MemOk.turnOn : MemOk (s.turnOn c q) := by
  unfold State.turnOn
  split
  · exact h.modWalker
  · exact h.modCluster
  · exact h

theorem MemOk.startEntry {d : Nat} {f : QEntry → QEntry} : MemOk (s.startEntry c q d f) := by
  unfold State.startEntry
  split
  · exact h
  · exact h.newId.turnOn.modFront.sendEngines.postIn.kickQueues

theorem MemOk.endError {code d : Nat} : MemOk (s.endError c q code d) := h.startEntry

theorem MemOk.cmdCounter {handle : BitVec 16} : MemOk (s.cmdCounter c e handle).2 := by
  unfold State.cmdCounter
  split
  · exact h
  · split
    · exact (h.counterPa.of_pair ‹_›).preserveFor
    · exact h.counterPa.of_pair ‹_›

theorem MemOk.waitRead : MemOk (s.waitRead e) := by
  unfold State.waitRead
  split
  · exact h
  · exact h.correct

theorem MemOk.arm : MemOk (s.arm c q e) := .ite h.modFront.post h.modFront.post

theorem MemOk.examine : MemOk (s.examine c q e legal) := by
  unfold State.examine
  extract_lets
  refine .ite h.endError ?_
  split
  · exact (h.cmdCounter.of_pair ‹_›).endError
  · split
    · exact ((h.cmdCounter.of_pair ‹_›).cmdCounter.of_pair ‹_›).endError
    · extract_lets s1 _ _
      have h1 : MemOk s1 := ((h.cmdCounter.of_pair ‹_›).cmdCounter.of_pair ‹_›).modFront
      exact .ite h1.waitRead.arm h1.waitRead.modFront.postIn.kickQueues

theorem MemOk.wakeEngine : MemOk (s.wakeEngine c q) := .ite h (h.foldl (fun _ _ h => h.kickQueues))

theorem MemOk.startArmed {start : State → State} (hstart : ∀ s, MemOk s → MemOk (start s)) :
    MemOk (s.startArmed c q cw start) :=
  .ite h (.ite h.postIn (.ite h.postOnce (hstart _ h)))

theorem MemOk.runHead {start : QEntry → State → State} (hstart : ∀ x s, MemOk s → MemOk (start x s)) :
    MemOk (s.runHead c q cw legal start) := by
  unfold State.runHead
  split
  · exact h
  · refine .ite h ?_
    split
    · exact .ite h (.ite h.postOnce h.examine)
    · exact h.startArmed fun _ h => hstart _ _ h
    · exact hstart _ _ h
    · exact h

theorem MemOk.advanceQueue : MemOk (s.advanceQueue c q) := by
  unfold State.advanceQueue
  extract_lets
  split
  · exact h
  · refine .ite h.post (.ite h ?_)
    refine .ite (.ite h (.ite h.postOnce h.machineCheck.modFront.endError)) ?_
    extract_lets s1
    have h1 : MemOk s1 := .ite h.softLog.modFront h
    split
    · exact .ite h1 (.ite (.ite h1.endError h1.postOnce) h1.post)
    · exact .ite h1.post h1.post
    · exact h1

@[simp] theorem MemOk.execWaithRecheck {q : BitVec 2} : NextOk (execWaithRecheck core q s) := by
  refine MemOk.next ?_
  split
  · exact h
  · exact .ite h (.ite h.postIn (.ite h.waitRead.arm h.waitRead.postIn))

theorem MemOk.deliverElem : MemOk (s.deliverElem c q e) := by
  unfold State.deliverElem
  extract_lets
  refine .ite h ?_
  extract_lets
  split
  · exact h.setCore
  · exact h.setCore.kick

theorem MemOk.placeElems : MemOk (s.placeElems c q) :=
  .ite h (h.modCore.foldl (fun _ _ h => h.deliverElem)).kickQueues.wakeEngine

theorem MemOk.signalEntry : MemOk (s.signalEntry c q e) := by
  unfold State.signalEntry
  extract_lets
  split
  · exact h.modEntry
  · refine .ite h (.ite h.postIn ?_)
    refine .ite h.postIn ?_
    extract_lets
    split
    · exact (h.modEntry.addCounter.of_pair ‹_›).mirror.postIn
    · exact (h.modEntry.addCounter.of_pair ‹_›).note.modEntry.postIn

theorem MemOk.signalAll : MemOk (s.signalAll c q) := (h.foldl (fun _ _ h => h.signalEntry)).placeElems

theorem MemOk.arrayWrites : MemOk (s.arrayWrites c e) := h.foldl fun _ _ h => h.bankWrite.mirror

@[simp] theorem MemOk.execEngineCommandComplete {q : BitVec 2} : NextOk (execEngineCommandComplete core q ser s) := by
  refine MemOk.next ?_
  extract_lets
  split
  · exact h
  · exact .ite (MemOk.ite h.arrayWrites h).modEntry.signalAll.wakeEngine (MemOk.ite h.arrayWrites h).modEntry.sendEngines

@[simp] theorem MemOk.execSighAnswer {q : BitVec 2} : NextOk (execSighAnswer core q ser s) := h.modEntry.signalAll.next

@[simp] theorem MemOk.execPush {q : BitVec 2} : NextOk (execPush w q a s) :=
  h.word fun _ h => .ite h.stall (.ite h.trap h.setCore.post)

theorem MemOk.pieces {ea : Word} {l : List Nat} : MemOk (s.pieces ea l).2 := by
  induction l generalizing s with
  | nil => exact h
  | cons i t ih =>
    unfold State.pieces
    extract_lets
    split
    · exact h.translate.of_pair ‹_›
    · split <;> exact (ih (h.translate.of_pair ‹_›)).of_pair ‹_›

@[simp] theorem MemOk.execPushm {q : BitVec 2} {n : BitVec 3} {m : BitVec 14} : NextOk (execPushm w q a n m s) := by
  refine h.word fun _ h => ?_
  extract_lets
  split
  · exact h.trapWith
  · refine .ite h.stall (.ite h.trap ?_)
    split
    · exact (h.pieces.of_pair ‹_›).trapWith
    · exact .ite (h.pieces.of_pair ‹_›).stall (h.pieces.of_pair ‹_›).issueAll.modMe

@[simp] theorem MemOk.execPushEntersQueue {seq : Nat} : NextOk (execPushEntersQueue core seq s) := by
  refine MemOk.next ?_
  extract_lets _ s1 s2
  have h1 : MemOk s1 := by
    unfold s1
    split
    · exact .ite h (.ite h.setCore h)
    · exact h
  have h2 : MemOk s2 := h1.foldl fun _ _ h => h.advanceQueue
  exact .ite h2.post h2

@[simp] theorem MemOk.execPop {q : BitVec 2} : NextOk (execPop w q a s) := by
  refine h.word fun _ h => ?_
  extract_lets
  split
  · exact h.setCore.lateResult.kickQueues
  · exact .ite h.setCore h.result

end

/-! ### Vector -/

section
variable {s : State} (h : MemOk s) {c : Nat}
include h

theorem MemOk.rowWord {i : Instr} {mk : Core → RowOp} : NextOk (rowWord i mk s) := by
  refine h.word fun _ h => ?_
  extract_lets
  split
  · exact h.trap
  · exact .ite h.trap (.ite h.stall h.modMe.post)

@[simp] theorem MemOk.execVectorUnitStart {cluster : Nat} : NextOk (execVectorUnitStart cluster s) := by
  refine MemOk.next ?_
  extract_lets
  refine .ite h.postIn ?_
  split
  · exact h
  · split
    · exact h
    · exact (MemOk.ite h.softTiles.logAt (.ite h.softTiles.logAt h.softTiles)).setCore.modCluster.postIn.postIn

theorem MemOk.writeRun {r : RowRun} : MemOk (s.writeRun c r) := by
  unfold State.writeRun
  split
  · exact h.modCore.defer
  · exact h.modCore.defer
  · exact h.modCore

theorem MemOk.writeRuns {l : List RowRun} : MemOk (s.writeRuns c l) := by
  induction l generalizing s with
  | nil => exact h
  | cons r t ih => exact .ite (ih h.writeRun) h.modCore

@[simp] theorem MemOk.execRowWrite {core : Nat} : NextOk (execRowWrite core s) := h.writeRuns.kick.post.next

end

/-! ### Bulk -/

section
variable {s : State} (h : MemOk s) {core c : Nat} {cw : BitVec 256} {e : QEntry}
include h

theorem MemOk.bulkXlate {cl : Nat} {writes : Bool} {l : List (Nat × Nat × Nat)} : MemOk (s.bulkXlate e cl writes l).2 := by
  induction l generalizing s with
  | nil => exact h
  | cons p t ih =>
    unfold State.bulkXlate
    extract_lets r
    have hr : MemOk r.2 := by
      unfold r
      split
      · exact h
      · exact h.walkVa
    split
    · exact hr
    · split
      · split
        next l f o t e => exact MemOk.of_pair (ih (.ite hr.preserveFor hr)) e
      · exact hr

theorem MemOk.bulkCorrect {ls : List BulkLine} : MemOk (s.bulkCorrect ls) := h.foldl fun _ _ h => h.correct

theorem MemOk.bulkError {code : Nat} : MemOk (s.bulkError c code) := h.startEntry

theorem MemOk.bulkRun {n lines : Nat} {stop : Option (Nat × Nat)} {fl : Flags} {rd : List (Nat × Nat)}
    {ws : List (Nat × Nat × Nat)} :
    MemOk (s.bulkRun c n lines stop fl rd ws) := by
  unfold State.bulkRun
  split <;> exact h.startEntry

theorem MemOk.bulkMap {reads : Bool} {op : Nat → Nat → Nat × Flags} : MemOk (s.bulkMap c cw e reads op) := by
  unfold State.bulkMap
  extract_lets
  refine .ite h.bulkError (.ite h.bulkError ?_)
  split
  next x t ex =>
    have ht : MemOk t := by
      split at ex
      · exact h.bulkXlate.of_pair ex
      · cases ex
        exact h
    split
    next y u ey =>
      have hu : MemOk u := ht.bulkXlate.of_pair ey
      exact .ite hu.bulkError (.ite hu.postIn (MemOk.ite hu.bulkCorrect hu).bulkRun)

@[simp] theorem MemOk.execBfill : NextOk (execBfill core cw s) :=
  (h.runHead (fun _ _ h => .ite h (.ite h.bulkError h.bulkMap))).next

@[simp] theorem MemOk.execBadd : NextOk (execBadd core cw s) :=
  (h.runHead (fun _ _ h => .ite h (.ite h.bulkError h.bulkMap))).next

@[simp] theorem MemOk.execBaxpy : NextOk (execBaxpy core cw s) :=
  (h.runHead (fun _ _ h => .ite h (.ite h.bulkError h.bulkMap))).next

@[simp] theorem MemOk.execBred : NextOk (execBred core cw s) := by
  refine MemOk.next (h.runHead fun _ _ h => .ite h (.ite h.bulkError ?_))
  extract_lets
  refine .ite h.bulkError ?_
  split
  next x t ex =>
    split
    next y u ey =>
      have hu : MemOk u := (h.bulkXlate.of_pair ex).bulkXlate.of_pair ey
      refine .ite hu.bulkError (.ite hu.postIn ?_)
      extract_lets
      split <;> exact hu.bulkCorrect.bulkRun

end

/-! ### System -/

section
variable {s : State} (h : MemOk s) {x ctx : Nat} {a d b : BitVec 5} {w all : Bool} {v : Word}
include h

theorem MemOk.dropUnit {kind i va : Nat} : MemOk (s.dropUnit x kind i all va) := by
  unfold State.dropUnit
  split
  · exact h.modCore
  · exact h.modCluster
  · exact h.modWalker
  · exact h.modCluster
  · exact h

theorem MemOk.flushCtx : MemOk (s.flushCtx x) := h.foldl fun _ _ h => h.dropUnit

theorem MemOk.invalidate {va : Word} : MemOk (s.invalidate all va) :=
  .ite h.stall (.ite h.advance (h.foldl (fun _ _ h => h.post)).modMe)

@[simp] theorem MemOk.execTlbi : NextOk (execTlbi w a s) := h.word fun _ h => .ite h.trapWith h.invalidate

@[simp] theorem MemOk.execTlbiAll : NextOk (execTlbiAll w s) := h.word fun _ h => h.invalidate

@[simp] theorem MemOk.execTlbiInvalidate {core unit index : Nat} {va : BitVec 64} :
    NextOk (execTlbiInvalidate core unit index all va s) :=
  h.dropUnit.modCore.next

@[simp] theorem MemOk.execNlog : NextOk (execNlog w a b s) := h.word fun _ h => h.logAt.advance

theorem MemOk.setRect : MemOk (s.setRect x v) :=
  (h.modCtx.foldl (fun _ _ h => .ite h.modCluster h)).foldl fun _ _ h => h.modCluster

theorem MemOk.setQreq : MemOk (s.setQreq x v) := .ite h.modCtx.post h.modCtx

theorem MemOk.setOqcap : MemOk (s.setOqcap x v) := h.modCtx.posts

theorem MemOk.setField {i : Nat} : MemOk (s.setField x i v) := by
  unfold State.setField
  split
  · exact h.modCtx
  · exact h.setRect
  · exact h.modCtx
  · exact h.modCtx
  · exact h.modCtx
  · exact h.modCtx
  · exact h.modCtx
  · exact h.modCtx
  · exact h.modCtx
  · exact h.modCtx
  · exact h.modCtx
  · exact h.setOqcap
  · exact h.modCtx
  · exact h.modCtx
  · exact h.modCtx
  · exact h.modCtx
  · exact h.setQreq
  · exact h

theorem MemOk.ctxcWord {i : Instr} {zero : Word} {body : Nat → Word → State → State}
    (hbody : ∀ x y s, MemOk s → MemOk (body x y s)) :
    NextOk (ctxcWord i a zero body s) :=
  h.word fun _ h => .ite h.trapWith (hbody _ _ _ h)

@[simp] theorem MemOk.execCtxcQuery : NextOk (execCtxcQuery w d a s) := h.ctxcWord fun _ _ _ h => h.lateResult

@[simp] theorem MemOk.execCtxcRdf : NextOk (execCtxcRdf w d a s) := by
  refine h.ctxcWord fun _ _ _ h => ?_
  extract_lets
  split
  · exact h.trapWith
  · exact .ite h.trapWith h.lateResult

@[simp] theorem MemOk.execCtxcWrf : NextOk (execCtxcWrf w d a b s) := by
  refine h.ctxcWord fun _ _ _ h => ?_
  extract_lets
  split
  · exact h.trapWith
  · exact .ite h.trapWith h.setField.lateResult

@[simp] theorem MemOk.execQreqWrite {v : BitVec 64} : NextOk (execQreqWrite ctx v s) := (MemOk.ite h h.setQreq).next

@[simp] theorem MemOk.execOqcapWrite {v : BitVec 64} : NextOk (execOqcapWrite ctx v s) := (MemOk.ite h h.setOqcap).next

end

/-! ### Checkpoint -/

section
variable {s : State} (h : MemOk s) {ctx page : Nat}
include h

theorem MemOk.descWords {va : Word} {n : Nat} : MemOk (s.descWords va n).2 := by
  induction n generalizing s va with
  | zero => exact h
  | succ n ih =>
    unfold State.descWords
    split
    · exact h.translate.of_pair ‹_›
    next t _ =>
      have ht : MemOk t := h.translate.of_pair ‹_›
      extract_lets s1
      have h1 : MemOk s1 := ht.touch.correct
      split
      · exact h1
      · split
        · exact h1
        · split <;> exact (ih h1).of_pair ‹_›

@[simp] theorem MemOk.execCkpt {w : Bool} {d a b : BitVec 5} : NextOk (execCkpt w d a b s) := by
  refine h.word fun _ h => ?_
  extract_lets
  refine .ite h.trapChan ?_
  split
  · exact h.trapWith
  · split
    · exact (h.descWords.of_pair ‹_›).trapWith
    · extract_lets
      refine .ite (h.descWords.of_pair ‹_›).lateResult (.ite (h.descWords.of_pair ‹_›).lateResult ?_)
      refine .ite (h.descWords.of_pair ‹_›).lateResult ?_
      split
      · exact ((h.descWords.of_pair ‹_›).descWords.of_pair ‹_›).trapWith
      · extract_lets _ _ s1
        have h1 : MemOk s1 := ((h.descWords.of_pair ‹_›).descWords.of_pair ‹_›).foldl fun _ _ h => h.readWalk
        split
        · exact (h1.foldl (fun _ _ h => h.touch)).modCtx.post.lateResult
        · exact h1.lateResult

@[simp] theorem MemOk.execPagePreserve : NextOk (execPagePreserve ctx page s) := h.preservePage.next

@[simp] theorem MemOk.execArchiveStart : NextOk (execArchiveStart ctx s) := by
  refine MemOk.next ?_
  extract_lets
  split
  · exact h
  · exact .ite h h.modCtx.post

theorem MemOk.nextPage {x i : Nat} {k : Ckpt} : MemOk (s.nextPage x i k) := h.modCtx.post

@[simp] theorem MemOk.execArchivePage : NextOk (execArchivePage ctx page s) := by
  refine MemOk.next ?_
  extract_lets
  split
  · exact h
  · refine .ite h ?_
    split
    · exact h.post
    · extract_lets copy s1 _ _ _ s2
      clear_value copy
      have h1 : MemOk s1 := h.deviceRead
      have h2 : MemOk s2 := by
        unfold s2
        split
        · exact h1.copyPage
        · exact h1.clearD.copyPage
      exact .ite h1.nextPage (.ite h1.ckptFails h2.deviceWrite.deviceWrite.nextPage)

@[simp] theorem MemOk.execCheckpointComplete : NextOk (execCheckpointComplete ctx s) := by
  refine MemOk.next ?_
  split
  · exact h
  · exact .ite h h.modCtx.note

end

/-! ### Timelines -/

section
variable {s : State} (h : MemOk s) {cluster x slot out ctx core cl : Nat} {cseq : BitVec 8}
include h

@[simp] theorem MemOk.execPromiseArrival {v : Word} : NextOk (execPromiseArrival cluster slot cseq v s) := by
  refine MemOk.next ?_
  split
  · exact h.toBacking
  · exact .ite h h.modCluster.retest.closeIn

theorem MemOk.sendPromise {o : OutSlot} {a : Word} : MemOk (s.sendPromise cl out o a) := h.modCluster.inject

@[simp] theorem MemOk.execPromiseSend : NextOk (execPromiseSend cluster out s) := by
  refine MemOk.next ?_
  split
  · exact h
  · exact .ite (.ite h h.sendPromise.modCluster) (.ite (.ite h.sendPromise.modCluster h) h)

@[simp] theorem MemOk.execAskSend : NextOk (execAskSend cluster slot s) := by
  refine MemOk.next ?_
  extract_lets
  split
  · exact h
  · exact .ite h ((h.foldl (fun _ _ h => h.modCluster.inject)).foldl (fun _ _ h => h.postOnce))

@[simp] theorem MemOk.execAskArrival : NextOk (execAskArrival cluster out s) := by
  refine MemOk.next ?_
  split
  · exact h.toBacking
  · split
    · exact h
    · exact .ite h h.modCluster.post

@[simp] theorem MemOk.execTransit : NextOk (execTransit cluster slot s) := by
  refine MemOk.next ?_
  extract_lets
  split
  · exact h
  · exact .ite h.modCluster.enterEntry.closeIn.refloor h

theorem MemOk.dropEvent {m : Item} {t : Nat} : MemOk (s.dropEvent cl m t) := by
  unfold State.dropEvent
  extract_lets _ _ _ s1
  have h1 : MemOk s1 := .ite h.modCluster.note h.modCluster
  exact .ite h1.modCluster.counted h1

@[simp] theorem MemOk.execEventArrival {src : BitVec 12} {stamp p0 : Word} :
    NextOk (execEventArrival cluster slot cseq src stamp p0 s) := by
  refine MemOk.next ?_
  split
  · exact h.toBacking
  · exact .ite h.countReceived.dropEvent h.countReceived.newId.setItem.deliver

@[simp] theorem MemOk.execTaskEntry : NextOk (execTaskEntry cluster s) := by
  refine MemOk.next (.ite h ?_)
  extract_lets
  split
  · exact h
  · split
    · exact h
    · exact h.enterEntry.post

theorem MemOk.yieldWrite {r : Rec} {timed : Bool} : MemOk (s.yieldWrite core r timed) :=
  .ite h.modCore.postIn (MemOk.ite h.newId.setItem.post (.ite h.newId.setItem h.newId.setItem.post)).freeCore.timelineEnds

@[simp] theorem MemOk.execYieldComplete : NextOk (execYieldComplete core s) := by
  refine MemOk.next ?_
  extract_lets
  split
  · exact .ite h (MemOk.ite h h.releaseKeys.modCore.post).yieldWrite
  · exact h.yieldWrite
  · exact h

theorem MemOk.publishAt {r : Nat} {m : Word} : MemOk (s.publishAt x r m) := by
  unfold State.publishAt
  extract_lets
  split
  · exact h.modSurv
  · exact h.modSurv.foldl fun _ _ h => .ite h h.modCluster.retestAll

theorem MemOk.beginCircuit : MemOk (s.beginCircuit x) := h.modCtx.postIn

theorem MemOk.sendToken {r : Nat} : MemOk (s.sendToken x r) := h.offerIn

@[simp] theorem MemOk.execTokenStart : NextOk (execTokenStart ctx s) := (MemOk.ite h (.ite h h.beginCircuit.postIn)).next

theorem MemOk.tokenTakes {iface : Nat} {mh : Word} : MemOk (s.tokenTakes x iface mh) := h.modCtx.modSurv

theorem MemOk.tokenFreed : MemOk (s.tokenFreed x) := h.posts

theorem MemOk.endCircuit : MemOk (s.endCircuit x) := by
  unfold State.endCircuit
  extract_lets s1 _ _ _ _ _ _ s2 s3
  have h1 : MemOk s1 := h.foldl fun _ _ h => h.tokenTakes
  have h2 : MemOk s2 := .ite h1.modCtx.note h1.modCtx
  have h3 : MemOk s3 := by
    unfold s3
    split
    · exact h2
    · exact .ite h2.post h2
  exact .ite h3.beginCircuit.sendToken h3.modCtx.tokenFreed

@[simp] theorem MemOk.execSurveyVisit : NextOk (execSurveyVisit ctx s) := by
  refine MemOk.next ?_
  extract_lets _ _ _ s1
  have h1 : MemOk s1 := by
    unfold s1
    split
    · exact h.tokenTakes
    · exact h.tokenTakes.publishAt
  exact .ite h (.ite h.modCtx (.ite h1.modCtx.endCircuit h1.modCtx.sendToken))

@[simp] theorem MemOk.execSurvstall : NextOk (execSurvstall ctx s) := (MemOk.ite h.modCtx.note h).next

end

/-! ### Messages -/

section
variable {s : State} (h : MemOk s) {core seq cl t : Nat} {a d k b : BitVec 5} {w : Bool} {v head sa : Word}
include h

theorem MemOk.withHead {i : Instr} {bad : Word → Bool} {go : State → State} (hgo : ∀ s, MemOk s → MemOk (go s)) :
    MemOk (s.withHead i head bad go) := by
  unfold State.withHead
  extract_lets
  split
  · exact h.trapWith
  · exact .ite h.trap (.ite h.trap (hgo _ h))

theorem MemOk.enqueue {e : SendEntry} {after : Core → Core} : MemOk (s.enqueue sa e after) := .ite h.trap h.modMe.kick.advance

@[simp] theorem MemOk.execSend : NextOk (execSend w d a b k s) := by
  refine h.word fun _ h => h.withHead fun _ h => .ite h.trapChan ?_
  extract_lets
  split
  · refine .ite h.trapWith ?_
    split
    · exact h.trapChan
    · exact h.enqueue
  · refine .ite h.trapChan ?_
    split
    · exact h.trapChan
    · exact .ite h.trap h.modCluster.enqueue

@[simp] theorem MemOk.execPost : NextOk (execPost w d a k s) :=
  h.word fun _ h => h.withHead (fun _ h => .ite h.trapChan (.ite h.trapWith h.enqueue))

theorem MemOk.replyCore {named : Word} {target : Nat} {host : Bool} : MemOk (s.replyCore head sa named target host k) :=
  .ite h.enqueue (.ite h.trapWith h.enqueue)

@[simp] theorem MemOk.execReply : NextOk (execReply w d k s) := h.word fun _ h => h.withHead (fun _ h => h.replyCore)

@[simp] theorem MemOk.execReplyTo : NextOk (execReplyTo w d a k s) :=
  h.word fun _ h => h.withHead (fun _ h => .ite h.trapChan h.replyCore)

theorem MemOk.closeAfter {e : SendEntry} : MemOk (s.closeAfter cl e) := by
  unfold State.closeAfter
  split
  · exact h
  · exact .ite h.post h

@[simp] theorem MemOk.execSendInject : NextOk (execSendInject core s) := by
  refine MemOk.next ?_
  extract_lets
  split
  · exact h
  · exact .ite h (.ite h.machineCheck.setCore.closeAfter.kick (MemOk.ite h.softLog
      h).setCore.modCluster.countSent.inject.closeAfter.kick)

@[simp] theorem MemOk.execTlnew : NextOk (execTlnew w d a b s) :=
  h.word fun _ h => .ite h.trapChan (.ite h.trapChan (.ite h.trapWith h.same.modMe.post.advance))

theorem MemOk.answerQuery {c code din : Nat} : MemOk (s.answerQuery c seq v code din) := h

theorem MemOk.closeQuery {q : Query} : MemOk (s.closeQuery q v) := h.same.modCore.kick

theorem MemOk.placeTimeline {defh intake : Word} {opn : Bool} {hor : Word} :
    MemOk (s.placeTimeline cl t defh intake opn hor) :=
  h.modCluster

theorem MemOk.fenceRefuses {n : Nat} {q : Query} {operand : Word} : MemOk (s.fenceRefuses n cl q operand) :=
  h.countNak.defer.same.modCore.kick

@[simp] theorem MemOk.execTlnewAtCluster : NextOk (execTlnewAtCluster core seq s) := by
  refine MemOk.next ?_
  split
  · exact h
  · split
    · extract_lets
      refine .ite h.postIn ?_
      split
      · exact h.fenceRefuses
      · split
        · exact h.answerQuery.postLate
        · exact h.placeTimeline.answerQuery.postLate
    · exact h

@[simp] theorem MemOk.execTlnewResult : NextOk (execTlnewResult core seq s) := by
  refine MemOk.next ?_
  split
  · exact h
  · split
    · exact h.closeQuery
    · exact h

@[simp] theorem MemOk.execTlfree : NextOk (execTlfree w a s) :=
  h.word fun _ h => .ite h.trapChan (.ite h.trapWith h.post.advance)

theorem MemOk.withdrawHead {e : TEntry} : MemOk (s.withdrawHead cl t e) := by
  unfold State.withdrawHead
  extract_lets _ _ s1
  have h1 : MemOk s1 := by
    unfold s1
    split
    · exact h.dropEntry
    · exact h.dropEntry.deadItem.dropItem
  exact h1.freeTimeline

@[simp] theorem MemOk.execTlfreeArrival {cluster : Nat} {ask : TlFree} : NextOk (execTlfreeArrival cluster ask s) := by
  refine MemOk.next (.ite h.postIn ?_)
  split
  · exact h.countNak
  · extract_lets
    refine .ite h ?_
    split
    · exact h.freeTimeline
    · exact h.freeTimeline
    · exact h.modCluster
    · split
      · exact h.modCluster
      · exact h.modCluster.withdrawHead
    · exact h
    · exact h
    · exact h

@[simp] theorem MemOk.execPromise : NextOk (execPromise w a s) :=
  h.word fun _ h => .ite h.trapChan (.ite h.trapChan h.modMe.refloor.advance)

@[simp] theorem MemOk.execChopen : NextOk (execChopen w d a b s) := by
  refine h.word fun _ h => ?_
  extract_lets
  refine .ite h.trapChan (.ite h.trapChan ?_)
  refine .ite h.trapWith ?_
  extract_lets
  split
  · exact h.modMe.same.postLate.advance
  · exact h.modMe.modCluster.same.post.advance

@[simp] theorem MemOk.execChopenAtTarget : NextOk (execChopenAtTarget core seq s) := by
  refine MemOk.next ?_
  split
  · exact h
  · split
    · extract_lets
      refine .ite h.postIn ?_
      split
      · exact h.modCluster.fenceRefuses
      · refine .ite h.answerQuery.postLate (.ite h.answerQuery.postLate ?_)
        split
        · exact h.answerQuery.postLate
        · exact .ite h.answerQuery.postLate h.modCluster.retest.answerQuery.postLate
    · exact h

@[simp] theorem MemOk.execChopenResult : NextOk (execChopenResult core seq s) := by
  refine MemOk.next ?_
  split
  · exact h
  · split
    · exact (MemOk.ite (.ite h.modCluster h.modCluster.post) (.ite h h.modCluster)).closeQuery.refloor
    · exact h

@[simp] theorem MemOk.execChclose : NextOk (execChclose w a s) := h.word fun _ h => .ite h.trapChan h.modCluster.post.advance

@[simp] theorem MemOk.execNstat {sel : BitVec 4} : NextOk (execNstat w d a sel s) :=
  h.word fun _ h => .ite h.trapWith h.result

end

/-! ### Desk -/

section
variable {s : State} (h : MemOk s) {tag cluster slice cond core seq ctx : Nat} {key : BitVec 16} {a d : BitVec 5} {w : Bool}
include h

@[simp] theorem MemOk.execTsub {k : BitVec 5} : NextOk (execTsub w d a k s) := by
  refine h.word fun _ h => ?_
  extract_lets
  split
  · exact h.trapWith
  · exact .ite h.trap (.ite h.trap (.ite h.trapWith (.ite h.trap h.newId.setItem.modMe.kick.advance)))

@[simp] theorem MemOk.execTsubRecordWrite : NextOk (execTsubRecordWrite core seq s) := by
  refine MemOk.next ?_
  extract_lets
  split
  · refine .ite h ?_
    split
    next o t e =>
      have ht : MemOk t := h.setCore.newId.of_pair e
      refine MemOk.kick ?_
      split
      · exact ht
      · exact ht.setItem.post
  · exact h

@[simp] theorem MemOk.execKrel : NextOk (execKrel w a s) := by
  refine h.word fun _ h => ?_
  extract_lets
  split
  · exact h.trap
  · exact (MemOk.ite h.modMe (h.foldl (fun _ _ h => h.modCore))).modMe.kick.advance

@[simp] theorem MemOk.execKrelSent : NextOk (execKrelSent core seq s) := by
  refine MemOk.next ?_
  extract_lets
  split
  · exact .ite h h.setCore.sendKrel.post.kick
  · exact h

@[simp] theorem MemOk.execKheld : NextOk (execKheld w d a s) := h.word fun _ h => .ite h.trap h.same.modMe.inject.advance

theorem MemOk.deskAnswers {sl x cl val : Nat} {o : DeskOp} {e : Event} : MemOk (s.deskAnswers sl x cl tag val o e) :=
  h.injectIn

theorem MemOk.grant {e : KeyEntry} : MemOk (s.grant slice e) := .ite h.deskAnswers h.modSlice

theorem MemOk.passKey {e : KeyEntry} : MemOk (s.passKey slice e) := by
  unfold State.passKey
  split
  · exact h.modSlice
  · exact h.modSlice.grant

@[simp] theorem MemOk.execDeskKreq : NextOk (execDeskKreq slice ctx cluster tag key s) := by
  refine MemOk.next ?_
  extract_lets
  split
  · exact .ite h.deskAnswers h.modSlice.grant
  · exact .ite h.deskAnswers h.modSlice

@[simp] theorem MemOk.execDeskKrel : NextOk (execDeskKrel slice ctx cluster tag key s) := by
  refine MemOk.next ?_
  split
  · exact h
  · exact .ite h.passKey h

@[simp] theorem MemOk.execDeskKcancel : NextOk (execDeskKcancel slice ctx cluster tag key s) := by
  refine MemOk.next ?_
  split
  · exact h
  · exact .ite h.passKey h.modSlice

@[simp] theorem MemOk.execKrunAtDesk : NextOk (execKrunAtDesk slice ctx cluster tag key s) := by
  refine MemOk.next ?_
  split
  · exact h
  · exact .ite h.modSlice h

@[simp] theorem MemOk.execKqueryAtDesk : NextOk (execKqueryAtDesk core seq s) := by
  refine MemOk.next ?_
  split
  · exact h
  · split
    · exact h.answerQuery.injectIn
    · exact h

@[simp] theorem MemOk.execKstatArrival : NextOk (execKstatArrival core seq s) := by
  refine MemOk.next ?_
  split
  · exact h
  · split
    · exact h.closeQuery
    · exact h

@[simp] theorem MemOk.execKgrantArrival : NextOk (execKgrantArrival cluster tag key s) := by
  refine MemOk.next ?_
  extract_lets
  split
  · exact h.toBacking
  · split
    · exact h.sendKrel
    · refine .ite h.sendKrel ?_
      extract_lets
      split
      · exact (MemOk.ite h.postIn h).setEntry.sendKreq
      · split
        · exact (MemOk.ite h.postIn h).setEntry
        · exact (MemOk.ite h.postIn h).setEntry.registerConds

@[simp] theorem MemOk.execKrefuseArrival : NextOk (execKrefuseArrival cluster tag key s) := by
  refine MemOk.next ?_
  split
  · exact h
  · exact .ite h h.setEntry.postIn

@[simp] theorem MemOk.execKeyRetry : NextOk (execKeyRetry cluster tag s) := by
  refine MemOk.next ?_
  split
  · exact h
  · extract_lets
    refine .ite h ?_
    split
    · exact h
    · exact h.setEntry.sendKreq

@[simp] theorem MemOk.execWregAtSlice : NextOk (execWregAtSlice cluster tag cond s) := by
  refine MemOk.next ?_
  split
  · exact h
  · split
    · exact h
    · refine .ite h ?_
      split
      · exact h
      · exact .ite h.postIn (.ite h.abandon (.ite h.correct.deskAnswers (.ite h.correct (.ite h.correct.modSlice.setEntry
          h.correct.deskAnswers))))

@[simp] theorem MemOk.execWmetArrival : NextOk (execWmetArrival cluster tag cond s) := by
  refine MemOk.next ?_
  split
  · exact h.toBacking
  · split
    · exact h
    · split
      · exact h
      · exact .ite h (.ite h.makeReady h.setEntry)

@[simp] theorem MemOk.execWrefuseArrival : NextOk (execWrefuseArrival cluster tag cond s) := by
  refine MemOk.next ?_
  split
  · exact h.toBacking
  · split
    · exact h
    · exact .ite h h.setEntry.postIn

@[simp] theorem MemOk.execWatchPoll : NextOk (execWatchPoll cluster tag cond s) := by
  refine MemOk.next ?_
  split
  · exact h
  · split
    · exact h
    · exact .ite h.sendWreg h

@[simp] theorem MemOk.execWcancelAtSlice : NextOk (execWcancelAtSlice slice cluster tag cond s) := h.modSlice.next

@[simp] theorem MemOk.execDwait : NextOk (execDwait cluster tag s) := by
  refine MemOk.next ?_
  split
  · exact h
  · split
    · exact .ite h h.setEntry.note
    · exact h

end

/-! ### Dispatcher -/

section
variable {s : State} (h : MemOk s) {core cluster tag cl : Nat} {gang : BitVec 16} {k : BitVec 5} {w : Bool}
include h

theorem MemOk.deferBulk : MemOk (s.deferBulk cl) := by
  unfold State.deferBulk
  extract_lets
  refine h.foldl fun _ _ h => (.ite h ?_)
  split
  · exact h.setEntry.postIn
  · exact h.setEntry
  · exact h

theorem MemOk.holdForQuad : MemOk (s.holdForQuad cl) := by
  unfold State.holdForQuad
  extract_lets s1
  have h1 : MemOk s1 := h.foldl fun _ _ h => .ite h.modCore h
  exact .ite h1.post h1

@[simp] theorem MemOk.execDispatch : NextOk (execDispatch cluster s) := by
  refine MemOk.next ?_
  extract_lets
  refine .ite h ?_
  extract_lets
  refine .ite h.unhold.deferBulk.holdForQuad ?_
  extract_lets
  split
  · exact .ite h.unhold.deferBulk.setEntry.posts (.ite (.ite h.unhold.deferBulk.startTask (h.unhold.deferBulk.modCluster.foldl
      (fun _ _ h => h.modCore))) h.unhold.deferBulk.startTask.post)
  · exact h.unhold.deferBulk

@[simp] theorem MemOk.execPriorityPromotion : NextOk (execPriorityPromotion cluster tag s) := by
  refine MemOk.next ?_
  split
  · exact h
  · exact h.post

@[simp] theorem MemOk.execQuadHoldRequest : NextOk (execQuadHoldRequest cluster tag s) := by
  refine MemOk.next ?_
  split
  · exact h
  · exact .ite h h.modRouter.posts

@[simp] theorem MemOk.execQuadGangStart {quad : Nat} : NextOk (execQuadGangStart quad s) := by
  refine MemOk.next ?_
  extract_lets
  split
  · exact h
  · refine .ite h (.ite h ?_)
    split
    · exact h
    · split
      · exact h
      · exact h.modRouter.startTask

theorem MemOk.completePhase {b : Barrier} : MemOk (s.completePhase gang b) := by
  unfold State.completePhase
  refine h.foldl fun _ _ h => ?_
  extract_lets
  refine .ite h ?_
  extract_lets
  split
  · exact .ite h.modCore.postIn h.modCore
  · exact h.modCore

theorem MemOk.settleBarrier {b : Barrier} {n : Nat} : MemOk (s.settleBarrier gang b n).2 := by
  induction n generalizing s b with
  | zero => exact h
  | succ n ih =>
    unfold State.settleBarrier
    split
    · exact ih h.completePhase
    · exact h

@[simp] theorem MemOk.execBarrierArrival : NextOk (execBarrierArrival core s) := by
  refine MemOk.next ?_
  split
  · exact h
  · extract_lets s1 _ _ _ _ s2
    have h1 : MemOk s1 := h.modCore
    have h2 : MemOk s2 := .ite h1 h1.settleBarrier.setBarrier
    split
    · exact .ite h2.post h2
    · exact h2

@[simp] theorem MemOk.execBarrierExit : NextOk (execBarrierExit core s) := by
  refine MemOk.next ?_
  extract_lets _ _ r
  have hr : MemOk r.2 := h.settleBarrier
  split
  · refine .ite h (.ite hr.releaseKeys.setBarrier.freeCore.timelineEnds ?_)
    exact .ite hr.setBarrier.freeCore hr.setBarrier.freeCore.refloor
  · exact h

@[simp] theorem MemOk.execBarrierWake : NextOk (execBarrierWake core s) := by
  refine MemOk.next ?_
  extract_lets
  split
  · exact .ite h h.setBarrier.setCore
  · exact h

theorem MemOk.arrive {m : BitVec 5} : MemOk (s.arrive m) := h.modMe.kick

theorem MemOk.barWait : MemOk s.barWait := h.waited fun _ h => .ite h.modMe.advance h.setBarrier.modMe

@[simp] theorem MemOk.execBara : NextOk (execBara w k s) := h.word fun _ h => .ite h.trap (.ite h.stall h.arrive.advance)

@[simp] theorem MemOk.execBarw : NextOk (execBarw w s) := h.word fun _ h => .ite h.trap h.barWait

@[simp] theorem MemOk.execBar : NextOk (execBar w k s) :=
  h.word fun _ h => .ite h.trap (.ite h.barWait (.ite h.stall h.arrive.modMe.barWait))

@[simp] theorem MemOk.execBarArrivalSent {seq : Nat} : NextOk (execBarArrivalSent core seq s) := by
  refine MemOk.next ?_
  extract_lets
  split
  · exact .ite h h.setCore.postIn.kick
  · exact h

end

/-! ### Fpu -/

section
variable {s : State} (h : MemOk s)
include h

theorem MemOk.fpu3 {i : Instr} {d a b : BitVec 5} {y : BitVec 4} {f : Fmt → BitVec 3 → Nat → Nat → Nat × Flags} :
    NextOk (fpu3 i d a b y f s) :=
  h.word fun _ h => h.fpResult

end

/-! ### Csr -/

section
variable {s : State} (h : MemOk s)
include h

theorem MemOk.csrWrite {n : Nat} {v : Word} : MemOk (s.csrWrite n v) := by
  unfold State.csrWrite
  split
  · exact h.modMe
  · exact h.modMe
  · exact h.modMe
  · exact h.modMe
  · exact h.modMe
  · exact h.modMe
  · exact h.modMe
  · exact h.modMe
  · exact h.modMe
  · exact h.modMe
  · exact h.modMe
  · exact h.modMe
  · exact h.modCtx
  · exact h.modMe
  · exact h.modMe
  · exact h.modMe
  · exact h.post
  · exact h.post
  · exact h.post
  · exact h.post
  · exact h.post
  · exact .ite h (.ite h.posts h.post)
  · exact h.post

theorem MemOk.csrWord {i : Instr} {d : BitVec 5} {c : BitVec 12} {new : Core → Word → Option Word} :
    NextOk (csrWord i d c new s) := by
  refine h.word fun _ h => ?_
  extract_lets
  split
  · exact .ite h.trap h.trap
  · refine .ite h.trap ?_
    extract_lets body
    have hb : ∀ s, MemOk s → MemOk (body s) := by
      intro s h
      unfold body
      split
      · exact h.result
      · exact .ite h.trap (.ite h.trap (.ite h.trap h.csrWrite.modMe.result))
    exact .ite (h.waited hb) (hb _ h)

end

/-! ### Control -/

section
variable {s : State} (h : MemOk s) {core : Nat} {w : Bool} {i : Instr}
include h

@[simp] theorem MemOk.execTend {a : BitVec 5} {n : BitVec 14} : NextOk (execTend w a n s) :=
  h.wordWaits fun _ h => .ite h.endTrapped (.ite h.modMe.kick (h.access (fun _ _ _ h => .ite h.trapWith (.ite h.stallOn
    h.modMe.kick))))

theorem MemOk.signalEnd {x : Nat} {sig : Option (Nat × Word)} : MemOk (s.signalEnd core x sig) := by
  unfold State.signalEnd
  split
  · exact h
  · split
    · exact (h.addCounter.of_pair ‹_›).mirror
    · exact (h.addCounter.of_pair ‹_›).note

@[simp] theorem MemOk.execTendComplete : NextOk (execTendComplete core s) := by
  refine MemOk.next ?_
  extract_lets
  split
  · exact .ite h (.ite h.postIn (.ite h.releaseKeys.signalEnd.freeCore.timelineEnds h.signalEnd.modCore.post))
  · exact h

@[simp] theorem MemOk.execYield {n : BitVec 14} : NextOk (execYield w n s) :=
  h.wordWaits fun _ h => .ite h.trap (.ite h.trapChan (.ite h.trapChan (.ite h.trapChan h.modMe.kick)))

@[simp] theorem MemOk.execTrap {n : BitVec 14} : NextOk (execTrap w n s) := h.word fun _ h => h.trap

@[simp] theorem MemOk.execSysc {n : BitVec 14} : NextOk (execSysc w n s) := h.word fun _ h => h.trapWith

@[simp] theorem MemOk.execEret : NextOk (execEret w s) := h.word fun _ h => .ite h.trap (h.waited (fun _ h => h.returnTrap))

@[simp] theorem MemOk.execIllegalWord {x : BitVec 32} : NextOk (execIllegalWord x s) := h.trap.next

@[simp] theorem MemOk.execTrapEntry : NextOk (execTrapEntry core s) := by
  refine MemOk.next ?_
  extract_lets
  split
  · exact .ite h h.modCore.enterTrap
  · exact h

@[simp] theorem MemOk.execWatchdog : NextOk (execWatchdog core s) := by
  refine MemOk.next ?_
  extract_lets
  refine .ite h ?_
  split
  · exact h.modCore.takeTrap
  · exact h.modCore.takeTrap
  · exact h.modCore.takeTrap
  · exact h.modCore.takeTrap
  · exact h.modCore.takeTrap
  · exact h
  · exact h
  · exact h
  · exact h
  · exact h
  · exact h
  · exact h

theorem MemOk.mismatch {x : BitVec 32} {n : Nat} : MemOk (s.mismatch x n) :=
  .ite h.modMe.logAt.trap (.ite h.modMe.modMe.logAt h.modMe.modMe)

theorem MemOk.checkRegs {x : BitVec 32} : OptOk (s.checkRegs i x) := .ite h.logAt.trap.some OptOk.none

theorem MemOk.correctRegs : MemOk (s.correctRegs i) := .ite h (h.modMe.foldl (fun _ _ h => h.draw.logAt))

end

/-! ### Tiles -/

section
variable {s : State} (h : MemOk s) {id : Nat} {r : MReq}
include h

theorem MemOk.planGroups {kind : Access} {l : List (Nat × Word × Nat)} : MemOk (s.planGroups kind l).2 := by
  induction l generalizing s with
  | nil => exact h
  | cons g t ih =>
    unfold State.planGroups
    split
    · exact h.translate.of_pair ‹_›
    · split
      · exact h.translate.of_pair ‹_›
      · split <;> exact (ih (h.translate.of_pair ‹_›)).of_pair ‹_›

omit h in
theorem MemOk.tilePlanAdd {p : TilePlan} {ea : Word} {whole write : Bool} {row : BitVec 6} (h : MemOk p.s) :
    MemOk (p.add ea whole write row).s := by
  unfold TilePlan.add
  split
  · exact h
  · extract_lets
    split
    · exact h.translate.of_pair ‹_›
    next t _ =>
      have ht : MemOk t := h.translate.of_pair ‹_›
      extract_lets p _ _ _ apart p₁ _ _ p₂
      have hp : MemOk p₂.s := by
        unfold p₂
        split <;> exact ht
      clear_value apart p₂
      split
      · exact ht
      split
      · exact ht
      split
      · exact ht
      split
      · exact hp
      split <;> exact hp.planGroups.of_pair ‹_›

omit h in
theorem MemOk.tilePlanAdds {ea : Word} {rows : List (BitVec 6)} {whole write : Bool} {p : TilePlan} (h : MemOk p.s) :
    MemOk (rows.foldl (fun p r => p.add ea whole write r) p).s := by
  induction rows generalizing p with
  | nil => exact h
  | cons r t ih => exact ih h.tilePlanAdd

theorem MemOk.planTile {t : BitVec 3} {ea : Word} {rows : List (BitVec 6)} {whole write : Bool} :
    MemOk (s.planTile t ea rows whole write).s :=
  MemOk.tilePlanAdds (p := { s := s, tag := _, geo := _ }) h

theorem MemOk.tileLoad {t : BitVec 3} {rows : List (BitVec 6)} {whole : Bool} {ea : Core → Word} {i : Instr} :
    NextOk (tileLoad i t rows whole ea s) := by
  refine h.word fun _ h => ?_
  extract_lets _ p
  have hp : MemOk p.s := h.planTile
  split
  · exact h.trapWith
  · split
    · exact hp.trapWith
    · exact .ite hp.stall hp.modMe.issueAll.advance

theorem MemOk.tileStore {t : BitVec 3} {rows : List (BitVec 6)} {whole : Bool} {ea : Core → Word} {i : Instr} :
    NextOk (tileStore i t rows whole ea s) := by
  refine h.word fun _ h => ?_
  extract_lets _ p
  have hp : MemOk p.s := h.planTile
  split
  · exact h.trapWith
  · split
    · exact hp.trapWith
    · refine .ite hp.stall ?_
      split
      · exact hp.trapWith
      · exact .ite hp.stallOn hp.softTiles.issueAll.advance

@[simp] theorem MemOk.execRowLoadRequest : NextOk (execRowLoadRequest id s) := (h.atTarget (fun _ _ h => h.readAt)).next

@[simp] theorem MemOk.execRowStoreRequest : NextOk (execRowStoreRequest id s) :=
  (h.atTarget (fun _ _ h => h.storeAt (fun _ h => h.bankStore))).next

theorem MemOk.writeSlots {slots : BitVec 3} : MemOk (s.writeSlots r slots) := h.slotsAt.mirror

@[simp] theorem MemOk.execScaleSlotWrite : NextOk (execScaleSlotWrite id s) := by
  refine MemOk.next (h.atTarget fun _ _ h => ?_)
  split
  · exact h.storeAt fun _ h => h.writeSlots
  · exact h

theorem MemOk.rowBack : MemOk (s.rowBack id r) := by
  unfold State.rowBack
  split
  · exact h.modCore.finishRows
  · exact h
  · exact h

@[simp] theorem MemOk.execRowLoadResponse : NextOk (execRowLoadResponse id s) := by
  refine MemOk.next ?_
  split
  · exact h
  · exact .ite h (h.setReq.foldl (fun _ _ h => h.rowBack)).post

end

/-! ### Matrix -/

section
variable {s : State} (h : MemOk s) {core c cluster code iv : Nat} {cw : BitVec 256} {p : BitVec 3} {y : BitVec 4} {w : Bool}
include h

@[simp] theorem MemOk.execReleaseMarkerHead : NextOk (execReleaseMarkerHead core s) := by
  refine MemOk.next ?_
  extract_lets
  split
  · exact h
  · exact .ite h h.setCore.modCluster.kickQueues.post

theorem MemOk.leaseLapse : MemOk (s.leaseLapse cluster) := by
  unfold State.leaseLapse
  split
  · exact h
  · exact .ite h h.modCluster

theorem MemOk.leaseTake {i n : Nat} : MemOk (s.leaseTake cluster i n) := by
  unfold State.leaseTake
  extract_lets
  split
  · exact h.modCluster
  · exact h.modCluster.modFront.post

@[simp] theorem MemOk.execLeaseGrant : NextOk (execLeaseGrant cluster s) := by
  refine MemOk.next ?_
  extract_lets
  refine .ite h.leaseLapse.postOnce ?_
  split
  · exact .ite h.leaseLapse.leaseTake h.leaseLapse
  · split
    · exact h.leaseLapse
    · exact .ite h.leaseLapse.postIn h.leaseLapse.leaseTake

@[simp] theorem MemOk.execMrls : NextOk (execMrls w s) := h.word fun _ h => (MemOk.ite h.modCluster.post h).advance

theorem MemOk.arrayStart {d : Nat} {f : QEntry → QEntry} : MemOk (s.arrayStart c iv d f) := h.modCluster.startEntry.postIn

theorem MemOk.arrayFault {d : Nat} {fl : Flags} : MemOk (s.arrayFault c code iv d fl) := h.arrayStart

theorem MemOk.arrayError {d : Nat} : MemOk (s.arrayError c code d) := h.arrayFault

theorem MemOk.correctSpad {cl : Nat} {l : List (Nat × Nat)} : MemOk (s.correctSpad cl l) :=
  .ite h (h.foldl (fun _ _ h => h.correct))

theorem MemOk.startMm {zero : Bool} {e : QEntry} : MemOk (s.startMm core cw zero e) := by
  unfold State.startMm
  extract_lets
  split
  · exact h.arrayError
  · extract_lets _ _ _ _ _ _ _ s1 s2 s3
    have h3 : MemOk s3 := h.correctSpad.softTiles.softAccs
    refine .ite h.arrayError (.ite h.arrayError (.ite h.arrayError (.ite h.arrayError ?_)))
    split
    next e =>
      have ht := h3.engineView.of_pair e
      exact .ite ht.arrayError (.ite ht.arrayError (.ite ht.modCluster.machineCheck.note.arrayFault
        (MemOk.ite ht.setCluster.logAt ht.setCluster).arrayStart))

@[simp] theorem MemOk.execMma : NextOk (execMma core cw s) := (h.runHead (fun _ _ h => h.startMm)).next

@[simp] theorem MemOk.execMmz : NextOk (execMmz core cw s) := (h.runHead (fun _ _ h => h.startMm)).next

@[simp] theorem MemOk.execAcrd : NextOk (execAcrd core cw s) := by
  refine MemOk.next (h.runHead fun _ _ h => ?_)
  extract_lets
  split
  · exact h.arrayError
  · exact .ite h.arrayError (.ite h.arrayError (.ite h.arrayError (.ite h.arrayError (.ite h.arrayError
      h.softAccs.arrayStart))))

@[simp] theorem MemOk.execAcwr : NextOk (execAcwr core cw s) := by
  refine MemOk.next (h.runHead fun _ _ h => ?_)
  extract_lets
  split
  · exact h.arrayError
  · exact .ite h.arrayError (.ite h.arrayError (.ite h.arrayError (.ite h.arrayError
      h.correctSpad.softAccs.engineView.setCluster.arrayStart)))

@[simp] theorem MemOk.execMtr : NextOk (execMtr core cw s) := by
  refine MemOk.next (h.runHead fun _ _ h => ?_)
  extract_lets
  split
  · exact .ite h.arrayError (.ite h.arrayError (.ite h.arrayError h.correctSpad.engineView.arrayStart))
  · exact h.arrayError

@[simp] theorem MemOk.execMva {c t : BitVec 3} : NextOk (execMva w c t p y s) := by
  refine h.word fun _ h => ?_
  extract_lets
  refine .ite h.trap (.ite h.stall ?_)
  split
  · exact h.trap
  · split
    · exact h.trapWith
    · exact h.softTiles.softAccs.modCluster.advance

@[simp] theorem MemOk.execAmv {t c : BitVec 3} : NextOk (execAmv w t c p y s) := by
  refine h.word fun _ h => ?_
  extract_lets
  refine .ite h.trap (.ite h.stall ?_)
  split
  · exact h.trap
  · exact h.stall
  · exact .ite h.modMe.modMe.defer.advance h.modMe.softAccs.modMe.advance

end

/-! ### Image -/

section
variable {s : State} (h : MemOk s) {base c cl : Nat}
include h

theorem MemOk.saveFields {σ : Type} {v : σ} {fs : List (ImageField σ)} : MemOk (s.saveFields base v fs) :=
  h.foldl fun _ _ h => .ite h.writeMem.spoil h.writeMem

/-- Clearing drops listed bytes. -/
theorem MemOk.zeroMem {a n : Nat} : MemOk (s.zeroMem a n) := memFrom_filter _ _ _ h

theorem MemOk.correctCore : MemOk (s.correctCore c) := h.softTiles.setCore.foldl fun _ _ h => h.softLog

theorem MemOk.saveBlock : MemOk (s.saveBlock base c) :=
  ((h.correctCore.touchAll.zeroMem.saveFields.foldl (fun _ _ h => h.addPoison)).foldl (fun _ _ h => h.addPoison)).watchesIn

theorem MemOk.loadBlock : MemOk (s.loadBlock base c) := h.deviceRead.setCore

theorem MemOk.readUnits : MemOk (s.readUnits cl) :=
  (h.softAccs.foldl (fun _ _ h => h.readItem)).modCluster.foldl fun _ _ h => ((h.foldl (fun _ _ h => .ite h.machineCheck (.ite
    h.softLog h))).foldl (fun _ _ h => h.foldl (fun _ _ h => .ite h.machineCheck (.ite h.softLog h)))).modCore

theorem MemOk.saveImage {conts : Nat} : MemOk (s.saveImage base cl conts) :=
  (h.readUnits.touchAll.zeroMem.saveFields.foldl (fun _ _ h => h.saveFields)).watchesIn

theorem MemOk.addItems : MemOk (s.addItems base cl) :=
  (h.foldl (fun _ _ h => h.newId.setItem)).foldl fun _ _ h => h.newId.setItem

theorem MemOk.addSends : MemOk (s.addSends base c) := h.modCore

theorem MemOk.dropSends : MemOk (s.dropSends base c) := h.modCore

theorem MemOk.addCommands : MemOk (s.addCommands base c) := h.foldl fun _ _ h => h.modCore

theorem MemOk.loadImage : MemOk (s.loadImage base cl) :=
  h.deviceRead.addItems.setCluster.modCluster.foldl fun _ _ h => h.addCommands.addSends.setCore.dropSends

theorem MemOk.saveWalker {i : Nat} : MemOk (s.saveWalker base i) := by
  unfold State.saveWalker
  extract_lets
  refine MemOk.watchesIn (h.saveFields.saveFields.foldl fun _ _ h => ?_)
  split
  · exact h
  · exact .ite h.writeMem.spoil h.writeMem

theorem MemOk.addRestart {i v : Nat} : MemOk (s.addRestart i v) := h.newId.modCore

theorem MemOk.loadWalker {i : Nat} : MemOk (s.loadWalker base i) :=
  ((h.deviceRead.modWalker.modRouter.foldl (fun _ _ h => h.modCore)).foldl (fun _ _ h => h.addRestart)).foldl fun _ _ h =>
    h.modCore

end

/-! ### Freeze -/

section
variable {s : State} (h : MemOk s) {x cl ctx c : Nat} {d a : BitVec 5} {w : Bool}
include h

theorem MemOk.stopCore : MemOk (s.stopCore c) := by
  unfold State.stopCore
  extract_lets
  split
  · exact .ite h.modCore.enterTrap h.setCore
  · exact .ite h.modCore.enterTrap h.setCore
  · exact .ite h.modCore.enterTrap h
  · exact .ite h.setCore h
  · exact .ite h.setCore h
  · exact .ite h.setCore h
  · exact h
  · exact h
  · exact h
  · exact h
  · exact h
  · exact h

theorem MemOk.stopTransfers : MemOk (s.stopTransfers c) := h

theorem MemOk.stopEngines : MemOk (s.stopEngines c) := h.stopTransfers.modCore

theorem MemOk.saveTask {block : Nat} {t : SavedTask} : MemOk (s.saveTask block t) := by
  unfold State.saveTask
  extract_lets _ s1
  have h1 : MemOk s1 := by
    unfold s1
    split
    · exact h.touchAll.zeroMem.watchesIn.deviceWrite
    · exact h.touchAll.zeroMem.watchesIn
  exact h1.foldl fun _ _ h => h.saveBlock

theorem MemOk.saveCont {a : Nat} {t : SavedTask} : MemOk (s.saveCont a t) := .ite h.deviceWrite.addPoison h.deviceWrite

theorem MemOk.saveTasks : MemOk (s.saveTasks x) := h.modCtx.foldl fun _ _ h => h.saveTask.modCtx

@[simp] theorem MemOk.execFreezeGraceEnd : NextOk (execFreezeGraceEnd ctx s) := by
  refine MemOk.next ?_
  extract_lets _ s1 s2
  have h2 : MemOk s2 := MemOk.foldl (h.foldl fun _ _ h => h.stopCore.stopEngines) fun _ _ h => h.modCluster
  exact .ite h (.ite h.postIn (.ite h2.saveTasks.post h2.postIn))

theorem MemOk.headState : MemOk (s.headState x) := h.deviceWrite

theorem MemOk.saveHeader : MemOk (s.saveHeader x) := h.touchAll.zeroMem.writeMem.watchesIn

@[simp] theorem MemOk.execFreezeDone : NextOk (execFreezeDone ctx s) := by
  refine MemOk.next ?_
  extract_lets _ _ _ s1 s2
  have h1 : MemOk s1 := by
    refine h.foldl fun _ _ h => ?_
    extract_lets _ _ s3
    have h3 : MemOk s3 := h.saveImage.foldl fun _ _ h => h.saveCont
    exact .ite h3.saveWalker h3
  have h2 : MemOk s2 := h1.foldl fun _ _ h => h.backWrite
  exact .ite h (.ite h.post h2.flushCtx.modCtx.saveHeader.fwNote)

theorem MemOk.unitsOut : MemOk (s.unitsOut x) := h.modCtx.same.foldl fun _ _ h => h.modRouter

theorem MemOk.unitsIn : MemOk (s.unitsIn x) := (h.same.foldl (fun _ _ h => h.modRouter)).modCtx

theorem MemOk.replayMessage {m : Item} : MemOk (s.replayMessage cl m) :=
  .ite h.newId.setItem.deliver.post h.newId.setItem.deliver

theorem MemOk.replayEntry {a : Nat} {e : Option BackEntry} : MemOk (s.replayEntry x a e) := by
  unfold State.replayEntry
  extract_lets
  split
  · exact h.deviceRead.post
  · split <;> exact h.deviceRead.replayMessage

theorem MemOk.rekick : MemOk (s.rekick cl) := by
  unfold State.rekick
  extract_lets _ _ s1 s2 s3 s4 _
  have h1 : MemOk s1 := by
    unfold s1
    refine h.retestAll.foldl fun _ _ h => ?_
    split
    · exact .ite h h.postIn
    · exact h
  have h2 : MemOk s2 := by
    unfold s2
    refine h1.foldl fun _ _ h => ?_
    split
    · split
      · exact h
      · exact h.postIn
    · exact h.foldl fun _ _ h => .ite h.post h
    · exact h.postIn
    · exact h
  exact ((h2.foldl (fun _ _ h => .ite h.post h)).foldl (fun _ _ h => h.post)).posts.foldl fun _ _ h => h.kick.watch.kickQueues

theorem MemOk.deliverParked : MemOk (s.deliverParked x) := h.foldl fun _ _ h => h.foldl (fun _ _ h => h.modSlice.fromDesk)

theorem MemOk.endHolds : MemOk (s.endHolds x) :=
  ((h.foldl (fun _ _ h => h.modCluster)).foldl (fun _ _ h => h.modRouter)).giveBack

theorem MemOk.freeze : MemOk (s.freeze x) := h.endHolds.modCtx.postIn

theorem MemOk.resume {t : SavedTask} : MemOk (s.resume t) := by
  unfold State.resume
  extract_lets _ _ s1
  have h1 : MemOk s1 := by
    unfold s1
    split
    · exact h.deviceRead.setBarrier
    · exact h.deviceRead
  exact h1.foldl fun _ _ h => h.loadBlock.modCore

theorem MemOk.resumeAll {base : Nat} : MemOk (s.resumeAll x cl base) :=
  (h.foldl (fun _ _ h => h.foldl (fun _ _ h => h.modCore))).foldl fun _ _ h => h.resume.modCore

@[simp] theorem MemOk.execThawDone : NextOk (execThawDone ctx s) := by
  refine MemOk.next ?_
  extract_lets _ s1 s2 _ s3 _ _ _ s4 s5 s6 s7 s8 s9
  have h1 : MemOk s1 := h.foldl fun _ _ h => h.unitsOut
  have h3 : MemOk s3 := MemOk.deviceRead (.ite h1 h1.unitsIn)
  have h4 : MemOk s4 := h3.foldl fun _ _ h => .ite h.loadImage.resumeAll.loadWalker h.loadImage.resumeAll
  have h6 : MemOk s6 := h4.flushCtx.modCtx.headState.foldl fun _ _ h => h.replayEntry
  have h7 : MemOk s7 := h6.deliverParked
  have h8 : MemOk s8 := .ite h7.post (.ite h7.post h7)
  have h9 : MemOk s9 := by
    unfold s9
    split
    · exact .ite h8.post h8
    · exact h8
  exact .ite h (.ite h.postIn (h9.foldl fun _ _ h => h.rekick))

theorem MemOk.tear : MemOk (s.tear x) := by
  unfold State.tear
  extract_lets _ _ _ s1 s2 _ _ _ s3 _ s4
  have h3 : MemOk s3 := ((h.flushCtx.foldl (fun _ _ h => h.dsealAt)).foldl (fun _ _ h => h.modSlice)).foldl fun _ _ h =>
    h.zeroMem
  exact (MemOk.ite h3.same.tokenFreed h3.same).foldl fun _ _ h => h.modRouter

theorem MemOk.moveCtx {start : CtxState} {go : State → State} (hgo : ∀ s, MemOk s → MemOk (go s)) :
    MemOk (s.moveCtx d x start go) := by
  unfold State.moveCtx
  split
  · exact h.lateResult
  · exact h.lateResult
  · exact .ite (hgo _ h).lateResult h.lateResult

@[simp] theorem MemOk.execCtxcFrz : NextOk (execCtxcFrz w d a s) := h.ctxcWord fun _ _ _ h => h.moveCtx (fun _ h => h.freeze)

@[simp] theorem MemOk.execCtxcThaw : NextOk (execCtxcThaw w d a s) :=
  h.ctxcWord fun _ _ _ h => h.moveCtx (fun _ h => h.modCtx.headState.postIn)

@[simp] theorem MemOk.execCtxcTear : NextOk (execCtxcTear w d a s) := h.ctxcWord fun _ _ _ h => h.moveCtx (fun _ h => h.tear)

end

/-! ### Registers -/

section
variable {s : State} (h : MemOk s) {rect n off fn slice : Nat} {v : Word}
include h

theorem MemOk.slSettle : MemOk s.slSettle := h

@[simp] theorem MemOk.execSlwinWrite : NextOk (execSlwinWrite v s) := (MemOk.ite h h.same.slSettle.postIn).next

@[simp] theorem MemOk.execSlwinSwitchDone {win : BitVec 2} : NextOk (execSlwinSwitchDone slice win s) :=
  (MemOk.ite h (MemOk.ite h.zeroMem h).modSlice.same.slSettle).next

@[simp] theorem MemOk.execSlcolsWrite : NextOk (execSlcolsWrite v s) :=
  (MemOk.ite h (.ite h.fwNote h.same.slSettle.post)).next

@[simp] theorem MemOk.execSlcolsSwitch {cols : BitVec 4} : NextOk (execSlcolsSwitch cols s) :=
  (MemOk.ite h.same.slSettle h).next

@[simp] theorem MemOk.execPatrolScrub {addr : Nat} : NextOk (execPatrolScrub slice addr s) :=
  (MemOk.ite h.correct h).postIn.next

@[simp] theorem MemOk.execNlctlWrite : NextOk (execNlctlWrite v s) := (MemOk.ite h.same h).next

@[simp] theorem MemOk.execLnkstWrite : NextOk (execLnkstWrite v s) := (MemOk.ite h h.retrainAt).next

theorem MemOk.writeRect : MemOk (s.writeRect n v) := .ite h h.same

@[simp] theorem MemOk.execCnrectWrite : NextOk (execCnrectWrite v s) := h.writeRect.next

@[simp] theorem MemOk.execCnctlFence {on : Bool} : NextOk (execCnctlFence rect on s) :=
  (MemOk.ite h.same (h.same.foldl (fun _ _ h => h.post))).next

theorem MemOk.sendHeldKeys {k : Core} : MemOk (s.sendHeldKeys k) := by
  unfold State.sendHeldKeys
  refine h.foldl fun _ _ h => ?_
  split
  · exact h.sendKrel
  · exact h

theorem MemOk.resetCore {c : Nat} : MemOk (s.resetCore c) := (MemOk.ite h h.releaseKeys.sendHeldKeys).same.setCore

theorem MemOk.fenceDesks {fs : List Flit} : MemOk (s.fenceDesks fs) := by
  unfold State.fenceDesks
  refine h.foldl fun _ _ h => ?_
  split
  · exact h.post
  · exact h.post
  · exact h.post
  · exact h

theorem MemOk.resetCluster {cl : Nat} : MemOk (s.resetCluster cl) :=
  (((h.foldl (fun _ _ h => h.dropEntry)).foldl (fun _ _ h => h.countReceived)).fenceDesks.foldl (fun _ _ h => .ite h.offerIn
    h)).zeroMem.modCtx.same.setCluster

theorem MemOk.resetRect : MemOk (s.resetRect rect) := by
  unfold State.resetRect
  extract_lets _ _ _ s1 s2 s3
  have h2 : MemOk s2 := (h.foldl fun _ _ h => h.resetCore).foldl fun _ _ h => h.resetCluster
  have h3 : MemOk s3 := h2.foldl fun _ _ h => h.modRouter.modWalker
  exact h3.same

@[simp] theorem MemOk.execCnctlReset : NextOk (execCnctlReset rect s) := (MemOk.ite h h.same.logAt.post).next

@[simp] theorem MemOk.execContainmentResetDone : NextOk (execContainmentResetDone rect s) :=
  (MemOk.ite h (.ite (.ite h.resetRect.same.postIn h.postIn) h.same.logAt.note)).next

theorem MemOk.modVf {f : Vf → Vf} : MemOk (s.modVf fn f) := h

theorem MemOk.indexWrite : MemOk (s.indexWrite n v) := by
  unfold State.indexWrite
  split
  · exact .ite h.same h
  · exact .ite h.same h
  · exact .ite h.same h
  · exact .ite h.same h
  · exact .ite h.same h
  · exact h

theorem MemOk.pageWrite : MemOk (s.pageWrite fn off v) := by
  unfold State.pageWrite
  split
  · exact .ite h.modVf h
  · exact .ite h.modVf h
  · exact h.post
  · exact h

theorem MemOk.pfWrite : MemOk (s.pfWrite off v) := by
  unfold State.pfWrite
  refine .ite h.pageWrite (.ite (.ite h.post h) ?_)
  split
  · exact h.same
  · exact h.same
  · exact h.post
  · exact h

@[simp] theorem MemOk.execRegisterWrite {r : DevReg} : NextOk (execRegisterWrite r v s) := by
  refine MemOk.next ?_
  split
  · exact h.indexWrite
  · exact .ite h.pageWrite h
  · exact h.pfWrite
  · exact .ite h.same h
  · exact .ite h.same h

end

/-! ### Host -/

section
variable {s : State} (h : MemOk s) {fn link x entry cl ctx fk slot src : Nat} {v : Word}
include h

theorem MemOk.dropPost : MemOk (s.dropPost fn entry link) := by
  unfold State.dropPost
  extract_lets
  split
  · exact h.modVf
  · exact .ite h.modVf h.modVf.note

theorem MemOk.enterDevice {iface cseq : Nat} {untimed : Bool} {sender : Nat} {r : Rec} :
    MemOk (s.enterDevice iface src x cl fk slot cseq untimed sender r) :=
  h.newId.countSent.offerIn

theorem MemOk.enterFlit {cseq : BitVec 8} : MemOk (s.enterFlit src x cl fk slot cseq v) := h.offerIn

theorem MemOk.postFirmware {e : Route} {q : Rec} : MemOk (s.postFirmware entry link e q) := .ite h.dropPost h.same

@[simp] theorem MemOk.execHostPostWrite {r : List Word} : NextOk (execHostPostWrite fn entry link r s) := by
  refine MemOk.next (.ite h ?_)
  refine .ite h.dropPost (.ite h.post ?_)
  split
  · exact h.dropPost
  · exact .ite h.postFirmware (.ite h.dropPost h.same.enterDevice)

@[simp] theorem MemOk.execHostPromise : NextOk (execHostPromise fn entry link v s) := by
  refine MemOk.next (.ite h ?_)
  split
  · exact h.dropPost
  · exact .ite h.dropPost (.ite h.same h.same.enterFlit)

@[simp] theorem MemOk.execHostReplyWrite {core : Nat} : NextOk (execHostReplyWrite core s) := by
  refine MemOk.next ?_
  extract_lets
  split
  · exact h
  · refine .ite h ?_
    extract_lets
    refine .ite h.machineCheck.modCore.kick ?_
    extract_lets
    split
    · exact (MemOk.ite h.softLog h).deadLetter.modCore.kick
    · exact .ite (MemOk.ite h.softLog h).deadLetter.modCore.kick (.ite (MemOk.ite h.softLog h) (MemOk.ite h.softLog
        h).writeMem.modVf.countSent.countReceived.modCore.kick)

@[simp] theorem MemOk.execRrheadWrite : NextOk (execRrheadWrite fn v s) := by
  refine MemOk.next ?_
  extract_lets
  split
  · exact h.modVf
  · refine h.modVf.foldl fun _ _ h => ?_
    split
    · exact h
    · exact .ite h.post h

@[simp] theorem MemOk.execVfbindWrite : NextOk (execVfbindWrite fn v s) := (MemOk.ite h h.modVf).next

@[simp] theorem MemOk.execDomidWrite : NextOk (execDomidWrite v s) := (MemOk.ite h h.same).next

theorem MemOk.requestRects {vs : List Word} : MemOk (s.requestRects x vs) := by
  unfold State.requestRects
  extract_lets
  refine (h.foldl (fun _ _ h => h.writeRect)).foldl fun _ _ h => ?_
  refine .ite ?_ h
  split
  · exact h.writeRect
  · exact h

@[simp] theorem MemOk.execFirmwareRequestTake : NextOk (execFirmwareRequestTake ctx s) := by
  refine MemOk.next ?_
  extract_lets _ _ _ _ _ _ _ s1
  have h1 : MemOk s1 := by
    unfold s1
    split
    · exact h.deviceRead.deviceRead.requestRects
    · exact h.deviceRead.deviceRead.fwNote
    · exact h.deviceRead.deviceRead
  exact .ite h.deviceRead h1.touch.preserveAll.bankWrite.postIn

@[simp] theorem MemOk.execFabricFrameArrival {port : Nat} {frame : Frame} : NextOk (execFabricFrameArrival port frame s) := by
  refine MemOk.next ?_
  extract_lets
  refine .ite h (.ite h.postIn ?_)
  split
  · exact h.enterDevice
  · exact h.enterFlit
  · exact h.enterFlit

@[simp] theorem MemOk.execReductionDescriptorWrite {ws : List Word} : NextOk (execReductionDescriptorWrite ws s) :=
  (MemOk.ite h.same h).next

theorem MemOk.takeElement {w dev o v : Nat} : MemOk (s.takeElement w dev o v) := by
  unfold State.takeElement
  split
  · exact h
  · extract_lets _ _ _ _ _ _ s0 s1
    have h0 : MemOk s0 := h.same
    have h1 : MemOk s1 := h0.foldl fun _ _ h => h.touch.preserveAll.bankWrite
    exact .ite h (.ite h.same (.ite h1.touch.preserveAll.addCounter h1))

@[simp] theorem MemOk.execReductionContribution {window device offset size : Nat} {gen : BitVec 2} {data : BitVec 512} :
    NextOk (execReductionContribution window device offset size gen data s) := by
  refine MemOk.next ?_
  split
  · exact h
  · exact .ite h (.ite h.same ((MemOk.ite h h.same).foldl (fun _ _ h => .ite h.takeElement h)))

@[simp] theorem MemOk.execThermalTrip : NextOk (execThermalTrip s) := h.same.fwNote.next

@[simp] theorem MemOk.execThermalRecover : NextOk (execThermalRecover s) := h.same.next

theorem MemOk.bootManagement : MemOk s.bootManagement := h.foldl fun _ _ h => h.modCore

@[simp] theorem MemOk.execPerstRelease : NextOk (execPerstRelease s) := (MemOk.ite h h.bootManagement.same.posts).next

theorem MemOk.launchTimeline {c : Ctx} {t : LaunchTimeline} : MemOk (s.launchTimeline c t) := h.placeTimeline

theorem MemOk.launchChannel {c : Ctx} {ch : LaunchChannel} : MemOk (s.launchChannel x c ch) := by
  unfold State.launchChannel
  extract_lets
  split
  · split
    · exact h.modCluster
    · exact h.modCluster.same
  · split
    · exact h.modCluster.modCluster
    · exact h.same.modCluster

@[simp] theorem MemOk.execContextCreate {l : Launch} : NextOk (execContextCreate ctx l s) :=
  (MemOk.ite h (((((h.foldl (fun _ _ h => h.unitsOut)).foldl (fun _ _ h => h.modCluster)).same.foldl (fun _ _ h =>
    h.preserveAll.deviceWrite)).foldl (fun _ _ h => h.launchTimeline)).foldl (fun _ _ h => h.launchChannel))).next

end

/-! ### Scalar -/

section
variable {s : State} (h : MemOk s) {d a : BitVec 5} {i : Instr}
include h

theorem MemOk.alu3 {b : BitVec 5} {f : Word → Word → Word} : NextOk (alu3 i d a b f s) := h.word fun _ h => h.result

theorem MemOk.alu2 {f : Word → Word} : NextOk (alu2 i d a f s) := h.word fun _ h => h.result

end

/-! ### Walker -/

section
variable {s : State} (h : MemOk s) {c core code n cl : Nat} {kind : Access} {ser : BitVec 16} {cw : BitVec 256} {spad : Bool}
  {l : Layout} {geos : List RowGeo} {rows : List RowIo} {e : QEntry} {g : RowGeo}
include h

theorem MemOk.walkerXlate {va : Word} : MemOk (s.walkerXlate c e va kind).2 := by
  unfold State.walkerXlate
  extract_lets _ answer
  have ha : ∀ {s}, MemOk s → ∀ t, MemOk (answer s t).2 := by
    intro s h t
    unfold answer
    split
    · exact .ite h.preserveFor h
    · exact h
  clear_value answer
  split
  · exact ha h _
  · split
    · exact ha h _
    · split
      · exact ha (h.walkVa.of_triple ‹_›) _
      · exact ha (h.walkVa.of_triple ‹_›).modWalker _

theorem MemOk.alsoReads {pa : Nat} : MemOk (s.alsoReads c pa n) := h.modFront

theorem MemOk.readRecord {handle : Nat} : MemOk (s.readRecord c e handle).2 := by
  unfold State.readRecord
  split
  next heq =>
    have h := h.engineView.of_pair heq
    split
    · exact h
    · split
      · exact h
      · split
        · exact h.walkerXlate.of_pair ‹_›
        · have h := h.walkerXlate.of_pair ‹_›
          split
          · exact h
          · extract_lets
            split
            · exact h.touch.correct
            · exact h.touch.correct.alsoReads.modWalker

theorem MemOk.walkerGroups {l : List (Nat × Word × Nat)} : MemOk (s.walkerGroups c e kind l).2 := by
  induction l generalizing s with
  | nil => exact h
  | cons g t ih =>
    unfold State.walkerGroups
    split
    · exact h.walkerXlate.of_pair ‹_›
    · split
      · exact h.walkerXlate.of_pair ‹_›
      · split <;> exact (ih (h.walkerXlate.of_pair ‹_›).touch).of_pair ‹_›

theorem MemOk.walkerRow : MemOk (s.walkerRow c e l kind g).2 := by
  unfold State.walkerRow
  split
  · exact h
  · extract_lets _ _ step
    have hstep : ∀ (p : Except Nat (RowIo × List RowPage) × State) x, MemOk p.2 → MemOk (step p x).2 := by
      intro p x h
      unfold step
      split
      · exact h
      · split
        · exact h.walkerXlate.of_pair ‹_›
        · split
          · exact h.walkerXlate.of_pair ‹_›
          · exact (h.walkerXlate.of_pair ‹_›).touch
    clear_value step
    split
    · exact MemOk.of_pair (h.foldl_snd hstep) ‹_›
    · have h := MemOk.of_pair (h.foldl_snd hstep) ‹_›
      split <;> exact h.walkerGroups.of_pair ‹_›

theorem MemOk.walkerRows {gs : List RowGeo} : MemOk (s.walkerRows c e l kind gs).2 := by
  induction gs generalizing s with
  | nil => exact h
  | cons g t ih =>
    unfold State.walkerRows
    split
    · exact h.walkerRow.of_pair ‹_›
    · split <;> exact (ih (h.walkerRow.of_pair ‹_›)).of_pair ‹_›

theorem MemOk.correctRows : MemOk (s.correctRows rows) :=
  h.foldl fun _ _ h => (h.foldl (fun _ _ h => h.correct)).foldl (fun _ _ h => h.correct)

theorem MemOk.walkerError : MemOk (s.walkerError c code) := h.endError

theorem MemOk.withRecords {gh : Bool} {test : Option Layout → Bool} {go : Layout → Row → Row → State → State}
    (hgo : ∀ x y z s, MemOk s → MemOk (go x y z s)) :
    MemOk (s.withRecords c cw e spad gh test go) := by
  unfold State.withRecords
  refine .ite h ?_
  split
  next hr =>
    have h := h.readRecord.of_pair hr
    split
    next t hq =>
      have h : MemOk t := by
        split at hq
        · exact h.readRecord.of_pair hq
        · exact h.of_pair hq
      refine .ite h.walkerError ?_
      split
      · exact h.walkerError
      · exact h.walkerError
      · split
        · exact h.walkerError
        · exact hgo _ _ _ _ h

theorem MemOk.withLayout {go : Layout → State → State} (hgo : ∀ x s, MemOk s → MemOk (go x s)) :
    MemOk (s.withLayout c cw e spad go) :=
  h.withRecords fun _ _ _ _ h => hgo _ _ h

theorem MemOk.walkerStart {bad : List Bool} {rows flags : Nat} {rd : List (Nat × Nat)} {ws slots : List (Nat × Nat × Nat)} :
    MemOk (s.walkerStart c bad rows flags rd ws slots) :=
  h.startEntry

theorem MemOk.sendTransfer {m : Mcast} : MemOk (s.sendTransfer m) := by
  unfold State.sendTransfer
  split
  next heq => exact (h.newId.of_pair heq).same.walkerInject

theorem MemOk.startTransfers {ts : List Mcast} {f : QEntry → QEntry} : MemOk (s.startTransfers c ts f) :=
  h.startEntry.foldl fun _ _ h => h.sendTransfer

theorem MemOk.moveIn : MemOk (s.moveIn c cw e l geos) := by
  unfold State.moveIn
  extract_lets
  split
  · exact (h.walkerRows.of_pair ‹_›).walkerError
  · exact (h.walkerRows.of_pair ‹_›).walkerError
  · refine .ite (h.walkerRows.of_pair ‹_›).walkerError ?_
    split
    · exact (h.walkerRows.of_pair ‹_›).walkerError
    · exact (h.walkerRows.of_pair ‹_›).correctRows.engineView.startTransfers

theorem MemOk.correctOut {d : SpadDesc} {i : Nat} : MemOk (s.correctOut cl d l g i) := h.correct.foldl fun _ _ h => h.correct

theorem MemOk.moveOut : MemOk (s.moveOut c cw e l geos) := by
  unfold State.moveOut
  extract_lets
  split
  · exact (h.walkerRows.of_pair ‹_›).walkerError
  · exact (h.walkerRows.of_pair ‹_›).walkerError
  · extract_lets
    refine .ite (h.walkerRows.of_pair ‹_›).walkerError ?_
    split
    · exact (h.walkerRows.of_pair ‹_›).walkerError
    · exact ((h.walkerRows.of_pair ‹_›).foldl (fun _ _ h => .ite h.correctOut h)).engineView.walkerStart

@[simp] theorem MemOk.execWload : NextOk (execWload core cw s) :=
  (h.runHead (fun _ _ h => h.withLayout (fun _ _ h => h.moveIn))).next

@[simp] theorem MemOk.execWstore : NextOk (execWstore core cw s) :=
  (h.runHead (fun _ _ h => h.withLayout (fun _ _ h => h.moveOut))).next

theorem MemOk.indexRows : MemOk (s.indexRows c cw l).2 := by
  unfold State.indexRows
  extract_lets
  split
  · exact h
  · split
    · exact h.correct
    · exact h.correct.engineView.alsoReads

@[simp] theorem MemOk.execWgather : NextOk (execWgather core cw s) := by
  refine MemOk.next (h.runHead fun _ _ h => ?_)
  refine h.withLayout fun _ _ h => ?_
  split
  · exact (h.indexRows.of_pair ‹_›).walkerError
  · exact (h.indexRows.of_pair ‹_›).moveIn

@[simp] theorem MemOk.execWscatter : NextOk (execWscatter core cw s) := by
  refine MemOk.next (h.runHead fun _ _ h => ?_)
  refine h.withLayout fun _ _ h => ?_
  split
  · exact (h.indexRows.of_pair ‹_›).walkerError
  · exact (h.indexRows.of_pair ‹_›).moveOut

@[simp] theorem MemOk.execWfill : NextOk (execWfill core cw s) := by
  refine MemOk.next (h.runHead fun _ _ h => ?_)
  refine h.withLayout fun _ _ h => ?_
  split
  · exact (h.walkerRows.of_pair ‹_›).walkerError
  · split
    · exact (h.walkerRows.of_pair ‹_›).walkerError
    · exact (h.walkerRows.of_pair ‹_›).walkerStart

@[simp] theorem MemOk.execSignal : NextOk (execSignal core cw s) := (h.runHead (fun _ _ h => .ite h h.startEntry)).next

theorem MemOk.sendGroup {gr : Row} {plan : Group → Nat → List (Nat × Nat)} : MemOk (s.sendGroup c cw e l gr geos plan) := by
  unfold State.sendGroup
  split
  · exact h.walkerError
  · exact h.walkerError
  · split
    · exact (h.walkerRows.of_pair ‹_›).walkerError
    · extract_lets
      refine .ite (h.walkerRows.of_pair ‹_›).walkerError ?_
      split
      · exact ((h.walkerRows.of_pair ‹_›).cmdCounter.of_pair ‹_›).walkerError
      · split
        · exact ((h.walkerRows.of_pair ‹_›).cmdCounter.of_pair ‹_›).walkerError
        · exact ((h.walkerRows.of_pair ‹_›).cmdCounter.of_pair ‹_›).correctRows.engineView.startTransfers

@[simp] theorem MemOk.execWmcast : NextOk (execWmcast core cw s) :=
  (h.runHead (fun _ _ h => h.withRecords (fun _ _ _ _ h => h.sendGroup))).next

@[simp] theorem MemOk.execWdeal : NextOk (execWdeal core cw s) :=
  (h.runHead (fun _ _ h => h.withRecords (fun _ _ _ _ h => h.sendGroup))).next

theorem MemOk.acked {m : Mcast} {f : QEntry → QEntry} : MemOk (s.acked m f) := h.workDone

@[simp] theorem MemOk.execMcastTransfer {id : Nat} : NextOk (execMcastTransfer id s) := by
  refine MemOk.next ?_
  split
  · exact h
  · exact .ite h.same.acked (.ite h.same.modWalker.bankWrite.acked (MemOk.ite h.same.modWalker.note h.same.modWalker).acked)

@[simp] theorem MemOk.execDrainAddition : NextOk (execDrainAddition core ser s) := by
  refine MemOk.next ?_
  extract_lets
  split
  · exact h
  · extract_lets s1
    have h1 : MemOk s1 := by
      unfold s1
      split
      · exact h.modEntry
      · split
        · exact (h.modEntry.addCounter.of_pair ‹_›).mirror
        · exact (h.modEntry.addCounter.of_pair ‹_›).note
    exact .ite h.postIn (.ite h.postIn h1.post)

theorem MemOk.correctStq {d : SpadDesc} {sty : Nat} : MemOk (s.correctStq cl d sty n rows) :=
  h.foldl fun _ _ h => h.foldl (fun _ _ h => h.correct)

theorem MemOk.stqPlan : MemOk (s.stqPlan c cw e l).2 := by
  unfold State.stqPlan
  extract_lets
  split
  · exact h
  · split
    · exact (h.walkerRows.of_pair ‹_›)
    · split
      · exact ((h.walkerRows.of_pair ‹_›).walkerXlate.of_pair ‹_›)
      · extract_lets
        split
        · exact ((h.walkerRows.of_pair ‹_›).walkerXlate.of_pair ‹_›).touch
        · split
          · exact ((h.walkerRows.of_pair ‹_›).walkerXlate.of_pair ‹_›).touch
          · split <;> exact ((h.walkerRows.of_pair ‹_›).walkerXlate.of_pair ‹_›).touch

theorem MemOk.stqFinish {d : SpadDesc} {sw : BitVec 20} : MemOk (s.stqFinish c cw e l d rows sw) :=
  h.correctStq.engineView.modEntry.sendEngines.postIn

@[simp] theorem MemOk.execWstq : NextOk (execWstq core cw s) := by
  refine MemOk.next (h.runHead fun _ _ h => ?_)
  refine h.withRecords fun _ _ _ _ h => ?_
  split
  · exact (h.stqPlan.of_pair ‹_›).walkerError
  · extract_lets s1
    have h1 : MemOk s1 := (h.stqPlan.of_pair ‹_›).startEntry
    split
    · exact h1.stqFinish
    · exact h1.postIn

theorem MemOk.stqError : MemOk (s.stqError c e code) := h.modEntry.post

@[simp] theorem MemOk.execScalingExchange : NextOk (execScalingExchange core ser s) := by
  refine MemOk.next ?_
  split
  · exact h
  · refine .ite h.postIn ?_
    extract_lets
    split
    · exact h.stqError
    · split
      · exact (h.stqPlan.of_pair ‹_›).stqError
      · exact (h.stqPlan.of_pair ‹_›).correct.correctStq.engineView.bankWrite.bankWrite.mirror.mirror.stqFinish

end

/-! ### Exec -/

section
variable {s : State} (h : MemOk s)
include h

/-- The words of a family share its lemma; each other word has one of its own, which `simp` finds. -/
theorem MemOk.exec {i : Instr} : NextOk (exec i s) := by
  unfold Machine.exec
  cases i with
  | clz | ctz | popc | ext | exts | addi | andi | ori | xori | slli | srli | srai | slti | sltiu =>
    exact h.alu2
  | add | sub | mul | mulh | mulhu | div | divu | rem | remu | and | or | xor | andn | orn | sll | srl | sra | rol
    | min | max | minu | maxu | slt | sltu | seq =>
    exact h.alu3
  | amoAdd | amoAnd | amoOr | amoXor | amoMin | amoMax | amoMinu | amoMaxu | amoSwap | amoFaddF32 | amoFaddBf16
    | amoFmaxF32 =>
    exact h.amo
  | beq | bne | blt | bge | bltu | bgeu =>
    exact h.branch
  | casI64 | casI32 =>
    exact h.cas
  | csrr | csrw | csrs | csrc =>
    exact h.csrWord
  | fadd | fsub | fmul | fmin | fmax | fdiv | fcmpLt | fcmpLe | fcmpEq =>
    exact h.fpu3
  | ldB | ldBz | ldH | ldHz | ldW | ldWz | ldD | ldAcq =>
    exact h.load
  | vadd | vaddX | vsub | vsubX | vmul | vmulX | vmin | vminX | vmax | vmaxX | vabs | vabsX | vneg | vnegX | vand
    | vandX | vor | vorX | vxor | vxorX | vshl | vshlX | vshr | vshrX | vsra | vsraX | vcmpLt | vcmpLtX | vcmpLe
    | vcmpLeX | vcmpEq | vcmpEqX | vsel | vselX | vmov | vmovX | vfma | vfmaX | vrcp | vrcpX | vrsq | vrsqX | vrfn
    | vrfnX | vrfs | vrfsX | vexp2 | vexp2X | vlog2 | vlog2X | vcvt | vcvtX | vqnt | vqntX | vdq | vdqX | vredSum
    | vredSumX | vredMin | vredMinX | vredMax | vredMaxX | vredAmax | vredAmaxX | vscan | vscanX | vperm | vins | vext
    | vbcast | vneur =>
    exact h.rowWord
  | stB | stH | stW | stD | stRel =>
    exact h.store
  | tldr | tld =>
    exact h.tileLoad
  | tstr | tst =>
    exact h.tileStore
  | fsqrt | fclass | fma | fcvt =>
    exact h.word (fun _ h => h.fpResult)
  | qstat | sel | ins | lui | auipc =>
    exact h.word (fun _ h => h.result)
  | _ => simp [h]

/-- A command is run as its instruction; each other step of the agenda has a lemma of its own, which `simp` finds. -/
theorem MemOk.eventMeaning {e : Event} : NextOk (eventMeaning e s) := by
  unfold Machine.eventMeaning
  cases e with
  | command core cw =>
    dsimp only
    split
    · exact h.exec
    · exact h.next
  | _ => simp [h]

end

/-! ### RunEvent -/

section
variable {s : State} (h : MemOk s)
include h

theorem MemOk.unlessBlocked {r : Result State} (hr : NextOk r) : NextOk (unlessBlocked r s) := by
  unfold Machine.unlessBlocked
  split
  · split
    · exact h.next
    · exact (hr _ rfl).next
  · exact fun _ e => nomatch e
  · exact fun _ e => nomatch e

theorem MemOk.runEvent {e : Event} : NextOk (runEvent e s) := h.postIn.unlessBlocked h.eventMeaning

end

/-! ### Fetch -/

section
variable {s : State} (h : MemOk s) {core : Nat}
include h

theorem MemOk.slotWord {cl i off : Nat} : MemOk (s.slotWord cl i off).2 := by
  unfold State.slotWord
  split
  · exact h
  · extract_lets
    split
    · exact h.readItem
    · exact .ite h.readItem.setItem h.readItem

theorem MemOk.fetchWord : MemOk s.fetchWord.2 := by
  unfold State.fetchWord
  extract_lets
  split
  · exact h
  · split
    · exact h.slotWord
    · split
      · exact (h.translate.of_pair ‹_›)
      · extract_lets
        split <;> exact (h.translate.of_pair ‹_›).touch.correct

theorem MemOk.issued {pc : Word} {n : Nat} : MemOk (s.issued core pc n) := h.modCore

theorem MemOk.compared {i : Instr} {x : BitVec 32} {t : State} (ht : MemOk t) : MemOk (s.compared i x t) :=
  .ite h.mismatch ht.issued

theorem MemOk.runWord {x : BitVec 32} : NextOk (s.runWord x) := by
  unfold State.runWord
  split
  · split
    · exact (h.execIllegalWord _ ‹_›).issued.next
    · exact fun _ e => nomatch e
    · exact fun _ e => nomatch e
  next i _ =>
    split
    next ht =>
      split at ht
      · exact (h.checkRegs _ ht).issued.next
      · cases ht
    · have hi : MemOk (if s.passesDecode i then s.correctRegs i else s) := .ite h.correctRegs h
      split
      · exact (h.compared (hi.exec _ ‹_›)).next
      · exact fun _ e => nomatch e
      · exact fun _ e => nomatch e

theorem MemOk.turn : NextOk (s.turn core) := by
  unfold State.turn
  extract_lets t
  have ht : MemOk t := h.same
  refine ht.modMe.unlessBlocked ?_
  split
  next e => exact (ht.fetchWord.of_pair e).trapWith.next
  next e => exact (ht.fetchWord.of_pair e).runWord

end

/-! ### Step -/

section
variable {s : State} (h : MemOk s)
include h

theorem MemOk.step : NextOk (step s) := by
  unfold Machine.step
  split
  · exact h.same.runEvent
  · split
    · exact h.turn
    · exact h.same.next

end

/-! ### The obligations -/

theorem memOk_reset : MemOk State.reset := rfl

/-- No context is in place, and the only cores that are stand past the array: the management cores. -/
theorem modesOk_reset : ModesOk State.reset :=
  ⟨by simp [State.reset], by simp [State.reset]⟩

/-- Settles O9: `MemOk.step`, which the lemma of each instruction and of each event of the agenda gives. -/
theorem stepKeepsMemory : Obligations.StepKeepsMemory := fun _ t h e => h.step t e

/-- Settles O11: memory is empty, and no core of the array is in place. -/
theorem resetMemory : Obligations.ResetMemory := ⟨memOk_reset, modesOk_reset⟩

end Sys2Proof.Machine
end

section
/-! ## Number formats: counts, division, conversions and the registers of the core

A word whose whole part is one operation of two registers or one, a result with flags, and a register write of the CSR words: each
has one lemma that says what executing it gives, and the three obligations are that lemma at their words. -/

namespace Sys2Proof.Machine

open Sys2Proof

/-- The tval of ILLEGAL and PRIV is the word itself. -/
theorem wordTval_eq (i : Instr) : wordTval i = (encode i).setWidth 64 := BitVec.ofNat_toNat 64 (encode i)

/-! ### Scalar results -/

theorem gives_of_alu2 {i : Instr} {s : State} {d a : BitVec 5} {f : Word → Word} (he : exec i s = alu2 i d a f s) :
    Gives i s d (f (s.me.get a)) :=
  gives_of_word he rfl

theorem gives_of_alu3 {i : Instr} {s : State} {d a b : BitVec 5} {f : Word → Word → Word} (he : exec i s = alu3 i d a b f s) :
    Gives i s d (f (s.me.get a) (s.me.get b)) :=
  gives_of_word he rfl

/-! ### Counts of bits (R92) -/

theorem bitLen_le {m k : Nat} : bitLen m ≤ k ↔ m < 2 ^ k := by
  unfold bitLen
  split
  next h => exact ⟨fun _ => h ▸ Nat.two_pow_pos k, fun _ => Nat.zero_le k⟩
  next h => rw [Nat.succ_le_iff, Nat.log2_lt h]

theorem testBit_of_bitLen_le {m j : Nat} (h : bitLen m ≤ j) : m.testBit j = false :=
  Nat.testBit_lt_two_pow (bitLen_le.mp h)

theorem testBit_pred_bitLen {m : Nat} (h : 0 < bitLen m) : m.testBit (bitLen m - 1) = true := by
  unfold bitLen at h ⊢
  split
  next h0 => simp [h0] at h
  next h0 => exact Nat.testBit_log2 h0

/-- `n` zero bits stand above the highest one bit of `A`. -/
theorem clzOf_spec (A : Word) : ∃ n, n ≤ 64 ∧ (∀ j, j < n → A.getLsbD (63 - j) = false) ∧
    (n < 64 → A.getLsbD (63 - n) = true) ∧ clzOf A = BitVec.ofNat 64 n := by
  have hlen : bitLen A.toNat ≤ 64 := bitLen_le.mpr A.isLt
  refine ⟨64 - bitLen A.toNat, by omega, fun j hj => ?_, fun hn => ?_, rfl⟩
  · exact testBit_of_bitLen_le (by omega)
  · rw [show 63 - (64 - bitLen A.toNat) = bitLen A.toNat - 1 by omega]
    exact testBit_pred_bitLen (by omega)

/-- The search from bit 64 - n on stops at the lowest one bit there. -/
theorem ctzFrom_spec (A : Word) {n : Nat} (hn : n ≤ 64) : ctzFrom A n ≤ 64 ∧
    (∀ j, 64 - n ≤ j → j < ctzFrom A n → A.getLsbD j = false) ∧
    (ctzFrom A n < 64 → A.getLsbD (ctzFrom A n) = true) := by
  induction n with
  | zero => exact ⟨Nat.le_refl 64, fun j h h' => absurd h' (Nat.not_lt.mpr h), fun h => absurd h (Nat.lt_irrefl 64)⟩
  | succ n ih =>
    obtain ⟨hle, hbelow, hat⟩ := ih (by omega)
    unfold ctzFrom
    split
    next hbit => exact ⟨by omega, fun j h h' => by omega, fun _ => hbit⟩
    next hbit =>
      refine ⟨hle, fun j h h' => ?_, hat⟩
      by_cases hj : j = 63 - n
      · subst hj
        exact Bool.eq_false_iff.mpr hbit
      · exact hbelow j (by omega) h'

/-- `n` zero bits stand below the lowest one bit of `A`. -/
theorem ctzOf_spec (A : Word) : ∃ n, n ≤ 64 ∧ (∀ j, j < n → A.getLsbD j = false) ∧
    (n < 64 → A.getLsbD n = true) ∧ ctzOf A = BitVec.ofNat 64 n := by
  obtain ⟨hle, hbelow, hat⟩ := ctzFrom_spec A (Nat.le_refl 64)
  exact ⟨ctzFrom A 64, hle, fun j h => hbelow j (by omega) h, hat, rfl⟩

theorem onesBelow_eq_countP (A : Word) (n : Nat) : onesBelow A n = (List.range n).countP fun j => A.getLsbD j := by
  induction n with
  | zero => rfl
  | succ n ih => rw [onesBelow, ih, List.range_succ, List.countP_append, List.countP_singleton]

theorem popcOf_eq_countP (A : Word) : popcOf A = BitVec.ofNat 64 ((List.range 64).countP fun j => A.getLsbD j) :=
  congrArg Word.of (onesBelow_eq_countP A 64)

/-! ### The corners of division (R82) -/

theorem divSigned_zero (A : Word) : divSigned A 0 = BitVec.allOnes 64 := rfl

theorem remSigned_zero (A : Word) : remSigned A 0 = A := rfl

/-- The quotient 2^63 wraps. -/
theorem divSigned_overflow : divSigned 0x8000000000000000 (BitVec.allOnes 64) = 0x8000000000000000 := by decide

theorem remSigned_overflow : remSigned 0x8000000000000000 (BitVec.allOnes 64) = 0 := by decide

/-- Settles O18: the counts by what `clzOf`, `ctzOf` and `popcOf` find, the corners by the division operations there. -/
theorem countsAndDivision : Obligations.CountsAndDivision := by
  intro w d a b s A B
  have hclz : Gives (.clz w d a) s d (clzOf A) := gives_of_alu2 rfl
  have hctz : Gives (.ctz w d a) s d (ctzOf A) := gives_of_alu2 rfl
  have hpopc : Gives (.popc w d a) s d (popcOf A) := gives_of_alu2 rfl
  have hdiv : Gives (.div w d a b) s d (divSigned A B) := gives_of_alu3 rfl
  have hdivu : Gives (.divu w d a b) s d (if B = 0 then BitVec.allOnes 64 else A / B) :=
    gives_of_alu3 (f := fun A B => if B = 0 then allOnes else A / B) rfl
  have hrem : Gives (.rem w d a b) s d (remSigned A B) := gives_of_alu3 rfl
  have hremu : Gives (.remu w d a b) s d (if B = 0 then A else A % B) :=
    gives_of_alu3 (f := fun A B => if B = 0 then A else A % B) rfl
  refine ⟨?clz, ?ctz, popcOf_eq_countP A ▸ hpopc, fun hB => ?byZero, fun hA hB => ?overflow⟩
  case clz =>
    obtain ⟨n, hle, habove, hat, e⟩ := clzOf_spec A
    exact ⟨n, hle, habove, hat, e ▸ hclz⟩
  case ctz =>
    obtain ⟨n, hle, hbelow, hat, e⟩ := ctzOf_spec A
    exact ⟨n, hle, hbelow, hat, e ▸ hctz⟩
  case byZero =>
    rw [if_pos hB] at hdivu hremu
    rw [hB] at hdiv hrem
    exact ⟨hdiv, hdivu, hrem, hremu⟩
  case overflow =>
    rw [hA, hB] at hdiv hrem
    exact ⟨divSigned_overflow ▸ hdiv, remSigned_overflow ▸ hrem⟩

/-! ### Conversion (R62, R101) -/

theorem givesFlags_of_word {i : Instr} {s : State} {d : BitVec 5} {v : Word} {fl : Flags} {body : State → State}
    (he : exec i s = word i body s) (hb : body s = s.fpResult d v fl) : GivesFlags i s d v fl :=
  fun h hfl => ⟨_, he.trans (word_of_issues h body), hb ▸ s.writesFlags_fpResult d v fl hfl⟩

theorem exec_illFormed_of_word {i : Instr} {s : State} {body : State → State} (he : exec i s = word i body s) (h : i.wf = false) :
    exec i s = .next (s.trap 1 ((encode i).setWidth 64)) :=
  wordTval_eq i ▸ he.trans (word_illFormed h body s)

theorem isCvt_iff (y : BitVec 4) : isCvt y = true ↔ y.toNat ≤ 10 ∨ y.toNat = 15 := by
  simp [isCvt, ← BitVec.toNat_inj]

theorem isInt_iff (y : BitVec 4) : isInt y = true ↔ 7 ≤ y.toNat ∧ y.toNat ≤ 10 ∨ y.toNat = 15 := by
  simp [isInt, ← BitVec.toNat_inj]

theorem fcvt_wf_iff (w : Bool) (d a : BitVec 5) (u : BitVec 1) (f t : BitVec 4) :
    (Instr.fcvt w d a u f t).wf = true ↔ isCvt f = true ∧ isCvt t = true ∧ (u = 0 ∨ isInt f = true ∨ isInt t = true) := by
  simp [Instr.wf, and_assoc, or_assoc]

/-- Settles O23: the result is `fpResult` of the conversion; the codes that it excludes are those that the word's form excludes. -/
theorem fcvtResults : Obligations.FcvtResults := by
  intro w d a u f t s uns r int ok
  refine ⟨givesFlags_of_word rfl rfl, fun hbad => exec_illFormed_of_word rfl (Bool.eq_false_iff.mpr fun hwf => hbad ?_)⟩
  simpa only [fcvt_wf_iff, isCvt_iff, isInt_iff] using hwf

/-! ### One core changed -/

theorem State.coreIs_modMe (s : State) (f : Core → Core) : CoreIs s.cur s (s.modMe f) (f s.me) := s.coreIs_setCore s.cur _

theorem CoreIs.trans {c : Nat} {s t u : State} {k l : Core} (h : CoreIs c s t k) (h' : CoreIs c t u l) : CoreIs c s u l := by
  obtain ⟨⟨hst, hcores⟩, -⟩ := h
  obtain ⟨⟨htu, hcores'⟩, hu⟩ := h'
  refine ⟨⟨?_, fun j hj => (hcores' j hj).trans (hcores j hj)⟩, hu⟩
  rw [← htu] at hst
  exact hst

/-! ### What a word that writes a CSR does (R89 to R91) -/

/-- The word `i` is one of the three that write a register, and `v` is what it writes where the value was `old`. -/
def CsrWriter (i : Instr) (d : BitVec 5) (c : BitVec 12) (s : State) (old v : Word) : Prop :=
  ∃ new : Core → Word → Option Word, exec i s = csrWord i d c new s ∧ new s.me old = some v

section
variable (w : Bool) (d : BitVec 5) {a : BitVec 5} (c : BitVec 12) (s : State) (old : Word)

theorem csrWriter_csrw : CsrWriter (.csrw w d a c) d c s old (s.me.get a) := ⟨fun k _ => some (k.get a), rfl, rfl⟩

theorem csrWriter_csrs (ha : a ≠ 0) : CsrWriter (.csrs w d a c) d c s old (old ||| s.me.get a) :=
  ⟨fun k old => if a = 0 then none else some (old ||| k.get a), rfl, if_neg ha⟩

theorem csrWriter_csrc (ha : a ≠ 0) : CsrWriter (.csrc w d a c) d c s old (old &&& ~~~(s.me.get a)) :=
  ⟨fun k old => if a = 0 then none else some (old &&& ~~~(k.get a)), rfl, if_neg ha⟩

end

/-- The mode may use the range of register `n`, and nothing is outstanding where the register waits for it. -/
def CsrPasses (n : Nat) (s : State) : Prop :=
  csrPriv n s.me.mode = false ∧ (csrWaits n = true → s.me.waiting = false ∧ s.me.deferred = [])

theorem csrPriv_user {n : Nat} (m : Mode) (hn : n < 0x100) : csrPriv n m = false := by
  have h200 : ¬0x200 ≤ n := by omega
  have h100 : ¬0x100 ≤ n := by omega
  simp only [csrPriv, h200, h100, decide_false, Bool.false_and, Bool.or_false]

theorem csrPriv_supervisor {n : Nat} {m : Mode} (hn : n < 0x200) (hm : m ≠ .task) : csrPriv n m = false := by
  have h200 : ¬0x200 ≤ n := by omega
  simp only [csrPriv, h200, hm, decide_false, Bool.false_and, Bool.and_false, Bool.or_false]

/-- Register `n` takes the value `v` in mode `m`. -/
def csrTakes (n : Nat) (m : Mode) (v : Word) : Bool :=
  csrWritable n m && !(v &&& csrZero n != 0) && !(n = 0x105 && 2 ≤ v.fld 1 0)

theorem csrTakes_iff {n : Nat} {m : Mode} {v : Word} :
    csrTakes n m v = true ↔ csrWritable n m = true ∧ v &&& csrZero n = 0 ∧ (n = 0x105 → v.toNat % 4 < 2) := by
  have hpmode : v.fld 1 0 = v.toNat % 4 := congrArg (· % 4) (Nat.div_one v.toNat)
  rw [csrTakes, hpmode]
  simp only [Bool.and_eq_true, Bool.not_eq_true', bne_eq_false_iff_eq, Bool.and_eq_false_imp, decide_eq_true_eq,
    decide_eq_false_iff_not, Nat.not_le, and_assoc]

/-- The register written, its error marks gone (R403), the old value in `s[d]` and the next word at hand. -/
def State.csrWritten (s : State) (n : Nat) (v : Word) (d : BitVec 5) (old : Word) : State :=
  ((s.csrWrite n v).modMe fun k => k.clean (n + 32)).result d old

/-- Three tests that each end in the same way. -/
theorem ite_three_eq {α : Type} (a b c : Bool) (x y : α) :
    (if !a then x else if b then x else if c then x else y) = if a && !b && !c then y else x := by
  cases a <;> cases b <;> cases c <;> rfl

/-- A word that writes a register either writes it or traps ILLEGAL. -/
theorem exec_csrWriter {i : Instr} {d : BitVec 5} {c : BitVec 12} {s : State} {old v : Word} (hw : CsrWriter i d c s old v)
    (hi : Issues i s) (hr : s.csrRead c.toNat = some old) (hp : CsrPasses c.toNat s) :
    exec i s = .next (if csrTakes c.toNat s.me.mode v then s.csrWritten c.toNat v d old
      else s.trap 1 ((encode i).setWidth 64)) := by
  obtain ⟨new, he, hn⟩ := hw
  obtain ⟨hpriv, hdrained⟩ := hp
  rw [csrTakes, ← ite_three_eq, ← wordTval_eq, he, csrWord, word_of_issues hi]
  by_cases hwait : csrWaits c.toNat = true
  · obtain ⟨hout, hdef⟩ := hdrained hwait
    simp [hr, hpriv, hn, hwait, State.waited, hout, hdef, State.csrWritten]
  · simp [hr, hpriv, hn, hwait, State.csrWritten]

/-- The same where `P` is known to be what the register asks of the value. -/
theorem exec_csrWriter_iff {i : Instr} {d : BitVec 5} {c : BitVec 12} {s : State} {old v : Word} {P : Prop}
    (hw : CsrWriter i d c s old v) (hi : Issues i s) (hr : s.csrRead c.toNat = some old) (hp : CsrPasses c.toNat s)
    (htakes : csrTakes c.toNat s.me.mode v = true ↔ P) :
    (P → exec i s = .next (s.csrWritten c.toNat v d old)) ∧
    (¬P → exec i s = .next (s.trap 1 ((encode i).setWidth 64))) := by
  rw [exec_csrWriter hw hi hr hp, ← htakes]
  exact ⟨fun h => by rw [if_pos h], fun h => by rw [if_neg h]⟩

/-! ### The registers that a core holds -/

/-- Register `n` is one that mode `m` writes and that the core holds; `upd` is the write. -/
structure CsrOfCore (n : Nat) (m : Mode) (upd : Core → Word → Core) : Prop where
  inRange : csrPriv n m = false
  writable : csrWritable n m = true
  write : ∀ (s : State) (v : Word), s.csrWrite n v = s.modMe fun k => upd k v
  keepsPc : ∀ (k : Core) (v : Word), (upd k v).pc = k.pc

theorem State.coreIs_clean_result (s : State) (n : Nat) (d : BitVec 5) (v : Word) :
    CoreIs s.cur s ((s.modMe fun k => k.clean n).result d v) { (s.me.clean n).put d v with pc := s.me.pc + 4 } := by
  have h := (s.coreIs_modMe fun k => k.clean n).trans (State.coreIs_modMe _ fun k => { k.put d v with pc := k.pc + 4 })
  rwa [State.me_modMe] at h

theorem CsrOfCore.coreIs_csrWritten {n : Nat} {m : Mode} {upd : Core → Word → Core} (h : CsrOfCore n m upd) (s : State)
    (v : Word) (d : BitVec 5) (old : Word) :
    CoreIs s.cur s (s.csrWritten n v d old) { ((upd s.me v).clean (n + 32)).put d old with pc := s.me.pc + 4 } := by
  have hall := (s.coreIs_modMe fun k => upd k v).trans (State.coreIs_clean_result _ (n + 32) d old)
  rwa [State.me_modMe, h.keepsPc, ← h.write] at hall

/-- The registers that take the value written as it stands, with the modes that write them. -/
theorem csrOfCore_of_register {n : Nat} {m : Mode} {upd : Core → Word → Core}
    (h : (n = 0x008 ∧ upd = fun k v => { k with fflags := v.setWidth 6 }) ∨
      (n = 0x009 ∧ upd = fun k v => { k with frm := v.setWidth 3 }) ∨
      (n = 0x020 ∧ upd = fun k v => { k with nparam0 := v }) ∨ (n = 0x021 ∧ upd = fun k v => { k with nparam1 := v }) ∨
      (n = 0x022 ∧ upd = fun k v => { k with nparam2 := v }) ∨ (n = 0x023 ∧ upd = fun k v => { k with nparam3 := v }) ∨
      (n = 0x024 ∧ upd = fun k v => { k with spk := v }) ∨
      (n = 0x00A ∧ m ≠ .task ∧ upd = fun k v => { k with ctrbase := v }) ∨
      m ≠ .task ∧ ((n = 0x100 ∧ upd = fun k v => { k with cause := v }) ∨ (n = 0x101 ∧ upd = fun k v => { k with epc := v }) ∨
        (n = 0x102 ∧ upd = fun k v => { k with tval := v }) ∨ (n = 0x103 ∧ upd = fun k v => { k with tinfo := v }) ∨
        (n = 0x106 ∧ upd = fun k v => { k with scratch := v }) ∨ (n = 0x107 ∧ upd = fun k v => { k with tinfoh := v }))) :
    CsrOfCore n m upd ∧ n ≠ 0x105 := by
  rcases h with ⟨rfl, rfl⟩ | ⟨rfl, rfl⟩ | ⟨rfl, rfl⟩ | ⟨rfl, rfl⟩ | ⟨rfl, rfl⟩ | ⟨rfl, rfl⟩ | ⟨rfl, rfl⟩ | ⟨rfl, hm, rfl⟩ |
    ⟨hm, h⟩
  iterate 7 exact ⟨⟨csrPriv_user m (by decide), rfl, fun _ _ => rfl, fun _ _ => rfl⟩, by decide⟩
  · exact ⟨⟨csrPriv_user m (by decide), bne_iff_ne.mpr hm, fun _ _ => rfl, fun _ _ => rfl⟩, by decide⟩
  · rcases h with ⟨rfl, rfl⟩ | ⟨rfl, rfl⟩ | ⟨rfl, rfl⟩ | ⟨rfl, rfl⟩ | ⟨rfl, rfl⟩ | ⟨rfl, rfl⟩ <;>
      exact ⟨⟨csrPriv_supervisor (by decide) hm, rfl, fun _ _ => rfl, fun _ _ => rfl⟩, by decide⟩

/-- Of `status`, a write reaches FPEN and PMODE (R367). -/
theorem csrOfCore_status {m : Mode} (hm : m ≠ .task) :
    CsrOfCore 0x105 m fun k v => { k with fpen := BitVec.ofNat 6 (v.toNat / 256), pmode := BitVec.ofNat 2 v.toNat } where
  inRange := csrPriv_supervisor (by decide) hm
  writable := rfl
  write s v := by
    have hfpen : BitVec.ofNat 6 (v.fld 13 8) = BitVec.ofNat 6 (v.toNat / 256) := by
      apply BitVec.eq_of_toNat_eq; simp [Word.fld]
    have hpmode : BitVec.ofNat 2 (v.fld 1 0) = BitVec.ofNat 2 v.toNat := by
      apply BitVec.eq_of_toNat_eq; simp [Word.fld]
    rw [← hfpen, ← hpmode]
    rfl
  keepsPc _ _ := rfl

/-- The user registers that take no write in mode `m`: none of them waits. -/
theorem csr_readOnly {n : Nat} {m : Mode} (h : n ≤ 7 ∨ 0xB ≤ n ∧ n ≤ 0xE ∨ n = 0x10 ∨ n = 0xA ∧ m = .task) :
    csrWritable n m = false ∧ csrWaits n = false := by
  refine ⟨?_, ?_⟩
  · rcases h with h | ⟨h, h'⟩ | rfl | ⟨rfl, rfl⟩
    · obtain rfl | rfl | rfl | rfl | rfl | rfl | rfl | rfl :
          n = 0 ∨ n = 1 ∨ n = 2 ∨ n = 3 ∨ n = 4 ∨ n = 5 ∨ n = 6 ∨ n = 7 := by omega
      all_goals rfl
    · obtain rfl | rfl | rfl | rfl : n = 0xB ∨ n = 0xC ∨ n = 0xD ∨ n = 0xE := by omega
      all_goals rfl
    · rfl
    · rfl
  · have h8 : n ≠ 8 := by omega
    have h9 : n ≠ 9 := by omega
    have h23 : n ≠ 0x23 := by omega
    have h24 : n ≠ 0x24 := by omega
    simp only [csrWaits, h8, h9, h23, h24, decide_false, Bool.or_false]

/-! ### The vector of the context -/

theorem State.ctx_modCtx_same (s : State) (x : Nat) (f : Ctx → Ctx) : (s.modCtx x f).ctx x = f (s.ctx x) := Map.get_set_same ..

theorem State.ctx_modCtx_ne (s : State) {x y : Nat} (f : Ctx → Ctx) (h : y ≠ x) : (s.modCtx x f).ctx y = s.ctx y :=
  Map.get_set_ne _ _ _ h

theorem State.csrWrite_tvec (s : State) (v : Word) : s.csrWrite 0x104 v = s.modCtx s.me.ctx fun x => { x with tvec := v } := rfl

theorem State.csrWritten_ctx (s : State) (n : Nat) (v : Word) (d : BitVec 5) (old : Word) (x : Nat) :
    (s.csrWritten n v d old).ctx x = (s.csrWrite n v).ctx x := rfl

theorem State.ctx_csrWritten_tvec_same (s : State) (v : Word) (d : BitVec 5) (old : Word) :
    (s.csrWritten 0x104 v d old).ctx s.me.ctx = { s.ctx s.me.ctx with tvec := v } := by
  rw [State.csrWritten_ctx, State.csrWrite_tvec, State.ctx_modCtx_same]

theorem State.ctx_csrWritten_tvec_ne (s : State) (v : Word) (d : BitVec 5) (old : Word) {x : Nat} (h : x ≠ s.me.ctx) :
    (s.csrWritten 0x104 v d old).ctx x = s.ctx x := by
  rw [State.csrWritten_ctx, State.csrWrite_tvec, State.ctx_modCtx_ne s _ h]

theorem State.coreIs_csrWritten_tvec (s : State) (v : Word) (d : BitVec 5) (old : Word) :
    let t := s.csrWritten 0x104 v d old
    CoreIs s.cur { s with ctxs := t.ctxs } t { (s.me.clean (0x104 + 32)).put d old with pc := s.me.pc + 4 } :=
  (s.csrWrite 0x104 v).coreIs_clean_result _ d old

/-- Settles O29: `exec_csrWriter_iff` at each kind of register, with what `csrWritten` leaves there. That a write of `ctrbase` in task
mode answers ILLEGAL is the model's reading (log 14). -/
theorem csrWrites : Obligations.CsrWrites := by
  constructor
  · intro w d a c s old upd n hlist hr hwait hdef does
    obtain ⟨hreg, hstatus⟩ := csrOfCore_of_register hlist
    have hp : CsrPasses n s := ⟨hreg.inRange, fun _ => ⟨hwait, hdef⟩⟩
    have hdoes : ∀ {i v}, CsrWriter i d c s old v → does i v := by
      intro i v hw hi
      have htakes : csrTakes n s.me.mode v = true ↔ v &&& csrZero n = 0 := by
        simp [csrTakes_iff, hreg.writable, hstatus]
      obtain ⟨hwrite, hrefuse⟩ := exec_csrWriter_iff hw hi hr hp htakes
      exact ⟨fun hz => ⟨_, hwrite hz, hreg.coreIs_csrWritten s v d old⟩, hrefuse⟩
    exact ⟨hdoes (csrWriter_csrw w d c s old), fun ha => hdoes (csrWriter_csrs w d c s old ha),
      fun ha => hdoes (csrWriter_csrc w d c s old ha)⟩
  · intro w d a c s i old v n k hr hi hiv refused
    have hw : CsrWriter i d c s old v := by
      rcases hiv with ⟨rfl, rfl⟩ | ⟨ha, rfl, rfl⟩ | ⟨ha, rfl, rfl⟩
      · exact csrWriter_csrw w d c s old
      · exact csrWriter_csrs w d c s old ha
      · exact csrWriter_csrc w d c s old ha
    refine ⟨fun hn hm => ?status, fun hn hm => ?tvec, fun hro => ?readOnly⟩
    case status =>
      have hreg := csrOfCore_status hm
      rw [← hn] at hreg
      have hp : CsrPasses n s := ⟨hreg.inRange, by rw [hn]; exact nofun⟩
      have htakes : csrTakes n s.me.mode v = true ↔ v &&& csrZero n = 0 ∧ v.toNat % 4 < 2 := by
        rw [csrTakes_iff]
        exact ⟨fun ⟨_, hz, hv⟩ => ⟨hz, hv hn⟩, fun ⟨hz, hv⟩ => ⟨hreg.writable, hz, fun _ => hv⟩⟩
      obtain ⟨hwrite, hrefuse⟩ := exec_csrWriter_iff hw hi hr hp htakes
      exact ⟨fun hz hv => ⟨_, hwrite ⟨hz, hv⟩, hreg.coreIs_csrWritten s v d old⟩,
        fun hbad => hrefuse fun ⟨hz, hv⟩ => hbad.elim (absurd hz) (absurd hv ∘ Nat.not_lt.mpr)⟩
    case tvec =>
      have hp : CsrPasses n s := ⟨csrPriv_supervisor (by omega) hm, by rw [hn]; exact nofun⟩
      have htakes : csrTakes n s.me.mode v = true ↔ v &&& csrZero n = 0 := by
        simp [csrTakes_iff, hn, csrWritable]
      obtain ⟨hwrite, hrefuse⟩ := exec_csrWriter_iff hw hi hr hp htakes
      refine ⟨fun hz => ⟨s.csrWritten n v d old, hwrite hz, ?_⟩, hrefuse⟩
      rw [hn]
      exact ⟨s.ctx_csrWritten_tvec_same v d old, fun x hx => s.ctx_csrWritten_tvec_ne v d old hx,
        s.coreIs_csrWritten_tvec v d old⟩
    case readOnly =>
      obtain ⟨hfixed, hnowait⟩ : csrWritable n s.me.mode = false ∧ csrWaits n = false := csr_readOnly hro
      have hp : CsrPasses n s := ⟨csrPriv_user _ (by omega), by rw [hnowait]; exact nofun⟩
      have htakes : csrTakes n s.me.mode v = true ↔ False := by
        rw [csrTakes_iff, hfixed]
        exact iff_false_intro fun ⟨hwritable, _⟩ => Bool.false_ne_true hwritable
      obtain ⟨-, hrefuse⟩ := exec_csrWriter_iff hw hi hr hp htakes
      exact hrefuse id

end Sys2Proof.Machine
end

section
/-! ## Steps that are due, sample words and the registers read -/

namespace Sys2Proof.Machine

open Sys2Proof

/-! ### Steps of the agenda (log 1) -/

theorem step_of_due {s : State} {e : Event} {rest : List (Nat × Event)} (h : takeDue s.cycle s.agenda = some (e, rest)) :
    step s = runEvent e { s with agenda := rest } := by
  rw [step, h]

theorem runEvent_of_next {e : Event} {s t : State} (h : eventMeaning e s = .next t) :
    runEvent e s = .next (if t.blocked then s.postIn 64 e else t) := by
  rw [runEvent, h]
  exact (apply_ite Host.Outcome.next _ _ _).symm

theorem State.cycle_lt_nextCycle (s : State) : s.cycle < s.nextCycle := by
  simp only [State.nextCycle]
  split
  · exact Nat.lt_succ_self s.cycle
  · exact Nat.le_max_right _ _

theorem step_of_idle {s : State} (hdue : takeDue s.cycle s.agenda = none) (hready : firstReady s.cycle s.cores = none) :
    step s = .next { s with cycle := s.nextCycle } := by
  rw [step, hdue]
  simp only [hready]

/-- Settles O8: a step that is due is `runEvent`, and with nothing to do `nextCycle` comes later. -/
theorem stepRunsDue : Obligations.StepRunsDue := by
  refine ⟨fun s e rest hdue => ?due, fun s hdue hready => ⟨s.nextCycle, s.cycle_lt_nextCycle, step_of_idle hdue hready⟩⟩
  case due =>
    refine ⟨step_of_due hdue, fun t ht => ⟨fun hb => ?_, fun hb => ?_⟩⟩ <;>
      rw [step_of_due hdue, runEvent_of_next ht, hb] <;> rfl

/-! ### Words of the manual -/

/-- Settles O5: the decoder, run on each word. -/
theorem sampleWords : Obligations.SampleWords := by
  unfold Obligations.SampleWords
  exact ⟨rfl, rfl, rfl, rfl, rfl, rfl, rfl, rfl, rfl, rfl, rfl, rfl, rfl, rfl, rfl, rfl, rfl⟩

/-! ### Registers by number (R89, R364) -/

theorem State.machineRead_eq_none (s : State) {n : Nat} (h : n < 0x240) : s.machineRead n = none := by
  unfold State.machineRead
  extract_lets r l
  split
  case h_15 => rfl
  all_goals omega

/-- The numbers of the user and the supervisor range at which there is no register. -/
def csrReserved (n : Nat) : Prop :=
  n = 0x00F ∨ 0x011 ≤ n ∧ n ≤ 0x01F ∨ 0x025 ≤ n ∧ n ≤ 0x0FF ∨ 0x108 ≤ n ∧ n ≤ 0x1FF

theorem State.csrRead_eq_none (s : State) {n : Nat} (h : csrReserved n) : s.csrRead n = none := by
  unfold csrReserved at h
  have hn : n < 0x240 := by omega
  unfold State.csrRead
  extract_lets k
  split
  case h_30 => exact s.machineRead_eq_none hn
  all_goals omega

theorem some_wordOf_toNat {n : Nat} (v : BitVec n) : some (Word.of v.toNat) = some (v.setWidth 64) :=
  congrArg some (BitVec.ofNat_toNat 64 v)

/-- Settles O27: each number is a branch of `csrRead`; the reserved ones reach none. -/
theorem csrNumbers : Obligations.CsrNumbers := by
  intro s k
  refine ⟨rfl, some_wordOf_toNat k.tl, rfl, rfl, some_wordOf_toNat k.src, some_wordOf_toNat k.chan, some_wordOf_toNat k.gang,
    some_wordOf_toNat k.issuer, some_wordOf_toNat k.fflags, some_wordOf_toNat k.frm, rfl, rfl, rfl, rfl, rfl,
    some_wordOf_toNat k.keys, rfl, rfl, rfl, rfl, rfl, rfl, rfl, rfl, rfl, rfl, rfl, rfl, rfl,
    s.csrRead_eq_none (.inl rfl), fun n h h' => s.csrRead_eq_none (.inr (.inl ⟨h, h'⟩)),
    fun n h h' => s.csrRead_eq_none (.inr (.inr (.inl ⟨h, h'⟩))), fun n h h' => s.csrRead_eq_none (.inr (.inr (.inr ⟨h, h'⟩)))⟩

end Sys2Proof.Machine
end

section
/-! ## Integer words: the ALU family, sel, bit fields, immediates, jalr -/

namespace Sys2Proof.Machine

open Sys2Proof

/-! ### The ALU family and sel (R92, R93) -/

section
variable {α : Type} (A B : Word) (x y : α)

theorem ite_slt : (if A.slt B then x else y) = if A.toInt < B.toInt then x else y :=
  ite_congr (propext BitVec.slt_iff_toInt_lt) (fun _ => rfl) fun _ => rfl

theorem ite_ult : (if A.ult B then x else y) = if A.toNat < B.toNat then x else y :=
  ite_congr (propext BitVec.ult_iff_toNat_lt) (fun _ => rfl) fun _ => rfl

end

theorem bit_beq (A B : Word) : bit (A == B) = if A = B then 1 else 0 :=
  ite_congr (propext beq_iff_eq) (fun _ => rfl) fun _ => rfl

/-- Settles O17: each word's own part is one register result; the comparisons of the model decide those of the statement. -/
theorem aluResults : Obligations.AluResults := by
  intro w d a b s A B sh
  refine ⟨gives_of_word rfl rfl, gives_of_word rfl rfl, gives_of_word rfl rfl, gives_of_word rfl rfl, gives_of_word rfl rfl,
    gives_of_word rfl rfl, gives_of_word rfl rfl, gives_of_word rfl rfl, gives_of_word rfl rfl, gives_of_word rfl rfl,
    gives_of_word rfl rfl, gives_of_word rfl rfl, gives_of_word rfl rfl, gives_of_word rfl rfl, gives_of_word rfl rfl,
    gives_of_word rfl rfl, gives_of_word rfl rfl, gives_of_word rfl rfl, ?min, ?max,
    ?minu, ?maxu, ?slt, ?sltu, ?seq⟩
  case min => exact ite_slt A B A B ▸ gives_of_word rfl rfl
  case max => exact ite_slt A B B A ▸ gives_of_word rfl rfl
  case minu => exact ite_ult A B A B ▸ gives_of_word rfl rfl
  case maxu => exact ite_ult A B B A ▸ gives_of_word rfl rfl
  case slt => exact ite_slt A B (1 : Word) 0 ▸ gives_of_word rfl rfl
  case sltu => exact ite_ult A B (1 : Word) 0 ▸ gives_of_word rfl rfl
  case seq => exact bit_beq A B ▸ gives_of_word rfl rfl

/-- Settles O19: the test of the model is that of the statement, and s0 fails it. -/
theorem selectResult : Obligations.SelectResult := by
  intro w d a b c s
  have hsel : ∀ c, Gives (.sel w d a b c) s d (if s.me.get c ≠ 0 then s.me.get a else s.me.get b) := fun c =>
    gives_of_word rfl <| congrArg (s.result d) <| ite_congr (propext bne_iff_ne) (fun _ => rfl) fun _ => rfl
  exact ⟨hsel c, hsel 0⟩

/-! ### Bit fields (R94) -/

theorem toNat_extractLsb'_eq_fieldOf (A : Word) (pos len : Nat) : (A.extractLsb' pos len).toNat = fieldOf A pos len := by
  rw [BitVec.extractLsb'_toNat, Nat.shiftRight_eq_div_pow, fieldOf]

theorem fieldOf_lt (A : Word) (pos len : Nat) : fieldOf A pos len < 2 ^ len := Nat.mod_lt _ (Nat.two_pow_pos len)

theorem fieldOf_eq (A : Word) (pos len : Nat) : Word.of (fieldOf A pos len) = (A.extractLsb' pos len).setWidth 64 := by
  rw [← toNat_extractLsb'_eq_fieldOf, Word.of, BitVec.ofNat_toNat]

/-- A field whose top bit is set stands for its value less 2^len. -/
theorem signedField_eq (A : Word) (pos : Nat) {n : Nat} (hn : n < 64) :
    Word.of (if fieldOf A pos (n + 1) / 2 ^ n = 1 then 2 ^ 64 - 2 ^ (n + 1) + fieldOf A pos (n + 1) else fieldOf A pos (n + 1)) =
      (A.extractLsb' pos (n + 1)).signExtend 64 := by
  have hlt : fieldOf A pos (n + 1) < 2 ^ (n + 1) := fieldOf_lt A pos (n + 1)
  have hpow : 2 ^ (n + 1) ≤ 2 ^ 64 := Nat.pow_le_pow_right (by decide) hn
  have hhalf : 2 ^ (n + 1) = 2 * 2 ^ n := Nat.pow_succ'
  have htop : (A.extractLsb' pos (n + 1)).msb = true ↔ fieldOf A pos (n + 1) / 2 ^ n = 1 := by
    rw [BitVec.msb_eq_decide, toNat_extractLsb'_eq_fieldOf, decide_eq_true_iff, Nat.add_sub_cancel,
      Nat.div_eq_iff (Nat.two_pow_pos n)]
    omega
  apply BitVec.eq_of_toNat_eq
  rw [BitVec.toNat_signExtend, BitVec.toNat_setWidth, toNat_extractLsb'_eq_fieldOf, Word.of, BitVec.toNat_ofNat]
  simp only [htop]
  split <;> omega

/-- The bits of a number by its parts: `lo` low ones, a field of `n` above them, and the rest. -/
theorem testBit_three_parts {lo n f l : Nat} (h : Nat) (hf : f < 2 ^ n) (hl : l < 2 ^ lo) (j : Nat) :
    (2 ^ lo * (2 ^ n * h + f) + l).testBit j =
      if j < lo then l.testBit j else if j < lo + n then f.testBit (j - lo) else h.testBit (j - lo - n) := by
  rw [Nat.testBit_two_pow_mul_add _ hl, Nat.testBit_two_pow_mul_add _ hf]
  by_cases hj : j < lo
  · rw [if_pos hj, if_pos hj]
  · have hn : j - lo < n ↔ j < lo + n := by omega
    simp only [hj, hn, if_false]

/-- The bits of a word with a field of it replaced. -/
theorem getLsbD_putFld (v : Word) {lo n j : Nat} (x : Nat) (hj : j < 64) :
    (putFld v lo n x).getLsbD j = if lo ≤ j ∧ j < lo + n then x.testBit (j - lo) else v.getLsbD j := by
  have hlow : v.toNat % 2 ^ lo < 2 ^ lo := Nat.mod_lt _ (Nat.two_pow_pos lo)
  have hfield : ∀ y, y % 2 ^ n < 2 ^ n := fun y => Nat.mod_lt y (Nat.two_pow_pos n)
  have hparts : v.toNat =
      2 ^ lo * (2 ^ n * (v.toNat / 2 ^ lo / 2 ^ n) + v.toNat / 2 ^ lo % 2 ^ n) + v.toNat % 2 ^ lo := by
    rw [Nat.div_add_mod, Nat.div_add_mod]
  have hput : v.toNat - v.toNat / 2 ^ lo % 2 ^ n * 2 ^ lo + x % 2 ^ n * 2 ^ lo =
      2 ^ lo * (2 ^ n * (v.toNat / 2 ^ lo / 2 ^ n) + x % 2 ^ n) + v.toNat % 2 ^ lo := by
    rw [Nat.mul_add] at hparts ⊢
    rw [Nat.mul_comm _ (2 ^ lo), Nat.mul_comm _ (2 ^ lo)]
    omega
  have hold : v.getLsbD j = _ := (congrArg (Nat.testBit · j) hparts).trans (testBit_three_parts _ (hfield _) hlow j)
  rw [putFld, hput, Word.of, BitVec.getLsbD_ofNat, decide_eq_true hj, Bool.true_and,
    testBit_three_parts _ (hfield _) hlow, hold]
  by_cases h1 : j < lo
  · simp only [h1, if_true, Nat.not_le.mpr h1, false_and, if_false]
  · by_cases h2 : j < lo + n
    · have h3 : j - lo < n := by omega
      simp only [h1, h2, h3, Nat.not_lt.mp h1, if_false, if_true, and_self, Nat.testBit_mod_two_pow, decide_true, Bool.true_and]
    · simp only [h1, h2, and_false, if_false]

/-- Settles O20: the fields as the model takes and puts them; the words that it refuses are those that the statement excludes. -/
theorem bitFields : Obligations.BitFields := by
  intro w d a l p s len pos f
  refine ⟨fun h => ⟨?ext, ?exts, ?ins⟩, fun h => ?tooLong⟩
  case ext => exact fieldOf_eq (s.me.get a) pos len ▸ gives_of_word rfl rfl
  case exts =>
    rw [← signedField_eq (s.me.get a) pos l.isLt]
    exact gives_of_word rfl rfl
  case ins =>
    refine ⟨putFld (s.me.get d) pos len (s.me.get a).toNat, gives_of_word rfl rfl, fun j hj => ?_⟩
    exact getLsbD_putFld _ _ hj
  case tooLong =>
    have hwf : decide (pos + len ≤ 64) = false := decide_eq_false (Nat.not_le.mpr h)
    exact ⟨exec_illFormed_of_word rfl hwf, exec_illFormed_of_word rfl hwf, exec_illFormed_of_word rfl hwf⟩

/-! ### Immediates (R95, R96) -/

theorem toInt_imm14 (v : BitVec 14) : (imm14 v).toInt = v.toInt := BitVec.toInt_signExtend_of_le (by decide)

theorem upperImm_eq (u : BitVec 19) : upperImm u = ((u.setWidth 33) <<< 14).signExtend 64 := by
  have h : u ++ 0#14 = (u.setWidth 33) <<< 14 := by
    apply BitVec.eq_of_toNat_eq
    rw [BitVec.toNat_append, BitVec.toNat_shiftLeft, BitVec.toNat_setWidth_of_le (by decide)]
    simp [Nat.shiftLeft_eq]
    omega
  rw [upperImm, h]

/-- Settles O21: each word's own part is one register result, whose immediate `imm14` or `upperImm` extends. -/
theorem immediates : Obligations.Immediates := by
  intro w d a v u h s A V U
  have hU : upperImm u = U := upperImm_eq u
  refine ⟨?lui, ?auipc, gives_of_word rfl rfl, gives_of_word rfl rfl, gives_of_word rfl rfl, gives_of_word rfl rfl,
    gives_of_word rfl rfl, gives_of_word rfl rfl, gives_of_word rfl rfl, ?slti, ?sltiu⟩
  case lui => exact hU ▸ gives_of_word rfl rfl
  case auipc => exact hU ▸ gives_of_word rfl rfl
  case slti =>
    rw [← toInt_imm14, ← ite_slt]
    exact gives_of_word rfl rfl
  case sltiu =>
    rw [← ite_ult]
    exact gives_of_word rfl rfl

/-! ### jalr (R105) -/

theorem fld_one_zero (v : Word) : v.fld 1 0 = v.toNat % 4 := congrArg (· % 4) (Nat.div_one v.toNat)

theorem State.coreIs_put_goto (s : State) (d : BitVec 5) (v t : Word) :
    CoreIs s.cur s ((s.modMe fun k => k.put d v).goto t) { s.me.put d v with pc := t, ready := s.cycle + 3 } := by
  have h := (s.coreIs_modMe fun k => k.put d v).trans (State.coreIs_goto _ t)
  rwa [State.me_modMe] at h

/-- What a register write and a jump leave of the core (R29, R403). -/
theorem Core.put_jump_frame (k : Core) (d : BitVec 5) (v t : Word) (n : Nat) :
    { ({ k.put d v with pc := t, ready := n } : Core) with pc := k.pc, ready := k.ready, regs := k.regs } = cleaned k d := by
  unfold Core.put cleaned
  split <;> rfl

/-- Settles O26: the word either jumps or traps, as the target's low bits say. -/
theorem jumpRegister : Obligations.JumpRegister := by
  intro w d a v s hi target
  have he : exec (.jalr w d a v) s = .next (if target.fld 1 0 != 0 then s.trap 0x03 target
      else (s.modMe fun k => k.put d (s.me.pc + 4)).goto target) := word_of_issues hi _
  rw [he, fld_one_zero]
  refine ⟨fun hz => ?jumps, fun hnz => ?traps⟩
  case jumps =>
    obtain ⟨honly, hme⟩ := s.coreIs_put_goto d (s.me.pc + 4) target
    refine ⟨_, by simp [hz], honly, ?_⟩
    rw [show State.me _ = _ from hme]
    exact ⟨rfl, s.me.get_put_same d _, fun r hr => s.me.get_put_ne _ hr, s.me.put_jump_frame d _ target (s.cycle + 3)⟩
  case traps => simp [hnz]

end Sys2Proof.Machine
end

section
/-! ## Scalar floating point: results and FPE

Every word of the family ends in `fpResult`. `FpWord` says with which value and flags; from it follow both what the word
writes and the trap that it takes instead. -/

namespace Sys2Proof.Machine

open Sys2Proof

/-- The own part of the word `i` is the floating-point result `v` with the flags `fl`. -/
def FpWord (i : Instr) (s : State) (d : BitVec 5) (v : Word) (fl : Flags) : Prop :=
  ∃ body, exec i s = word i body s ∧ body s = s.fpResult d v fl

section
variable {i : Instr} {s : State} {d : BitVec 5} {v : Word} {fl : Flags}

theorem FpWord.givesFlags (h : FpWord i s d v fl) : GivesFlags i s d v fl := by
  obtain ⟨body, he, hb⟩ := h
  exact givesFlags_of_word he hb

theorem State.fpResult_of_enabled (d : BitVec 5) (v : Word) (hfl : fl &&& s.me.fpen ≠ 0) :
    s.fpResult d v fl = s.trap 0x13 (BitVec.ofNat 64 fl.toNat) :=
  if_pos (bne_iff_ne.mpr hfl)

theorem FpWord.trapsFpe (h : FpWord i s d v fl) (hi : Issues i s) (hfl : fl &&& s.me.fpen ≠ 0) :
    exec i s = .next (s.trap 0x13 (BitVec.ofNat 64 fl.toNat)) := by
  obtain ⟨body, he, hb⟩ := h
  rw [he, word_of_issues hi, hb, State.fpResult_of_enabled d v hfl]

end

/-! ### The words of the family (R97 to R101) -/

/-- A word of the family whose result is the value `r` rounded once. -/
def FpArith (i : Instr) (s : State) (d : BitVec 5) (f : Fmt) (r : FVal × Flags) : Prop :=
  FpWord i s d (BitVec.ofNat 64 (f.result s.me.frm r.1 r.2).1) (f.result s.me.frm r.1 r.2).2

section
variable (w : Bool) (d a b c : BitVec 5) (y : BitVec 4) (s : State)

/-- The value of register `r` under the word's type. -/
def fpVal (s : State) (y : BitVec 4) (r : BitVec 5) : FVal := (fmtD y.toNat).val (s.me.get r).toNat

theorem fpArith_fadd : FpArith (.fadd w d a b y) s d (fmtD y.toNat) (fAddV s.me.frm (fpVal s y a) (fpVal s y b)) := ⟨_, rfl, rfl⟩

theorem fpArith_fsub : FpArith (.fsub w d a b y) s d (fmtD y.toNat) (fAddV s.me.frm (fpVal s y a) (fpVal s y b).negate) :=
  ⟨_, rfl, rfl⟩

theorem fpArith_fmul : FpArith (.fmul w d a b y) s d (fmtD y.toNat) (fMulV (fpVal s y a) (fpVal s y b)) := ⟨_, rfl, rfl⟩

theorem fpArith_fdiv : FpArith (.fdiv w d a b y) s d (fmtD y.toNat) (fDivV (fpVal s y a) (fpVal s y b)) := ⟨_, rfl, rfl⟩

theorem fpArith_fsqrt : FpArith (.fsqrt w d a y) s d (fmtD y.toNat) (fSqrtV (fpVal s y a)) := ⟨_, rfl, rfl⟩

theorem fpArith_fma :
    FpArith (.fma w d a b c y) s d (fmtD y.toNat) (fFmaV s.me.frm (fpVal s y a) (fpVal s y b) (fpVal s y c)) := ⟨_, rfl, rfl⟩

/-- A comparison of the family: 0 or 1. -/
theorem fpWord_fcmp {i : Instr} {kind : Nat} {lt : Bool} {fl : Flags}
    (he : exec i s = fpu3 i d a b y (fun f _ A B => ((f.cmp kind A B).1.toNat, (f.cmp kind A B).2)) s)
    (hcmp : (fmtD y.toNat).cmp kind (s.me.get a).toNat (s.me.get b).toNat = (lt, fl)) :
    FpWord i s d (if lt then 1 else 0) fl := by
  refine ⟨_, he, ?_⟩
  simp only [hcmp]
  cases lt <;> rfl

end

section
variable (f : Fmt) (m n : Nat)

theorem Fmt.cmp_lt : f.cmp 0 m n = (!(f.val m).isNan && !(f.val n).isNan && (f.val m).lt (f.val n),
    if (f.val m).isNan || (f.val n).isNan then fNV else 0) := by
  simp only [Fmt.cmp]
  cases (f.val m).isNan <;> cases (f.val n).isNan <;> rfl

theorem Fmt.cmp_le : f.cmp 1 m n =
    (!(f.val m).isNan && !(f.val n).isNan && ((f.val m).lt (f.val n) || (f.val m).eqv (f.val n)),
      if (f.val m).isNan || (f.val n).isNan then fNV else 0) := by
  simp only [Fmt.cmp]
  cases (f.val m).isNan <;> cases (f.val n).isNan <;> rfl

theorem Fmt.cmp_eq : f.cmp 2 m n = (!(f.val m).isNan && !(f.val n).isNan && (f.val m).eqv (f.val n), 0) := by
  simp only [Fmt.cmp]
  cases (f.val m).isNan <;> cases (f.val n).isNan <;> rfl

end

/-- Settles O22: each word is the result that its lemma above names. -/
theorem fpuResults : Obligations.FpuResults := by
  intro w d a b c y s f rm pa pb A B C round arith
  have harith : ∀ {i r}, FpArith i s d f r → arith i r := fun h => FpWord.givesFlags h
  refine ⟨harith (fpArith_fadd ..), harith (fpArith_fsub ..), harith (fpArith_fmul ..), harith (fpArith_fdiv ..),
    harith (fpArith_fsqrt ..), harith (fpArith_fma ..), givesFlags_of_word rfl rfl, givesFlags_of_word rfl rfl, ?lt, ?le, ?eq,
    givesFlags_of_word rfl rfl⟩
  case lt => exact (fpWord_fcmp d a b y s rfl (f.cmp_lt pa pb)).givesFlags
  case le => exact (fpWord_fcmp d a b y s rfl (f.cmp_le pa pb)).givesFlags
  case eq => exact (fpWord_fcmp d a b y s rfl (f.cmp_eq pa pb)).givesFlags

/-- Settles O24: `fpResult` with an enabled flag is the trap. -/
theorem fpeTrap : Obligations.FpeTrap := by
  intro w d a b c u g y s f rm A B C res traps
  have harith : ∀ {i r}, FpArith i s d f r → traps i r := fun h => FpWord.trapsFpe h
  refine ⟨harith (fpArith_fadd ..), harith (fpArith_fsub ..), harith (fpArith_fmul ..), harith (fpArith_fdiv ..),
    harith (fpArith_fsqrt ..), harith (fpArith_fma ..), fun i hi hissues hnan hfl => ?compare, FpWord.trapsFpe ⟨_, rfl, rfl⟩⟩
  case compare =>
    have hflag : (if A.isNan || B.isNan then fNV else 0) = fNV := if_pos (Bool.or_eq_true _ _ ▸ hnan)
    rcases hi with rfl | rfl
    · exact (hflag ▸ fpWord_fcmp d a b y s rfl (f.cmp_lt _ _)).trapsFpe hissues hfl
    · exact (hflag ▸ fpWord_fcmp d a b y s rfl (f.cmp_le _ _)).trapsFpe hissues hfl

end Sys2Proof.Machine
end

section
/-! ## Words that read a register (R90, R91) -/

namespace Sys2Proof.Machine

open Sys2Proof

/-- The word `i` is one of the four on register `c`. -/
def CsrAccessor (i : Instr) (d : BitVec 5) (c : BitVec 12) (s : State) : Prop :=
  ∃ new : Core → Word → Option Word, exec i s = csrWord i d c new s

/-- The word `i` is one of the four and writes no register. -/
def CsrReader (i : Instr) (d : BitVec 5) (c : BitVec 12) (s : State) : Prop :=
  ∃ new : Core → Word → Option Word, exec i s = csrWord i d c new s ∧ ∀ old, new s.me old = none

theorem csrAccessor_of_four {w : Bool} {d a : BitVec 5} {c : BitVec 12} {i : Instr} (s : State)
    (h : i = .csrr w d c ∨ i = .csrw w d a c ∨ i = .csrs w d a c ∨ i = .csrc w d a c) : CsrAccessor i d c s := by
  rcases h with rfl | rfl | rfl | rfl
  · exact ⟨fun _ _ => none, rfl⟩
  · exact ⟨fun k _ => some (k.get a), rfl⟩
  · exact ⟨fun k old => if a = 0 then none else some (old ||| k.get a), rfl⟩
  · exact ⟨fun k old => if a = 0 then none else some (old &&& ~~~(k.get a)), rfl⟩

section
variable (w : Bool) (d : BitVec 5) (c : BitVec 12) (s : State)

theorem csrReader_csrr : CsrReader (.csrr w d c) d c s := ⟨fun _ _ => none, rfl, fun _ => rfl⟩

theorem csrReader_csrs : CsrReader (.csrs w d 0 c) d c s :=
  ⟨fun k old => if (0 : BitVec 5) = 0 then none else some (old ||| k.get 0), rfl, fun _ => rfl⟩

theorem csrReader_csrc : CsrReader (.csrc w d 0 c) d c s :=
  ⟨fun k old => if (0 : BitVec 5) = 0 then none else some (old &&& ~~~(k.get 0)), rfl, fun _ => rfl⟩

end

theorem csrPriv_iff {n : Nat} {m : Mode} :
    csrPriv n m = true ↔ 0x200 ≤ n ∧ m ≠ .firmware ∨ 0x100 ≤ n ∧ m = .task := by
  simp [csrPriv]

section
variable {i : Instr} {d : BitVec 5} {c : BitVec 12} {s : State}

theorem CsrAccessor.trapsPriv (h : CsrAccessor i d c s) (hi : Issues i s) (hpriv : csrPriv c.toNat s.me.mode = true) :
    exec i s = .next (s.trap 2 ((encode i).setWidth 64)) := by
  obtain ⟨new, he⟩ := h
  rw [he, csrWord, word_of_issues hi, ← wordTval_eq]
  cases hr : s.csrRead c.toNat <;> simp [hr, hpriv]

theorem CsrAccessor.trapsIllegal (h : CsrAccessor i d c s) (hi : Issues i s) (hpriv : csrPriv c.toNat s.me.mode = false)
    (hr : s.csrRead c.toNat = none) : exec i s = .next (s.trap 1 ((encode i).setWidth 64)) := by
  obtain ⟨new, he⟩ := h
  rw [he, csrWord, word_of_issues hi, ← wordTval_eq]
  simp [hr, hpriv]

theorem CsrReader.gives {v : Word} (h : CsrReader i d c s) (hp : CsrPasses c.toNat s) (hr : s.csrRead c.toNat = some v) :
    Gives i s d v := by
  intro hi
  obtain ⟨new, he, hnew⟩ := h
  obtain ⟨hpriv, hdrained⟩ := hp
  refine ⟨s.result d v, ?_, s.writes_result d v⟩
  rw [he, csrWord, word_of_issues hi]
  by_cases hwait : csrWaits c.toNat = true
  · obtain ⟨hout, hdef⟩ := hdrained hwait
    simp [hr, hpriv, hnew, hwait, State.waited, hout, hdef]
  · simp [hr, hpriv, hnew, hwait]

end

/-- Settles O28: the privilege of the range comes first, then whether the number is a register. -/
theorem csrReads : Obligations.CsrReads := by
  intro w d a c s n above drained
  have hpriv : ¬above → csrPriv n s.me.mode = false := fun h => Bool.eq_false_iff.mpr fun h' => h (csrPriv_iff.mp h')
  refine ⟨fun v hr hbelow hdrained => ?reads,
    fun habove i h hi => (csrAccessor_of_four s h).trapsPriv hi (csrPriv_iff.mpr habove),
    fun hbelow hr i h hi => (csrAccessor_of_four s h).trapsIllegal hi (hpriv hbelow) hr⟩
  case reads =>
    have hgives : ∀ {i}, CsrReader i d c s → Gives i s d v := fun h => h.gives ⟨hpriv hbelow, hdrained⟩ hr
    exact ⟨hgives (csrReader_csrr w d c s), hgives (csrReader_csrs w d c s), hgives (csrReader_csrc w d c s)⟩

end Sys2Proof.Machine
end

section
/-! ## The ends of a task: tend, yield and the watchdog (R107 to R111, R224, R372) -/

namespace Sys2Proof.Machine

open Sys2Proof

/-! ### What a core lets go is posted and nothing else -/

/-- The agenda apart, nothing differs. -/
def AgendaOnly (s t : State) : Prop := { t with agenda := s.agenda } = s

section
variable {s t u : State}

theorem AgendaOnly.refl (s : State) : AgendaOnly s s := rfl

theorem AgendaOnly.postIn (h : AgendaOnly s t) (d : Nat) (e : Event) : AgendaOnly s (t.postIn d e) := h

theorem AgendaOnly.post (h : AgendaOnly s t) (e : Event) : AgendaOnly s (t.post e) := h

theorem AgendaOnly.ite {p : Prop} [Decidable p] (ht : AgendaOnly s t) (hu : AgendaOnly s u) :
    AgendaOnly s (if p then t else u) := by
  split <;> assumption

theorem AgendaOnly.foldl {α : Type} {f : State → α → State} (l : List α) (h : AgendaOnly s t)
    (hf : ∀ u x, AgendaOnly s u → AgendaOnly s (f u x)) : AgendaOnly s (l.foldl f t) := by
  induction l generalizing t with
  | nil => exact h
  | cons x l ih => exact ih (hf t x h)

theorem AgendaOnly.cores_eq (h : AgendaOnly s t) : t.cores = s.cores := (congrArg State.cores h :)

theorem AgendaOnly.cur_eq (h : AgendaOnly s t) : t.cur = s.cur := (congrArg State.cur h :)

theorem AgendaOnly.mem_eq (h : AgendaOnly s t) : t.mem = s.mem := (congrArg State.mem h :)

theorem AgendaOnly.core_eq (h : AgendaOnly s t) (c : Nat) : t.core c = s.core c := by
  rw [State.core, h.cores_eq, State.core]

theorem AgendaOnly.me_eq (h : AgendaOnly s t) : t.me = s.me := by
  rw [State.me, h.cur_eq, h.core_eq, State.me]

end

theorem State.agendaOnly_kick (s : State) (c : Nat) : AgendaOnly s (s.kick c) := by
  simp only [State.kick]
  have hheld := AgendaOnly.foldl (s.core c).held (.refl s) fun u p (h : AgendaOnly s u) =>
    AgendaOnly.ite (p := p.2.free (s.core c) = true) (h.post (heldEvent c p)) h
  have hsend : ∀ {t}, AgendaOnly s t → AgendaOnly s (match (s.core c).sendQ with
      | [] => t
      | e :: _ => if e.free (s.core c) then t.post (if e.host then .hostReplyWrite c else .sendInject c) else t) := by
    intro t h
    split
    · exact h
    · exact .ite (h.post _) h
  split
  · exact .ite (hsend hheld) ((hsend hheld).post _)
  · exact .ite ((hsend hheld).postIn _ _) (hsend hheld)
  · exact .ite ((hsend hheld).post _) (hsend hheld)
  · exact hsend hheld

/-- The core whose word runs is changed and lets go what it may. -/
theorem State.modMe_kick (s : State) (f : Core → Core) :
    let t := (s.modMe f).kick s.cur
    t.me = f s.me ∧ (∀ j, j ≠ s.cur → t.core j = s.core j) ∧ t.mem = s.mem := by
  intro t
  have h : AgendaOnly (s.modMe f) t := State.agendaOnly_kick _ _
  exact ⟨h.me_eq.trans (s.me_modMe f), fun j hj => (h.core_eq j).trans (s.core_setCore_ne _ hj), h.mem_eq⟩

/-! ### tend at issue (R107) -/

theorem eaBad_one_of_high {ea : Word} (h : 2 ^ 48 ≤ ea.toNat) :
    eaBad ea 1 = some { code := 4, pc := 0, tval := ea, why := 6 } := by
  have hhigh : ea.fld 63 48 ≠ 0 := by
    have := ea.isLt
    unfold Word.fld
    omega
  simp [eaBad, hhigh]

theorem eaBad_one_of_low {ea : Word} (h : ea.toNat < 2 ^ 48) : eaBad ea 1 = none := by
  have hlow : ea.fld 63 48 = 0 := by
    unfold Word.fld
    omega
  simp [eaBad, hlow, Nat.mod_one]

section
variable {s u : State} {ea : Word} {n : Nat} {kind : Access} {go : Nat → Word → State → State}

theorem State.access_of_bad {t : Trap} (h : eaBad ea n = some t) : s.access ea n kind go = s.trapWith t := by
  rw [State.access, h]

theorem State.access_of_fault {x y l : Nat} (h : eaBad ea n = none) (ht : s.translate s.cur ea kind = (.bad x y l, u)) :
    s.access ea n kind go = u.trapWith (xlateTrap x y l ea) := by
  simp only [State.access, h, ht]

theorem State.access_of_ok {pa l : Nat} {w0 w1 : Word} (h : eaBad ea n = none)
    (ht : s.translate s.cur ea kind = (.ok pa w0 w1 l, u)) : s.access ea n kind go = go pa w0 u := by
  simp only [State.access, h, ht]

end

/-- The task's waits begin; `sig` is the signal it makes when they are over. -/
def State.beginEnd (s : State) (sig : Option (Nat × Word)) : State :=
  (s.modMe fun q => { q with run := .ending sig false }).kick s.cur

/-- What `tend` does where its counter lies at a physical address. -/
def State.signalAt (u : State) (k : Core) (ea : Word) (n : BitVec 14) (pa : Nat) : State :=
  if bankRegion pa false = false then u.trapWith (xlateTrap 5 8 0 ea)
  else if u.unpreservedBy k pa ≠ [] then u.stallOn [pa]
  else u.beginEnd (some (pa, BitVec.ofNat 64 n.toNat))

section
variable {w : Bool} {a : BitVec 5} {n : BitVec 14} {s : State} (h : IssuesDrained (.tend w a n) s)
include h

theorem exec_tend_inHandler (ht : s.me.intrap = true) :
    exec (.tend w a n) s = .next (s.endTrapped s.cur (s.me.cause.toNat % 256)) := by
  have hcause : s.me.cause.fld 7 0 = s.me.cause.toNat % 256 := congrArg (· % 256) (Nat.div_one _)
  rw [← hcause]
  exact (wordWaits_of_drained h _).trans (congrArg _ (if_pos ht))

theorem exec_tend_silent (ht : s.me.intrap = false) (ha : a = 0 ∨ (s.me.get a).toNat % 65536 = 65535) :
    exec (.tend w a n) s = .next (s.beginEnd none) := by
  have hsilent : (a = 0 || BitVec.ofNat 16 (s.me.get a).toNat = 0xFFFF) = true := by
    simpa [← BitVec.toNat_inj] using ha
  exact (wordWaits_of_drained h _).trans (congrArg _ ((if_neg (Bool.eq_false_iff.mp ht)).trans (if_pos hsilent)))

theorem exec_tend_signal (ht : s.me.intrap = false) (ha : a ≠ 0) (hne : (s.me.get a).toNat % 65536 ≠ 65535) :
    exec (.tend w a n) s = .next (s.access (s.me.ctrbase + BitVec.ofNat 64 (8 * ((s.me.get a).toNat % 65536))) 1 .both
      fun pa _ u => u.signalAt s.me (s.me.ctrbase + BitVec.ofNat 64 (8 * ((s.me.get a).toNat % 65536))) n pa) := by
  have hloud : ¬(a = 0 || BitVec.ofNat 16 (s.me.get a).toNat = 0xFFFF) = true := by
    simpa [← BitVec.toNat_inj (n := 16)] using ⟨ha, hne⟩
  have hhandle : (BitVec.ofNat 16 (s.me.get a).toNat).toNat = (s.me.get a).toNat % 65536 := BitVec.toNat_ofNat ..
  refine (wordWaits_of_drained h _).trans (congrArg _ ((if_neg (Bool.eq_false_iff.mp ht)).trans ((if_neg hloud).trans ?_)))
  simp only [hhandle]
  congr 1
  funext pa w0 u
  have hbank : (!bankRegion pa false) = true ↔ bankRegion pa false = false := by rw [Bool.not_eq_true']
  have hpages : (!(u.unpreservedBy s.me pa).isEmpty) = true ↔ u.unpreservedBy s.me pa ≠ [] := by
    rw [Bool.not_eq_true', List.isEmpty_eq_false_iff]
  exact ite_congr (propext hbank) (fun _ => rfl) fun _ => ite_congr (propext hpages) (fun _ => rfl) fun _ => rfl

end

theorem State.me_beginEnd (s : State) (sig : Option (Nat × Word)) :
    let t := s.beginEnd sig
    t.me = { s.me with run := .ending sig false } ∧ (∀ j, j ≠ s.cur → t.core j = s.core j) ∧ t.mem = s.mem :=
  s.modMe_kick _

/-! ### tend when its waits are over (R107, R224, R239) -/

section
variable {s : State} {c : Nat} {sig : Option (Nat × Word)} {b : Bool} (hrun : (s.core c).run = .ending sig b)
include hrun

theorem exec_tendComplete_waits (hq : (s.core c).quiet = false) : exec (.tendComplete c) s = .next s := by
  show execTendComplete c s = _
  simp only [execTendComplete, hrun, hq, Bool.not_false, if_true]

theorem exec_tendComplete_quiet (hq : (s.core c).quiet = true) : exec (.tendComplete c) s = .next (
    if s.signalWaits sig then s.postIn 64 (.tendComplete c)
    else if (s.core c).gang = 0 then
      (((s.releaseKeys (s.core c)).signalEnd c (s.core c).ctx sig).freeCore c).timelineEnds (s.core c).tl
    else ((s.signalEnd c (s.core c).ctx sig).modCore c fun k => { k with run := .exiting }).post (.barrierExit c)) := by
  show execTendComplete c s = _
  simp only [execTendComplete, hrun, hq, Bool.not_true, Bool.false_eq_true, if_false]

end

/-! ### yield (R109, R110) -/

theorem Core.inSlot_of_none {k : Core} (h : k.inline = none) (pc : Word) : k.inSlot pc = none := by
  rw [Core.inSlot, h]

/-- `st` is the stamp of the continuation: the next step, or `n` ticks on. -/
def YieldStamp (now : Word) (n : BitVec 14) (st : Word) : Prop :=
  n = 0 ∧ now.toNat % 65536 < 65535 ∧ st = now + 1 ∨
    0 < n.toNat ∧ now.toNat / 65536 + n.toNat < END ∧ st = BitVec.ofNat 64 ((now.toNat / 65536 + n.toNat) * 65536)

/-- The stamp of a yield that passes its tests is the one that the word computes. -/
theorem YieldStamp.spec {now st : Word} {n : BitVec 14} (h : YieldStamp now n st) :
    (n = 0 && stepOf now = 65535) = false ∧ (n != 0 && END ≤ tick now + n.toNat) = false ∧
    (if n = 0 then now + 1 else Word.of ((tick now + n.toNat) * 65536)) = st := by
  rcases h with ⟨rfl, hstep, rfl⟩ | ⟨hpos, hend, rfl⟩
  · have hne : stepOf now ≠ 65535 := Nat.ne_of_lt hstep
    simp [hne]
  · have hn : n ≠ 0 := by
      rintro rfl
      exact absurd hpos (by decide)
    have hbefore : ¬END ≤ tick now + n.toNat := Nat.not_le.mpr hend
    exact ⟨by rw [decide_eq_false hn, Bool.false_and], by rw [decide_eq_false hbefore, Bool.and_false], if_neg hn⟩

theorem exec_yield {w : Bool} {n : BitVec 14} {s : State} {st : Word} (h : IssuesDrained (.yield w n) s)
    (hgang : s.me.gang = 0) (hinline : s.me.inline = none) (hst : YieldStamp s.me.now n st)
    (hterm : s.me.term.toNat ≤ st.toNat ∨ s.me.term = atTick END) :
    exec (.yield w n) s = .next ((s.modMe fun q => { q with
      run := .yielding (continuation s.me (if s.me.intrap then s.me.epc else s.me.pc + 4) st) (s.me.tl != 0xFFFF) }).kick
        s.cur) := by
  obtain ⟨hstep, hend, hstamp⟩ := hst.spec
  have hbelow : (decide (st.toNat < s.me.term.toNat) && s.me.term != atTick END) = false := by
    rcases hterm with hle | heq
    · simp [Nat.not_lt.mpr hle]
    · simp [heq]
  refine (wordWaits_of_drained h _).trans (congrArg _ ?_)
  simp only [hgang, Core.inSlot_of_none hinline, hstep, hend, hstamp, hbelow, bne_self_eq_false, Option.isSome_none,
    Bool.or_self, Bool.false_eq_true, if_false]

/-! ### yield when its waits are over (R109, R153, R156) -/

theorem State.cores_offerIn (s : State) (d : Nat) (fs : List Flit) : (s.offerIn d fs).cores = s.cores := by
  cases fs <;> rfl

theorem State.cores_postOnce (s : State) (d : Nat) (e : Event) : (s.postOnce d e).cores = s.cores := by
  unfold State.postOnce
  split <;> rfl

theorem State.cores_inject (s : State) (u : Nat) (fs : List Flit) : (s.inject u fs).cores = s.cores := by
  unfold State.inject
  split
  · exact s.cores_offerIn 0 fs
  · rw [State.cores_postOnce]
    split <;> rfl

theorem State.cores_releaseKeys (s : State) (k : Core) : (s.releaseKeys k).cores = s.cores := by
  unfold State.releaseKeys
  induction k.heldKeys generalizing s with
  | nil => rfl
  | cons key l ih => exact (ih _).trans (s.cores_inject _ _)

/-- The state in which core `c` writes its continuation: its keys are released. -/
def State.yieldReleased (s : State) (c : Nat) (r : Rec) (timed : Bool) : State :=
  let q := s.core c
  if q.run = .leaving r timed ∨ q.keys = 0 then s
  else ((s.releaseKeys q).modCore c fun k => { k with keys := 0 }).post (.taskEntry q.entryCluster)

/-- Of the core, the release of its keys changes the keys alone. -/
theorem State.core_yieldReleased (s : State) (c : Nat) (r : Rec) (timed : Bool) :
    ∃ keys, (s.yieldReleased c r timed).core c = { s.core c with keys := keys } := by
  unfold State.yieldReleased
  simp only
  split
  · exact ⟨(s.core c).keys, rfl⟩
  · have hcore : (s.releaseKeys (s.core c)).core c = s.core c := congrArg (fun m : Map Core => m.get c {}) (s.cores_releaseKeys _)
    refine ⟨0, (State.core_setCore_same _ c _).trans ?_⟩
    rw [hcore]

theorem exec_yieldComplete {s : State} {c : Nat} {r : Rec} {timed : Bool}
    (h : (s.core c).run = .yielding r timed ∧ (s.core c).drained = true ∨ (s.core c).run = .leaving r timed) :
    exec (.yieldComplete c) s = .next ((s.yieldReleased c r timed).yieldWrite c r timed) := by
  show execYieldComplete c s = _
  rcases h with ⟨hrun, hdrained⟩ | hrun
  · simp only [execYieldComplete, State.yieldReleased, hrun, hdrained, Bool.not_true, Bool.false_eq_true, if_false,
      reduceCtorEq, false_or]
  · simp only [execYieldComplete, State.yieldReleased, hrun, true_or, if_true]

section
variable {v : State} {c : Nat} {r : Rec} {timed : Bool}

theorem State.yieldWrite_noPlace
    (h : (v.cluster (c / 4)).freeSlots (recClass r[0]) = 0 ∨ v.waitsInOverflow (c / 4) (recClass r[0]) = true)
    (hfull : 8 ≤ (v.cluster (c / 4)).diverts) :
    v.yieldWrite c r timed = (v.modCore c fun k => { k with run := .leaving r timed }).postIn 1 (.yieldComplete c) := by
  have hdivert : ((v.cluster (c / 4)).freeSlots (recClass r[0]) = 0 || v.waitsInOverflow (c / 4) (recClass r[0])) = true := by
    simpa using h
  simp only [State.yieldWrite, hdivert, hfull, decide_true, Bool.and_self, if_true]

/-- The continuation that core `c` writes, under the number `j`. -/
def yieldItem (k : Core) (c j : Nat) (r : Rec) (timed : Bool) : Item where
  cls := recClass r[0]
  src := c
  mask := 15
  r := r
  st := .pending
  order := j
  ctx := k.ctx
  tl := if timed then some (k.tl.toNat / 1024 % 16, BitVec.ofNat 2 (k.tl.toNat / 16384)) else none
  inSlot := if timed then 112 + k.tl.toNat / 1024 % 16 else 0
  rank := if timed then 9 else 15
  inTask := k.intrap

theorem State.yieldWrite_slot (hfree : 0 < (v.cluster (c / 4)).freeSlots (recClass r[0]))
    (hwait : v.waitsInOverflow (c / 4) (recClass r[0]) = false) :
    v.yieldWrite c r timed =
      let u := ({ v with nextId := v.nextId + 1 } : State).setItem (c / 4) v.nextId (yieldItem (v.core c) c v.nextId r timed)
      ((if timed then u else u.post (.taskEntry (c / 4))).freeCore c).timelineEnds (v.core c).tl := by
  have hdivert : ((v.cluster (c / 4)).freeSlots (recClass r[0]) = 0 || v.waitsInOverflow (c / 4) (recClass r[0])) = false := by
    simp [hwait, Nat.ne_of_gt hfree]
  simp only [State.yieldWrite, hdivert, Bool.false_and, Bool.false_eq_true, if_false]
  rfl

end

/-! ### The watchdog (R372) -/

theorem exec_watchdog_takenEffect {s : State} {c : Nat} {r : Rec} {timed : Bool}
    (h : (s.core c).run = .exiting ∨ (s.core c).run = .leaving r timed) : exec (.watchdog c) s = .next s := by
  show execWatchdog c s = _
  rcases h with h | h <;> simp only [execWatchdog, h, ite_self]

/-- A task runs, or waits at a word of which nothing has taken effect. -/
def Run.barks (r : Run) : Prop :=
  r = .running ∨ (∃ x, r = .parked x) ∨ (∃ x, r = .flushing x) ∨ (∃ x, r = .ending x false) ∨ (∃ x y, r = .yielding x y)

theorem exec_watchdog_barks {s : State} {c : Nat} (hon : (s.core c).wdogOn = true) (hbudget : s.budgetOf (s.core c) = 0)
    (h : (s.core c).run.barks) :
    exec (.watchdog c) s = .next ((s.modCore c fun k => { k with run := .running }).takeTrap c
      { code := 0x0E, pc := (s.core c).pc, tval := BitVec.ofNat 64 (s.ctx (s.core c).ctx).wdog }) := by
  show execWatchdog c s = _
  have hused : (!(s.core c).wdogOn || s.budgetOf (s.core c) != 0) = false := by simp [hon, hbudget]
  rcases h with h | ⟨_, h⟩ | ⟨_, h⟩ | ⟨_, h⟩ | ⟨_, _, h⟩ <;>
    simp only [execWatchdog, hused, h, Bool.false_eq_true, if_false] <;> rfl

/-- Settles O33: one lemma above for each word and step, in the statement's order. Four points are the model's choices: a
slice that switches its window is looked at again 64 cycles later (log 35), the running term END (log 27), a handler's `epc`
(log 129), and the watchdog in the waits of tend and yield (log 43). -/
theorem taskEnds : Obligations.TaskEnds := by
  intro w a n s u c pa x y l w0 w1 sig b timed r k q
  refine ⟨fun h => ⟨exec_tend_inHandler h, fun ht ha => ⟨_, exec_tend_silent h ht ha, s.me_beginEnd none⟩,
      fun ht ha hne => ?signal⟩,
    fun hrun hq hw => ?waitsWindow, fun hrun hq hw hg => ?ends, fun hrun hq hw hg => ?member,
    fun hrun hq => exec_tendComplete_waits hrun hq,
    fun h hgang hinline st hst hterm => ⟨_, exec_yield h hgang hinline hst hterm, s.modMe_kick _⟩, ?yieldComplete,
    exec_watchdog_takenEffect, exec_watchdog_barks⟩
  case signal =>
    intro ea
    have he := exec_tend_signal h ht ha hne
    refine ⟨fun hhigh => ?_, fun hlow htr => ?_, fun hlow htr => ?_⟩
    · rw [he, State.access_of_bad (eaBad_one_of_high hhigh)]
    · rw [he, State.access_of_fault (eaBad_one_of_low hlow) htr]
      rfl
    · rw [he, State.access_of_ok (eaBad_one_of_low hlow) htr, State.signalAt]
      refine ⟨fun hb => ?_, fun hb hp => ?_, fun hb hp => ?_⟩
      · rw [if_pos hb]
        rfl
      · rw [if_neg (ne_false_of_eq_true hb), if_pos hp]
      · rw [if_neg (ne_false_of_eq_true hb), if_neg (not_not_intro hp)]
        exact ⟨_, rfl, u.me_beginEnd _⟩
  case waitsWindow => rw [exec_tendComplete_quiet hrun hq, if_pos hw]
  case ends => rw [exec_tendComplete_quiet hrun hq, if_neg (Bool.eq_false_iff.mp hw), if_pos hg]
  case member => rw [exec_tendComplete_quiet hrun hq, if_neg (Bool.eq_false_iff.mp hw), if_neg hg]
  case yieldComplete =>
    intro v hrun
    have he : exec (.yieldComplete c) s = .next (v.yieldWrite c r timed) := exec_yieldComplete hrun
    obtain ⟨keys, hcore⟩ : ∃ keys, v.core c = { q with keys := keys } := s.core_yieldReleased c r timed
    refine ⟨fun hplace hfull => ?_, fun hfree hwait => ?_⟩
    · rw [he, State.yieldWrite_noPlace hplace hfull]
    · rw [he, State.yieldWrite_slot hfree hwait, hcore]
      rfl

end Sys2Proof.Machine
end

section
/-! ## The words that send messages, nstat, and the injection of a message (R152, R165, R178, R197 to R199, R420) -/

namespace Sys2Proof.Machine

open Sys2Proof

/-! ### A head without fault -/

/-- The record of a head has no fault, and a SYS record is not sent in task mode (R47, R197, R426). -/
def HeadFine (k : Core) (head : Word) : Prop :=
  recTrap head (k.getN 15) (k.getN 14) (k.getN 13) = none ∧ (recClass head = 3 → k.mode ≠ .task)

theorem State.withHead_of_fine {s : State} {head : Word} {bad : Word → Bool} (hfine : HeadFine s.me head)
    (hbad : bad head = false) (i : Instr) (go : State → State) : s.withHead i head bad go = go s := by
  obtain ⟨hrec, hsys⟩ := hfine
  have hmode : (decide (recClass head = 3) && decide (s.me.mode = .task)) = false := by simpa using hsys
  simp only [State.withHead, hrec, hmode, hbad, Bool.false_eq_true, if_false]

/-! ### A message at the tail of the send queue -/

/-- The message `e` has entered the send queue under the next MTAG, and `n` is added to the count of the open port. -/
def Queued (s t : State) (e : SendEntry) (n : BitVec 6) : Prop :=
  t.mem = s.mem ∧ (∀ j, j ≠ s.cur → t.core j = s.core j) ∧
  t.me = { s.me with
    sendQ := s.me.sendQ ++ [{ e with mtag := s.me.mtag, fence := s.me.relAll }]
    openCount := s.me.openCount + n
    pc := s.me.pc + 4
    mtag := if e.host then s.me.mtag else s.me.mtag + 1 }

/-- The word `i` puts the message `e` into the send queue, or traps SQFULL with `tval` `v`. -/
def Sends (s : State) (i : Instr) (v : Word) (e : SendEntry) (n : BitVec 6) : Prop :=
  Issues i s →
    (8 ≤ s.me.sendQ.length → exec i s = .next (s.trap 9 v)) ∧
    (s.me.sendQ.length < 8 → ∃ t, exec i s = .next t ∧ Queued s t e n)

/-- A core with the message `e` at the tail of its send queue, under the next MTAG. -/
def Core.withMessage (k : Core) (e : SendEntry) : Core := { k with
  sendQ := k.sendQ ++ [{ e with mtag := k.mtag, fence := k.relAll }]
  mtag := if e.host then k.mtag else k.mtag + 1 }

section
variable {s : State} {sa : Word} {e : SendEntry} {after : Core → Core} {n : BitVec 6}

theorem State.enqueue_full (hfull : 8 ≤ s.me.sendQ.length) : s.enqueue sa e after = s.trap 9 sa := if_pos hfull

theorem State.enqueue_room (hroom : s.me.sendQ.length < 8) :
    s.enqueue sa e after = ((s.modMe fun k => after (k.withMessage e)).kick s.cur).advance := if_neg (Nat.not_le.mpr hroom)

theorem State.enqueue_queued (hroom : s.me.sendQ.length < 8) (hafter : ∀ k, after k = { k with openCount := k.openCount + n }) :
    Queued s (s.enqueue sa e after) e n := by
  rw [State.enqueue_room hroom]
  obtain ⟨hme, hother, hmem⟩ := s.modMe_kick fun k => after (k.withMessage e)
  have hcur : ((s.modMe fun k => after (k.withMessage e)).kick s.cur).cur = s.cur := (State.agendaOnly_kick _ _).cur_eq
  refine ⟨hmem, fun j hj => (State.core_setCore_ne _ _ fun h => hj (h.trans hcur)).trans (hother j hj), ?_⟩
  rw [State.advance, State.me_modMe, hme, hafter]
  rfl

theorem Sends.of_enqueue {i : Instr} (he : Issues i s → exec i s = .next (s.enqueue sa e after))
    (hafter : ∀ k, after k = { k with openCount := k.openCount + n }) : Sends s i sa e n := fun hi =>
  ⟨fun hfull => (he hi).trans (congrArg _ (State.enqueue_full hfull)),
    fun hroom => ⟨_, he hi, State.enqueue_queued hroom hafter⟩⟩

end

/-! ### send, post, reply and reply.to (R197 to R199, R420) -/

/-- The record that `send` makes of a head and a stamp: an event carries s10 alone (R197). -/
def Core.sentRec (k : Core) (head st : Word) : Rec :=
  if recKind head = 2 then mkRec head st [k.getN 10] else mkRec head st k.payload

/-- The flit kind of the message that `send` makes of a head (R144). -/
def sentKind (head : Word) : Nat := if recKind head = 2 then 5 else if recClass head = 3 then 4 else 2

/-- The message that `send` makes for the open port that `sa` names. -/
def Core.portMessage (k : Core) (head sa st : Word) (m : BitVec 5) : SendEntry where
  r := k.sentRec head st
  fk := sentKind head
  cl := sa.toNat % 1024
  cslot := BitVec.ofNat 7 (112 + sa.toNat / 2 ^ 10 % 16)
  cseq := sa.toNat / 2 ^ 14 % 4 * 64 + k.openCount.toNat
  bound := k.seq
  mask := m

/-- The message that `send` makes for the channel of out-slot `n`, which is `o`. -/
def Core.channelMessage (k : Core) (head st : Word) (n : Nat) (o : OutSlot) (m : BitVec 5) : SendEntry where
  r := k.sentRec head st
  fk := sentKind head
  cl := o.dcl
  cslot := BitVec.ofNat 7 o.din
  cseq := o.nxt
  out := some n
  bound := k.seq
  mask := m

section
variable {w : Bool} {d a b m : BitVec 5} {s : State}

/-- send to an open port (R197). -/
theorem sends_openPort (hfine : HeadFine s.me (s.me.get d)) (hbad : sendBad (s.me.get d) = false)
    (hopen : (s.me.get a).toNat / 2 ^ 16 = 1) (hrect : (s.ctx s.me.ctx).hasCluster ((s.me.get a).toNat % 1024) = true)
    (hstamp : stampTest (s.ctx s.me.ctx).lopen.toNat s.me.now s.me.term (s.me.get b) = none) :
    Sends s (.send w d a b m) (s.me.get a) (s.me.portMessage (s.me.get d) (s.me.get a) (s.me.get b) m) 1 := by
  have hzero : (s.me.get a).fld 63 17 = 0 := by unfold Word.fld; omega
  have hone : (s.me.get a).fld 16 16 = 1 := by unfold Word.fld; omega
  have hcl : (s.me.get a).fld 9 0 = (s.me.get a).toNat % 1024 := by unfold Word.fld; omega
  refine Sends.of_enqueue (after := fun q => { q with openCount := q.openCount + 1 }) (fun hi => ?_) fun k => rfl
  refine (word_of_issues hi _).trans (congrArg _ ((State.withHead_of_fine hfine hbad _ _).trans ?_))
  simp only [hzero, hone, hcl, State.inRect, hrect, hstamp, bne_self_eq_false, decide_true, Bool.not_true, Bool.false_and,
    Bool.or_self, Bool.false_eq_true, if_false, if_true]
  rfl

theorem exec_send_channel (hi : Issues (.send w d a b m) s) (hfine : HeadFine s.me (s.me.get d))
    (hbad : sendBad (s.me.get d) = false) (hslot : (s.me.get a).toNat < 128) {o : OutSlot}
    (ho : (s.cluster s.myCluster).outs.get ((s.me.get a).toNat % 128) {} = o) (hst : o.st = 2) (htl : s.me.tl ≠ 0xFFFF)
    (hcl : s.me.tl.toNat % 1024 = s.myCluster) (hown : o.own = s.me.tl.toNat / 1024 % 16)
    (hstamp : stampTest o.l s.me.now s.me.term (s.me.get b) = none) :
    exec (.send w d a b m) s = .next (
      if 8 ≤ s.me.sendQ.length then s.trap 9 (s.me.get a)
      else (s.modCluster s.myCluster fun k => { k with
          outs := k.outs.set ((s.me.get a).toNat % 128) { o with nxt := (o.nxt + 1) % 2 ^ 32 } }).enqueue (s.me.get a)
        (s.me.channelMessage (s.me.get d) (s.me.get b) ((s.me.get a).toNat % 128) o m) id) := by
  have hzero : (s.me.get a).fld 63 17 = 0 := by unfold Word.fld; omega
  have hclosed : (s.me.get a).fld 16 16 ≠ 1 := by unfold Word.fld; omega
  have hhigh : (s.me.get a).fld 15 7 = 0 := by unfold Word.fld; omega
  have hn : (s.me.get a).fld 6 0 = (s.me.get a).toNat % 128 := by unfold Word.fld; omega
  refine (word_of_issues hi _).trans (congrArg _ ((State.withHead_of_fine hfine hbad _ _).trans ?_))
  simp only [hzero, hclosed, hhigh, hn, ho, hst, htl, hcl, hown, hstamp, bne_self_eq_false, decide_false, Bool.not_false,
    Bool.and_false, Bool.or_self, Bool.false_eq_true, if_false]
  rfl

/-- send on a ranked channel of the task's timeline (R178, R197). -/
theorem sends_channel (hfine : HeadFine s.me (s.me.get d)) (hbad : sendBad (s.me.get d) = false)
    (hslot : (s.me.get a).toNat < 128) {o : OutSlot}
    (ho : (s.cluster s.myCluster).outs.get ((s.me.get a).toNat % 128) {} = o) (hst : o.st = 2) (htl : s.me.tl ≠ 0xFFFF)
    (hcl : s.me.tl.toNat % 1024 = s.myCluster) (hown : o.own = s.me.tl.toNat / 1024 % 16)
    (hstamp : stampTest o.l s.me.now s.me.term (s.me.get b) = none) :
    Sends s (.send w d a b m) (s.me.get a)
      (s.me.channelMessage (s.me.get d) (s.me.get b) ((s.me.get a).toNat % 128) o m) 0 := by
  intro hi
  have he := exec_send_channel hi hfine hbad hslot ho hst htl hcl hown hstamp
  refine ⟨fun hfull => he.trans (congrArg _ (if_pos hfull)), fun hroom => ?_⟩
  exact ⟨_, he.trans (congrArg _ (if_neg (Nat.not_le.mpr hroom))),
    State.enqueue_queued (s := s.modCluster _ _) hroom fun k => by simp⟩

/-- post to a cluster (R198). -/
theorem sends_postCluster (hfine : HeadFine s.me (s.me.get d)) (hbad : postBad true (s.me.get d) = false)
    (hclu : (s.me.get a).toNat / 1024 = 4) (hrect : (s.ctx s.me.ctx).hasCluster ((s.me.get a).toNat % 1024) = true) :
    Sends s (.post w d a m) (s.me.get a)
      { r := mkRec (s.me.get d) s.me.now s.me.payload, fk := if recClass (s.me.get d) = 3 then 4 else 2
        cl := (s.me.get a).toNat % 1024, untimed := true, bound := s.me.seq, mask := m } 0 := by
  have hzero : (s.me.get a).fld 63 13 = 0 := by unfold Word.fld; omega
  have hone : (s.me.get a).fld 12 12 = 1 := by unfold Word.fld; omega
  have hhigh : (s.me.get a).fld 11 10 = 0 := by unfold Word.fld; omega
  have hcl : (s.me.get a).fld 9 0 = (s.me.get a).toNat % 1024 := by unfold Word.fld; omega
  refine Sends.of_enqueue (after := id) (fun hi => ?_) fun k => by simp
  refine (word_of_issues hi _).trans (congrArg _ ?_)
  simp only [hzero, hone, hhigh, hcl, decide_true]
  refine (State.withHead_of_fine hfine hbad _ _).trans ?_
  simp only [State.inRect, hrect, bne_self_eq_false, Bool.and_false, Bool.not_true, Bool.or_self, Bool.false_eq_true,
    if_false, if_true]

/-- post to a core (R198). -/
theorem sends_postCore (hfine : HeadFine s.me (s.me.get d)) (hbad : postBad false (s.me.get d) = false)
    (hcore : (s.me.get a).toNat < 4096) (hrect : (s.ctx s.me.ctx).hasCluster ((s.me.get a).toNat / 4) = true) :
    Sends s (.post w d a m) (s.me.get a)
      { r := mkRec (s.me.get d) s.me.now s.me.payload, fk := if recClass (s.me.get d) = 3 then 4 else 2
        cl := (s.me.get a).toNat / 4, untimed := true, core := some (s.me.get a).toNat, bound := s.me.seq, mask := m } 0 := by
  have hzero : (s.me.get a).fld 63 13 = 0 := by unfold Word.fld; omega
  have hone : ¬(s.me.get a).fld 12 12 = 1 := by unfold Word.fld; omega
  have hc : (s.me.get a).fld 11 0 = (s.me.get a).toNat := by unfold Word.fld; omega
  refine Sends.of_enqueue (after := id) (fun hi => ?_) fun k => by simp
  refine (word_of_issues hi _).trans (congrArg _ ?_)
  simp only [hzero, hone, hc, decide_false]
  refine (State.withHead_of_fine hfine hbad _ _).trans ?_
  simp only [State.inRect, hrect, bne_self_eq_false, Bool.false_and, Bool.not_true, Bool.or_self, Bool.false_eq_true, if_false]

/-- A reply to a core of the rectangle (R199). -/
theorem State.replyCore_core {head sa named : Word} {c : Nat} (hrect : (s.ctx s.me.ctx).hasCluster (c / 4) = true) :
    s.replyCore head sa named c false m = s.enqueue sa
      { r := replyRec s.me head, fk := 3, cl := c / 4, untimed := true, core := some c, bound := s.me.seq, mask := m } id := by
  simp only [State.replyCore, State.inRect, hrect, Bool.not_true, Bool.false_eq_true, if_false]

/-- reply to the core in `src` (R199). -/
theorem sends_replyCore (hfine : HeadFine s.me (s.me.get d)) (hbad : replyBad (s.me.get d) = false) (hsrc : s.me.src ≠ 0xFFF)
    (hrect : (s.ctx s.me.ctx).hasCluster (s.me.src.toNat / 4) = true) :
    Sends s (.reply w d m) 0
      { r := replyRec s.me (s.me.get d), fk := 3, cl := s.me.src.toNat / 4, untimed := true, core := some s.me.src.toNat
        bound := s.me.seq, mask := m } 0 := by
  have hcore : s.me.src.toNat ≠ 0xFFF := fun h => hsrc (BitVec.eq_of_toNat_eq h)
  refine Sends.of_enqueue (after := id) (fun hi => ?_) fun k => by simp
  refine (word_of_issues hi _).trans (congrArg _ ((State.withHead_of_fine hfine hbad _ _).trans ?_))
  rw [decide_eq_false hcore, State.replyCore_core hrect]

/-- reply to the host, with H in the mask (R199, R420). -/
theorem sends_replyHost (hfine : HeadFine s.me (s.me.get d)) (hbad : replyBad (s.me.get d) = false) (hsrc : s.me.src = 0xFFF) :
    Sends s (.reply w d m) 0
      { r := replyRec s.me (s.me.get d), fk := 3, cl := 0, untimed := true, bound := s.me.seq, host := true
        mask := m ||| maskH } 0 := by
  have hhost : s.me.src.toNat = 0xFFF := congrArg BitVec.toNat hsrc
  refine Sends.of_enqueue (after := id) (fun hi => ?_) fun k => by simp
  refine (word_of_issues hi _).trans (congrArg _ ((State.withHead_of_fine hfine hbad _ _).trans ?_))
  rw [decide_eq_true hhost, State.replyCore, if_pos rfl]

/-- reply.to (R199). -/
theorem sends_replyTo (hfine : HeadFine s.me (s.me.get d)) (hbad : replyBad (s.me.get d) = false)
    (hcore : (s.me.get a).toNat < 4096) (hrect : (s.ctx s.me.ctx).hasCluster ((s.me.get a).toNat / 4) = true) :
    Sends s (.replyTo w d a m) (s.me.get a)
      { r := replyRec s.me (s.me.get d), fk := 3, cl := (s.me.get a).toNat / 4, untimed := true
        core := some (s.me.get a).toNat, bound := s.me.seq, mask := m } 0 := by
  have hzero : ((s.me.get a).fld 63 12 != 0) = false := by
    have : (s.me.get a).fld 63 12 = 0 := by unfold Word.fld; omega
    rw [this, bne_self_eq_false]
  refine Sends.of_enqueue (after := id) (fun hi => ?_) fun k => by simp
  refine (word_of_issues hi _).trans (congrArg _ ((State.withHead_of_fine hfine hbad _ _).trans ?_))
  rw [if_neg (Bool.eq_false_iff.mp hzero), State.replyCore_core hrect]

end

/-! ### nstat (R165) -/

theorem gives_nstat {w : Bool} {d a : BitVec 5} {sel : BitVec 4} {s : State}
    (h : sel = 3 → (s.me.get a).toNat % 1024 = s.myCluster) :
    Gives (.nstat w d a sel) s d (s.nstatWord sel.toNat ((s.me.get a).toNat % 65536)) := by
  have hid : (s.me.get a).fld 15 0 = (s.me.get a).toNat % 65536 := by unfold Word.fld; omega
  have hmine : ¬(decide (sel = 3) && (s.me.get a).toNat % 65536 % 1024 != s.myCluster) = true := by
    rw [Nat.mod_mod_of_dvd _ (by decide)]
    simpa using h
  refine gives_of_word rfl ?_
  simp only [hid, hmine, Bool.false_eq_true, if_false]

/-! ### A message leaves its send queue (R152, R178, R188, R203) -/

/-- Routers and drawn values apart, nothing differs: what an entry of a night log or a survey count changes. -/
def RoutersOnly (s t : State) : Prop := { t with routers := s.routers, fresh := s.fresh } = s

section
variable {s t : State}

theorem RoutersOnly.refl (s : State) : RoutersOnly s s := rfl

theorem RoutersOnly.cores_eq (h : RoutersOnly s t) : t.cores = s.cores := (congrArg State.cores h :)

theorem RoutersOnly.clusters_eq (h : RoutersOnly s t) : t.clusters = s.clusters := (congrArg State.clusters h :)

theorem RoutersOnly.mem_eq (h : RoutersOnly s t) : t.mem = s.mem := (congrArg State.mem h :)

theorem RoutersOnly.abroad_eq (h : RoutersOnly s t) : t.abroad = s.abroad := (congrArg State.abroad h :)

theorem AgendaOnly.clusters_eq (h : AgendaOnly s t) : t.clusters = s.clusters := (congrArg State.clusters h :)

theorem AgendaOnly.cluster_eq (h : AgendaOnly s t) (cl : Nat) : t.cluster cl = s.cluster cl := by
  rw [State.cluster, h.clusters_eq, State.cluster]

theorem AgendaOnly.postOnce (h : AgendaOnly s t) (d : Nat) (e : Event) : AgendaOnly s (t.postOnce d e) := .ite h (h.postIn d e)

theorem AgendaOnly.trans {u : State} (h : AgendaOnly s t) (h' : AgendaOnly t u) : AgendaOnly s u := by
  have hu : { u with agenda := s.agenda } = { t with agenda := s.agenda } :=
    congrArg (fun v : State => { v with agenda := s.agenda }) h'
  exact hu.trans h

end

theorem State.routersOnly_logAt (s : State) (r kind src tag x : Nat) (val aux : Word) :
    RoutersOnly s (s.logAt r kind src tag x val aux) := by
  unfold State.logAt
  split <;> rfl

theorem State.routersOnly_softLog (s : State) (r src x : Nat) (what : Word) : RoutersOnly s (s.softLog r src x what) := by
  have h : RoutersOnly s.draw.2 (s.softLog r src x what) := s.draw.2.routersOnly_logAt r 1 src 0 x what s.draw.1
  exact (congrArg (fun u : State => { u with fresh := s.fresh }) h :)

@[simp] theorem State.cluster_modCluster_same (s : State) (cl : Nat) (f : Cluster → Cluster) :
    (s.modCluster cl f).cluster cl = f (s.cluster cl) := Map.get_set_same _ _ _ _

theorem State.agendaOnly_inject {u : Nat} (hu : u < 576) (s : State) (fs : List Flit) :
    AgendaOnly (s.modCluster u fun k => { k with inject := k.inject ++ fs }) (s.inject u fs) := by
  rw [State.inject, if_neg (by omega), if_pos hu]
  exact (AgendaOnly.refl _).postOnce _ _

theorem State.agendaOnly_closeAfter (s : State) (cl : Nat) (e : SendEntry) : AgendaOnly s (s.closeAfter cl e) := by
  unfold State.closeAfter
  split
  · exact .refl s
  · exact .ite ((AgendaOnly.refl s).post _) (.refl s)

theorem RoutersOnly.messageFlits_eq {s t : State} (h : RoutersOnly s t) (c : Nat) (e : SendEntry) (mtag : BitVec 8) (x : Nat) :
    t.messageFlits c e mtag x = s.messageFlits c e mtag x := by
  have hdomid : t.domid = s.domid := (congrArg State.domid h :)
  simp only [State.messageFlits, State.abroadOr, State.peerPort, h.abroad_eq, hdomid]

section
variable {s : State} {c : Nat} {e : SendEntry} {rest : List SendEntry}

/-- What stands for the message `e` of core `c` until its receipt comes. -/
def SendEntry.opened (e : SendEntry) (c x : Nat) : OpenSend :=
  { src := c, mtag := e.mtag, core := some c, out := e.out, seq := e.cseq, at_ := none, ctx := x }

/-- The message at the head of a send queue has left it for the injection queue of its cluster; `u` is the state in which a
single-bit error of it has been logged. -/
def State.sent (u : State) (k : Core) (c : Nat) (e : SendEntry) (rest : List SendEntry) : State :=
  ((u.setCore c { k with sendQ := rest, unreceipted := k.unreceipted ++ [e.mtag] }).modCluster (c / 4) fun q =>
    { q with openSends := q.openSends ++ [e.opened c k.ctx] }).countSent (routerOfCluster (c / 4)) k.ctx e.r.stamp

theorem State.cluster_sent (u : State) (k : Core) :
    (u.sent k c e rest).cluster (c / 4) =
      { u.cluster (c / 4) with openSends := (u.cluster (c / 4)).openSends ++ [e.opened c k.ctx] } :=
  Map.get_set_same ..

theorem exec_sendInject (hq : (s.core c).sendQ = e :: rest) (hfree : e.free (s.core c) = true)
    (hmay : s.mayInject c e = true) (hhost : e.host = false) (herr : e.err = false) (hrun : (s.core c).run ≠ .stopped) :
    ∃ u, RoutersOnly s u ∧ exec (.sendInject c) s = .next ((((u.sent (s.core c) c e rest).inject (c / 4)
      (u.messageFlits c e e.mtag (s.core c).ctx)).closeAfter (c / 4) e).kick c) := by
  refine ⟨if e.soft then s.softLog (routerOfCluster (c / 4)) c (s.core c).ctx e.r[0] else s, ?_, ?_⟩
  · split
    · exact s.routersOnly_softLog ..
    · exact .refl s
  · show execSendInject c s = _
    simp only [execSendInject, hq, hfree, hmay, hhost, herr, hrun, Bool.not_false, Bool.not_true, Bool.and_self,
      decide_false, Bool.or_self, Bool.false_eq_true, if_false]
    rfl

theorem sendInject_injects (hc : c < 2304) (hq : (s.core c).sendQ = e :: rest) (hfree : e.free (s.core c) = true)
    (hmay : s.mayInject c e = true) (hhost : e.host = false) (herr : e.err = false) (hrun : (s.core c).run ≠ .stopped) :
    ∃ t, exec (.sendInject c) s = .next t ∧ t.mem = s.mem ∧ (∀ j, j ≠ c → t.core j = s.core j) ∧
      t.core c = { s.core c with sendQ := rest, unreceipted := (s.core c).unreceipted ++ [e.mtag] } ∧
      (t.cluster (c / 4)).inject = (s.cluster (c / 4)).inject ++ s.messageFlits c e e.mtag (s.core c).ctx ∧
      (t.cluster (c / 4)).openSends = (s.cluster (c / 4)).openSends ++ [e.opened c (s.core c).ctx] := by
  obtain ⟨u, hu, he⟩ := exec_sendInject hq hfree hmay hhost herr hrun
  rw [hu.messageFlits_eq] at he
  have ht := ((State.agendaOnly_inject (by omega : c / 4 < 576) (u.sent (s.core c) c e rest)
    (s.messageFlits c e e.mtag (s.core c).ctx)).trans (State.agendaOnly_closeAfter _ (c / 4) e)).trans (State.agendaOnly_kick _ c)
  have hcores : ∀ j, u.core j = s.core j := fun j => by rw [State.core, hu.cores_eq, State.core]
  have hcluster : u.cluster (c / 4) = s.cluster (c / 4) := by rw [State.cluster, hu.clusters_eq, State.cluster]
  refine ⟨_, he, ht.mem_eq.trans hu.mem_eq, fun j hj => ?_, ?_, ?_, ?_⟩
  · exact (ht.core_eq j).trans ((u.core_setCore_ne _ hj).trans (hcores j))
  · exact (ht.core_eq c).trans (u.core_setCore_same c _)
  all_goals
    rw [ht.cluster_eq, State.cluster_modCluster_same, State.cluster_sent, hcluster]

end

/-- Settles O51: one lemma above for each word, and for the step by which a message leaves its send queue. -/
theorem messageWords : Obligations.MessageWords := by
  intro w d a b m sel c e rest s k head sa st cls fine inRect sends rec_ kind o
  exact ⟨fun hf hb ho hr hst => sends_openPort hf hb ho hr hst,
    fun hf hb hn hst htl hcl hown hs => sends_channel hf hb hn rfl hst htl hcl hown hs,
    fun hf hb hn hr => sends_postCluster hf hb hn hr, fun hf hb hn hr => sends_postCore hf hb hn hr,
    fun hf hb hn hr => sends_replyCore hf hb hn hr, fun hf hb hn => sends_replyHost hf hb hn,
    fun hf hb hn hr => sends_replyTo hf hb hn hr, fun hsel => gives_nstat fun h => absurd h hsel,
    fun hmine => gives_nstat fun _ => hmine, sendInject_injects⟩

end Sys2Proof.Machine
end

section
/-! ## The steps of the network: a counterexample at the overflow queue (R153, R260, R363, R429) -/

namespace Sys2Proof.Machine

open Sys2Proof

/-- A complete record in the divert buffer. -/
def divertedRecord : Item := { divert := true, st := .pending, mask := 15 }

/-- Cluster 0 belongs to context 0xFF and holds a record in its divert buffer. The overflow queue has room for one, but begins at address
4, in the middle of a poisoned word, and the context has no handler for notes. -/
def poisonedQueue : State where
  poison := [0]
  clusters := [(0, { ctx := some 0xFF, inbox := [(9, divertedRecord)] })]
  ctxs := [(0xFF, { oqbase := 4, oqcap := 1 })]

/-- The record is written in the name of context 0xFF, as every write of the device is: the write of half of the poisoned word is noted to
that context (R260), which loses the note (R363). -/
theorem overflowWrite_poisonedQueue_losesNote {t : State} (h : exec (.overflowWrite 0) poisonedQueue = .next t) :
    (t.ctx 0xFF).nlost = 1 := by
  obtain rfl : _ = t := Host.Outcome.next.inj (h : execOverflowWrite 0 poisonedQueue = .next t)
  decide +kernel

/-- Refutes O54, in its clause of the overflow queue (R153): nothing of the record's context is to change but the queue, yet where the
context is 0xFF and OQBASE is not aligned, a note that the write itself raises is counted there as lost. The clause excludes neither,
though firmware creates no context from 144 on and R429 aligns OQBASE to 64 bytes. -/
theorem not_networkSteps : ¬ Obligations.NetworkSteps := by
  unfold Obligations.NetworkSteps
  intro h
  obtain ⟨-, -, -, -, -, -, -, -, -, -, hoverflow, -⟩ := h 0 0 0 0 0 0 0 0 9 0xFF 0 0 0 false 0
    { src := 0, dr := 0, dp := 0, fk := 0 } [] divertedRecord
    { src := 0, mtag := 0, core := none, out := none, seq := 0, at_ := none, ctx := 0 } {}
    { pos := 0, cluster := 0, item := divertedRecord, order := 0 } { item := 9, ctx := 0xFF }
    { core := 0, seq := 0, kind := .load, pa := 0 } poisonedQueue
  obtain ⟨-, hroom⟩ := hoverflow rfl rfl
  obtain ⟨t, ht, -, hctx, -⟩ := hroom (by decide) rfl rfl rfl rfl
  have hkept : (t.ctx 0xFF).nlost = 0 := congrArg Ctx.nlost hctx
  exact absurd (hkept.symm.trans (overflowWrite_poisonedQueue_losesNote ht)) (by decide)

end Sys2Proof.Machine
end

section
/-! ## Timelines and channels: their words and the steps at their targets (R169, R171, R195 to R203) -/

namespace Sys2Proof.Machine

open Sys2Proof

/-! ### Fields of an operand -/

theorem Word.fld_low (v : Word) (hi : Nat) : v.fld hi 0 = v.toNat % 2 ^ (hi + 1) := congrArg (· % 2 ^ (hi + 1)) (Nat.div_one v.toNat)

theorem Word.fld_high_eq_zero {v : Word} {lo : Nat} (h : v.toNat < 2 ^ lo) : v.fld 63 lo = 0 := by
  rw [Word.fld, Nat.div_eq_of_lt h, Nat.zero_mod]

/-! ### What a word that is posted leaves alone -/

/-- A word that is done, after its own part has made its core `k` and left every other core. -/
theorem State.frame_advance {s u : State} {k : Core} (hcur : u.cur = s.cur) (hme : u.me = k)
    (hother : ∀ j, j ≠ s.cur → u.core j = s.core j) :
    (∀ j, j ≠ s.cur → u.advance.core j = s.core j) ∧ u.advance.me = { k with pc := k.pc + 4 } :=
  ⟨fun j hj => (u.core_setCore_ne _ (hcur ▸ hj)).trans (hother j hj), by rw [State.advance, State.me_modMe, hme]⟩

/-- A core whose word waits for its result in `s[d]` from another unit. -/
def Core.asking (k : Core) (d : BitVec 5) : Core :=
  { k with seq := k.seq + 1, outs := k.outs.set k.seq { iaddr := k.pc, dest := .reg d 8 false } }

/-- A word that asks, once it is done: `u` differs in other units from the state with the core asking. -/
theorem State.frame_asked {s u : State} {d : BitVec 5} (hcores : u.cores = (s.modMe fun k => k.asking d).cores)
    (hcur : u.cur = s.cur) (hmem : u.mem = s.mem) :
    (u.advance.mem = s.mem ∧ ∀ j, j ≠ s.cur → u.advance.core j = s.core j) ∧
    u.advance.me = { s.me.asking d with pc := s.me.pc + 4 } := by
  have hcore : ∀ j, u.core j = (s.modMe fun k => k.asking d).core j := fun j => by rw [State.core, hcores, State.core]
  have hme : u.me = s.me.asking d := by rw [State.me, hcur, hcore]; exact s.me_modMe _
  obtain ⟨hother, hdone⟩ := State.frame_advance hcur hme fun j hj => (hcore j).trans (s.core_setCore_ne _ hj)
  exact ⟨⟨hmem, hother⟩, hdone⟩

theorem State.agendaOnly_refloor (s : State) (cl t : Nat) : AgendaOnly s (s.refloor cl t) :=
  .foldl _ (.refl s) fun _ _ h => .ite (h.post _) h

/-! ### The words (R195, R196, R200 to R203) -/

section
variable {w : Bool} {d a b : BitVec 5} {s : State}

/-- The question of a `tlnew`. -/
def State.tlnewQuery (s : State) (d a b : BitVec 5) : Query :=
  { core := s.cur, seq := s.me.seq, what := .tlnew (s.me.get a) (s.me.get b), d := d, ctx := s.me.ctx, now := s.me.now }

theorem exec_tlnew (hi : Issues (.tlnew w d a b) s) (ha : (s.me.get a).toNat < 65536)
    (hany : (s.me.get a).toNat / 2 ^ 14 % 2 = 1 → (s.me.get a).toNat / 2 ^ 10 % 16 = 0) (hb : (s.me.get b).toNat < 2 ^ 48)
    (hb4 : (s.me.get b).toNat % 4 = 0) (hrect : (s.ctx s.me.ctx).hasCluster ((s.me.get a).toNat % 1024) = true) :
    exec (.tlnew w d a b) s = .next (((({ s with queries := s.queries ++ [s.tlnewQuery d a b] } : State).modMe
      fun k => k.asking d).post (.tlnewAtCluster s.cur s.me.seq)).advance) := by
  have hazero : (s.me.get a).fld 63 16 = 0 := Word.fld_high_eq_zero ha
  have hslot : (decide ((s.me.get a).fld 14 14 = 1) && (s.me.get a).fld 13 10 != 0) = false := by
    have hany' : (s.me.get a).fld 14 14 = 1 → (s.me.get a).fld 13 10 = 0 := hany
    simpa using hany'
  have hbzero : (s.me.get b).fld 63 48 = 0 := Word.fld_high_eq_zero hb
  have hblow : (s.me.get b).fld 1 0 = 0 := (Word.fld_low _ 1).trans hb4
  have hin : s.inRect ((s.me.get a).fld 9 0) = true := (Word.fld_low (s.me.get a) 9).symm ▸ hrect
  refine (word_of_issues hi _).trans (congrArg _ ?_)
  simp only [hazero, hslot, hbzero, hblow, hin, bne_self_eq_false, Bool.not_true, Bool.or_self, Bool.false_eq_true, if_false]
  rfl

theorem exec_tlfree (hi : Issues (.tlfree w a) s) (ha : (s.me.get a).toNat < 65536)
    (hrect : (s.ctx s.me.ctx).hasCluster ((s.me.get a).toNat % 1024) = true) :
    exec (.tlfree w a) s = .next ((s.post (.tlfreeArrival ((s.me.get a).toNat % 1024) ⟨s.cur, (s.me.get a).setWidth 16⟩)).advance) := by
  have hazero : (s.me.get a).fld 63 16 = 0 := Word.fld_high_eq_zero ha
  have hcl : (s.me.get a).fld 9 0 = (s.me.get a).toNat % 1024 := Word.fld_low _ 9
  refine (word_of_issues hi _).trans (congrArg _ ?_)
  simp only [hazero, hcl, State.inRect, hrect, bne_self_eq_false, Bool.not_true, Bool.false_eq_true, if_false]
  rfl

theorem exec_promise (hi : Issues (.promise w a) s) :
    exec (.promise w a) s = .next (
      if s.me.tl = 0xFFFF then s.trapChan (s.me.get a) 1
      else if (s.me.get a).toNat < s.me.term.toNat ∨ END * 65536 < (s.me.get a).toNat then s.trapChan (s.me.get a) 2
      else ((s.modMe fun k => { k with term := s.me.get a }).refloor (s.me.tl.toNat % 1024) (s.me.tl.toNat / 1024 % 16)).advance) := by
  refine (word_of_issues hi _).trans (congrArg _ ?_)
  simp only [Bool.or_eq_true, decide_eq_true_eq]

theorem State.frame_promised (s : State) (p : Word) (cl t : Nat) :
    let u := ((s.modMe fun k => { k with term := p }).refloor cl t).advance
    (u.mem = s.mem ∧ ∀ j, j ≠ s.cur → u.core j = s.core j) ∧ u.me = { s.me with term := p, pc := s.me.pc + 4 } := by
  have h := State.agendaOnly_refloor (s.modMe fun k => { k with term := p }) cl t
  obtain ⟨hother, hme⟩ := State.frame_advance (s := s) h.cur_eq (h.me_eq.trans (s.me_modMe _)) fun j hj =>
    (h.core_eq j).trans (s.core_setCore_ne _ hj)
  exact ⟨⟨h.mem_eq, hother⟩, hme⟩

/-- The value that an opening channel advertises from its start (R202). -/
def State.firstAdvert (s : State) (b : BitVec 5) : Word :=
  advert (s.floor (s.me.tl.toNat % 1024) (s.me.tl.toNat / 1024 % 16)) ((s.me.get b).toNat % 2 ^ 32)

/-- The question of a `chopen` that has taken out-slot `n`. -/
def State.chopenQuery (s : State) (d a b : BitVec 5) (n : Nat) : Query :=
  { core := s.cur, seq := s.me.seq, what := .chopen n (s.me.get a) (s.me.get b) (s.firstAdvert b), d := d, ctx := s.me.ctx
    now := s.me.term }

/-- The out-slot that a `chopen` takes. -/
def State.openingSlot (s : State) (a b : BitVec 5) : OutSlot :=
  { v := true, st := 1, bulk := (s.me.get a).toNat / 2 ^ 20 = 1, rank := (s.me.get a).toNat / 2 ^ 16 % 16
    own := s.me.tl.toNat / 1024 % 16, dcl := (s.me.get a).toNat % 1024, q := (s.me.get b).toNat / 2 ^ 32
    l := (s.me.get b).toNat % 2 ^ 32, lastp := s.firstAdvert b }

theorem exec_chopen (hi : Issues (.chopen w d a b) s) (htl : s.me.tl ≠ 0xFFFF) (ha : (s.me.get a).toNat < 2 ^ 21)
    (hrank : (s.me.get a).toNat / 2 ^ 16 % 16 ≤ 7) (hb : (s.me.get b).toNat / 2 ^ 32 ≠ 0)
    (hrect : (s.ctx s.me.ctx).hasCluster ((s.me.get a).toNat % 1024) = true) :
    exec (.chopen w d a b) s = .next (match (s.cluster (s.me.tl.toNat % 1024)).freeOut with
      | none => (({ s.modMe fun k => k.asking d with queries := s.queries ++
          [{ s.chopenQuery d a b 0 with answer := some 0x8000000000000001, code := 1 }] } : State).postLate
            (.chopenResult s.cur s.me.seq)).advance
      | some n => (({ (s.modMe fun k => k.asking d).modCluster (s.me.tl.toNat % 1024) fun k =>
            { k.disown n with outs := k.outs.set n (s.openingSlot a b) } with
          queries := s.queries ++ [s.chopenQuery d a b n] } : State).post (.chopenAtTarget s.cur s.me.seq)).advance) := by
  have hazero : (s.me.get a).fld 63 21 = 0 := Word.fld_high_eq_zero ha
  have hr : (s.me.get a).fld 19 16 = (s.me.get a).toNat / 2 ^ 16 % 16 := rfl
  have hcl : (s.me.get a).fld 9 0 = (s.me.get a).toNat % 1024 := Word.fld_low _ 9
  have hbulk : (s.me.get a).fld 20 20 = (s.me.get a).toNat / 2 ^ 20 := Nat.mod_eq_of_lt (by omega)
  have hq : (s.me.get b).fld 63 32 = (s.me.get b).toNat / 2 ^ 32 := Nat.mod_eq_of_lt (by have := (s.me.get b).isLt; omega)
  have hl : (s.me.get b).fld 31 0 = (s.me.get b).toNat % 2 ^ 32 := Word.fld_low _ 31
  refine (word_of_issues hi _).trans (congrArg _ ?_)
  simp only [hazero, hr, hcl, hbulk, hq, hl, htl, hb, Nat.not_lt.mpr hrank, State.inRect, hrect, bne_self_eq_false,
    Bool.not_true, Bool.or_self, Bool.false_eq_true, decide_false, if_false]
  rfl

theorem exec_chclose (hi : Issues (.chclose w a) s) (ha : (s.me.get a).toNat < 128) (htl : s.me.tl ≠ 0xFFFF) {o : OutSlot}
    (ho : (s.cluster (s.me.tl.toNat % 1024)).outs.get (s.me.get a).toNat {} = o) (hv : o.v = true) (hst : o.st = 2)
    (hown : o.own = s.me.tl.toNat / 1024 % 16) :
    exec (.chclose w a) s = .next (((s.modCluster (s.me.tl.toNat % 1024) fun k => { k with
      outs := k.outs.set (s.me.get a).toNat { o with st := 3, askp := false } }).post
        (.promiseSend (s.me.tl.toNat % 1024) (s.me.get a).toNat)).advance) := by
  have hazero : (s.me.get a).fld 63 7 = 0 := Word.fld_high_eq_zero ha
  have hn : (s.me.get a).fld 6 0 = (s.me.get a).toNat := (Word.fld_low _ 6).trans (Nat.mod_eq_of_lt ha)
  refine (word_of_issues hi _).trans (congrArg _ ?_)
  simp only [hazero, hn, htl, ho, hv, hst, hown, bne_self_eq_false, Bool.not_true, Bool.or_self, Bool.false_eq_true,
    decide_false, if_false]

end

/-! ### The steps of tlnew (R171, R195) -/

section
variable {c seq : Nat} {q : Query} {s : State} (hq : s.query c seq = some q)
include hq

/-- No fence stands around core `c` or cluster `cl` (R412). -/
def State.Unfenced (s : State) (c cl : Nat) : Prop := s.fencedCluster (c / 4) = none ∧ s.fencedCluster cl = none

omit hq in
theorem State.Unfenced.fencedIn {c cl : Nat} (h : s.Unfenced c cl) : s.fencedIn c = false :=
  (congrArg Option.isSome h.1).trans rfl

section
variable {x y : Word} (hans : q.answer = none) (hwhat : q.what = .tlnew x y) (hfence : s.Unfenced c (x.toNat % 1024))
include hans hwhat hfence

theorem exec_tlnewAtCluster_full (hany : x.toNat / 2 ^ 14 % 2 = 1) (hfull : (s.cluster (x.toNat % 1024)).freeSlot = none) :
    exec (.tlnewAtCluster c seq) s = .next ((s.answerQuery c seq 0x8000000000000002 0 0).postLate (.tlnewResult c seq)) := by
  have hcl : x.fld 9 0 = x.toNat % 1024 := Word.fld_low x 9
  have hone : x.fld 14 14 = 1 := hany
  show execTlnewAtCluster c seq s = _
  simp only [execTlnewAtCluster, hq, hwhat, hans, hcl, hone, hfence.fencedIn, hfence.2, hfull, if_true,
    Bool.false_eq_true, if_false]
  rfl

theorem exec_tlnewAtCluster_places {t : Nat}
    (hfree : x.toNat / 2 ^ 14 % 2 = 1 ∧ (s.cluster (x.toNat % 1024)).freeSlot = some t ∨
      x.toNat / 2 ^ 14 % 2 = 0 ∧ x.toNat / 2 ^ 10 % 16 = t ∧ ((s.cluster (x.toNat % 1024)).tls.get t {}).st = .free) :
    exec (.tlnewAtCluster c seq) s = .next (((s.placeTimeline (x.toNat % 1024) t y q.now (x.toNat / 2 ^ 15 % 2 = 1)
      (atTick (tick ((s.router (routerOfCluster (x.toNat % 1024))).surv.get q.ctx {}).mer + (s.ctx q.ctx).lopen.toNat))).answerQuery
        c seq (BitVec.ofNat 64 (tlId (x.toNat % 1024) t ((s.cluster (x.toNat % 1024)).tls.get t {}).gen)) 0 0).postLate
          (.tlnewResult c seq)) := by
  have hcl : x.fld 9 0 = x.toNat % 1024 := Word.fld_low x 9
  have hslot : (if x.fld 14 14 = 1 then (s.cluster (x.toNat % 1024)).freeSlot
      else if ((s.cluster (x.toNat % 1024)).tls.get (x.fld 13 10) {}).st = .free then some (x.fld 13 10) else none) = some t := by
    rcases hfree with ⟨hany, hfree⟩ | ⟨hnamed, rfl, hfree⟩
    · have hone : x.fld 14 14 = 1 := hany
      simp only [hone, if_true, hfree]
    · have hzero : x.fld 14 14 = 0 := hnamed
      have hn : x.fld 13 10 = x.toNat / 2 ^ 10 % 16 := rfl
      simp only [hzero, hn, hfree, Nat.zero_ne_one, if_false, if_true]
  show execTlnewAtCluster c seq s = _
  simp only [execTlnewAtCluster, hq, hwhat, hans, hcl, hfence.fencedIn, hfence.2, Bool.false_eq_true, if_false,
    hslot]
  rfl

end

theorem exec_tlnewResult {x y v : Word} (hans : q.answer = some v) (hwhat : q.what = .tlnew x y) :
    exec (.tlnewResult c seq) s = .next (s.closeQuery q v) := by
  show execTlnewResult c seq s = _
  simp only [execTlnewResult, hq, hwhat, hans]

/-! ### The steps of chopen (R202) -/

section
variable {x y adv : Word} {n : Nat}

/-- The timeline that a `chopen` names. -/
def State.chopenTarget (s : State) (x : Word) : Timeline := (s.cluster (x.toNat % 1024)).tls.get (x.toNat / 2 ^ 10 % 16) {}

/-- The slot that a `chopen` names holds no timeline of that id (R202, log 114). -/
def State.TargetGone (s : State) (x : Word) : Prop :=
  (s.chopenTarget x).st = .free ∨ (s.chopenTarget x).st = .retired ∨ (s.chopenTarget x).gen.toNat ≠ x.toNat / 2 ^ 14 % 4

/-- A channel of the rank that a `chopen` names is open there already (R202). -/
def State.RankTaken (s : State) (x : Word) : Prop :=
  ∃ p ∈ (s.cluster (x.toNat % 1024)).ins, p.1 < 112 ∧ p.2.v = true ∧ p.2.st = 1 ∧ p.2.tls = x.toNat / 2 ^ 10 % 16 ∧
    p.2.rank = x.toNat / 2 ^ 16 % 16

/-- The in-slot of a channel from out-slot `n` of core `c`'s cluster. -/
def State.openedSlot (s : State) (c n : Nat) (x adv : Word) : InSlot :=
  { h := adv, v := true, st := 1, bulk := x.toNat / 2 ^ 20 % 2 = 1, rank := x.toNat / 2 ^ 16 % 16
    tls := x.toNat / 2 ^ 10 % 16, scl := (s.core c).tl.toNat % 1024, sout := n, gen := (s.chopenTarget x).gen }

omit hq in
theorem State.targetGone_iff (s : State) (x : Word) : s.TargetGone x ↔
    ((decide ((s.chopenTarget x).st = .free) || decide ((s.chopenTarget x).st = .retired) ||
      (s.chopenTarget x).gen.toNat != x.fld 15 14) = true) := by
  have hgen : x.fld 15 14 = x.toNat / 2 ^ 14 % 4 := rfl
  simp only [State.TargetGone, hgen, Bool.or_eq_true, decide_eq_true_eq, bne_iff_ne, or_assoc]

omit hq in
theorem State.rankTaken_iff (s : State) (x : Word) : s.RankTaken x ↔
    ((s.cluster (x.toNat % 1024)).ins.any fun p =>
      decide (p.1 < 112) && p.2.v && decide (p.2.st = 1) && decide (p.2.tls = x.fld 13 10) && decide (p.2.rank = x.fld 19 16)) = true := by
  have hslot : x.fld 13 10 = x.toNat / 2 ^ 10 % 16 := rfl
  have hrank : x.fld 19 16 = x.toNat / 2 ^ 16 % 16 := rfl
  simp only [State.RankTaken, hslot, hrank, List.any_eq_true, Bool.and_eq_true, decide_eq_true_eq, and_assoc]

open Classical in
/-- The tests of a `chopen` at its target, in their order. -/
theorem exec_chopenAtTarget (hans : q.answer = none) (hwhat : q.what = .chopen n x y adv)
    (hfence : s.Unfenced c (x.toNat % 1024)) :
    let refused (code : Nat) := (s.answerQuery c seq (BitVec.ofNat 64 (2 ^ 63 + code)) code 0).postLate (.chopenResult c seq)
    exec (.chopenAtTarget c seq) s = .next (
      if s.TargetGone x then refused 4
      else if s.RankTaken x then refused 3
      else match (s.cluster (x.toNat % 1024)).freeIn with
      | none => refused 2
      | some i =>
        if adv.toNat < (s.floor (x.toNat % 1024) (x.toNat / 2 ^ 10 % 16)).toNat then refused 5
        else ((((s.modCluster (x.toNat % 1024) fun k => { k with ins := k.ins.set i (s.openedSlot c n x adv) }).retest
          (x.toNat % 1024) (x.toNat / 2 ^ 10 % 16)).answerQuery c seq (BitVec.ofNat 64 n) 0 i).postLate (.chopenResult c seq))) := by
  have hcl : x.fld 9 0 = x.toNat % 1024 := Word.fld_low x 9
  show execChopenAtTarget c seq s = _
  simp only [execChopenAtTarget, hq, hwhat, hans, hcl, hfence.fencedIn, hfence.2, Bool.false_eq_true, if_false,
    State.targetGone_iff, State.rankTaken_iff]
  rfl

end

section
variable {x y adv v : Word} {n : Nat} (hans : q.answer = some v) (hwhat : q.what = .chopen n x y adv)
include hans hwhat

/-- The out-slot of an opened channel: open (2) or closing (3), as its timeline lives or not, with the in-slot that it was given. -/
def State.outAnswered (s : State) (c n : Nat) (q : Query) (st : Nat) : State :=
  s.modCluster ((s.core c).tl.toNat % 1024) fun k => { k with
    outs := k.outs.set n { (s.cluster ((s.core c).tl.toNat % 1024)).outs.get n {} with st := st, din := q.din } }

theorem exec_chopenResult_opened (hcode : q.code = 0)
    (hlive : ((s.cluster ((s.core c).tl.toNat % 1024)).tls.get ((s.core c).tl.toNat / 1024 % 16) {}).gen.toNat =
      (s.core c).tl.toNat / 16384) :
    exec (.chopenResult c seq) s = .next (((s.outAnswered c n q 2).closeQuery q v).refloor ((s.core c).tl.toNat % 1024)
      ((s.core c).tl.toNat / 1024 % 16)) := by
  show execChopenResult c seq s = _
  simp only [execChopenResult, hq, hwhat, hans, hcode, hlive, if_true]
  rfl

theorem exec_chopenResult_timelineEnded (hcode : q.code = 0)
    (hdead : ((s.cluster ((s.core c).tl.toNat % 1024)).tls.get ((s.core c).tl.toNat / 1024 % 16) {}).gen.toNat ≠
      (s.core c).tl.toNat / 16384) :
    exec (.chopenResult c seq) s = .next ((((s.outAnswered c n q 3).post
      (.promiseSend ((s.core c).tl.toNat % 1024) n)).closeQuery q v).refloor ((s.core c).tl.toNat % 1024)
        ((s.core c).tl.toNat / 1024 % 16)) := by
  show execChopenResult c seq s = _
  simp only [execChopenResult, hq, hwhat, hans, hcode, hdead, if_true, if_false]
  rfl

theorem exec_chopenResult_noSlot (hcode : q.code = 1) :
    exec (.chopenResult c seq) s = .next ((s.closeQuery q v).refloor ((s.core c).tl.toNat % 1024)
      ((s.core c).tl.toNat / 1024 % 16)) := by
  show execChopenResult c seq s = _
  simp only [execChopenResult, hq, hwhat, hans, hcode, Nat.one_ne_zero, if_true, if_false]

theorem exec_chopenResult_refused (h0 : q.code ≠ 0) (h1 : q.code ≠ 1) :
    exec (.chopenResult c seq) s = .next (((s.modCluster ((s.core c).tl.toNat % 1024) fun k => { k with
      outs := k.outs.erase n }).closeQuery q v).refloor ((s.core c).tl.toNat % 1024) ((s.core c).tl.toNat / 1024 % 16)) := by
  show execChopenResult c seq s = _
  simp only [execChopenResult, hq, hwhat, hans, h0, h1, if_false]

end

end

/-! ### A tlfree at its cluster (R171, R196, R412, R413) -/

section
variable {c cl : Nat} {id : BitVec 16} {s : State}

theorem exec_tlfreeArrival_fenced {f : Nat} (hout : s.fencedCluster (c / 4) = none) (hin : s.fencedCluster cl = some f) :
    exec (.tlfreeArrival cl ⟨c, id⟩) s = .next (s.countNak f (routerOfCluster cl) (routerOfCluster cl) c (s.core c).ctx
      (s.core c).ctx (id.setWidth 64)) := by
  show execTlfreeArrival cl ⟨c, id⟩ s = _
  simp only [execTlfreeArrival, State.fencedIn, hout, hin, Option.isSome_none, Bool.false_eq_true, if_false]

section
variable (hfence : s.Unfenced c cl)
include hfence

theorem exec_tlfreeArrival_otherLife (hgen : ((s.cluster cl).tls.get (id.toNat / 1024 % 16) {}).gen.toNat ≠ id.toNat / 16384) :
    exec (.tlfreeArrival cl ⟨c, id⟩) s = .next s := by
  show execTlfreeArrival cl ⟨c, id⟩ s = _
  simp only [execTlfreeArrival, hfence.fencedIn, hfence.2, bne_iff_ne.mpr hgen, Bool.false_eq_true, if_true, if_false]

variable (hgen : ((s.cluster cl).tls.get (id.toNat / 1024 % 16) {}).gen.toNat = id.toNat / 16384)
include hgen

theorem exec_tlfreeArrival_frees (hst : ((s.cluster cl).tls.get (id.toNat / 1024 % 16) {}).st = .idle ∨
      ((s.cluster cl).tls.get (id.toNat / 1024 % 16) {}).st = .wait) :
    exec (.tlfreeArrival cl ⟨c, id⟩) s = .next (s.freeTimeline cl (id.toNat / 1024 % 16)) := by
  show execTlfreeArrival cl ⟨c, id⟩ s = _
  simp only [execTlfreeArrival, hfence.fencedIn, hfence.2, hgen, bne_self_eq_false, Bool.false_eq_true, if_false]
  rcases hst with hst | hst <;> rw [hst]

theorem exec_tlfreeArrival_running (hst : ((s.cluster cl).tls.get (id.toNat / 1024 % 16) {}).st = .run) :
    exec (.tlfreeArrival cl ⟨c, id⟩) s = .next (s.modCluster cl fun k => { k with
      tls := k.tls.set (id.toNat / 1024 % 16) { (s.cluster cl).tls.get (id.toNat / 1024 % 16) {} with st := .dying } }) := by
  show execTlfreeArrival cl ⟨c, id⟩ s = _
  simp only [execTlfreeArrival, hfence.fencedIn, hfence.2, hgen, hst, bne_self_eq_false, Bool.false_eq_true, if_false]

end

end

/-- What stands on the agenda for a step that has just been posted. -/
theorem State.mem_agenda_post (s : State) (e : Event) : (s.cycle, e) ∈ (s.post e).agenda :=
  List.mem_append_right _ (List.mem_singleton.mpr rfl)

/-- An out-slot just written, whatever else of its cluster changes beside it. -/
theorem State.outs_modCluster_set (s : State) (cl n : Nat) (o : OutSlot) (f : Cluster → Cluster) :
    ((s.modCluster cl fun k => { f k with outs := k.outs.set n o }).cluster cl).outs.get n {} = o := by
  rw [State.cluster_modCluster_same]
  exact Map.get_set_same ..

/-- Settles O53: one lemma above for each word and for each step at its target; the states they name are those of the statement, and
the four refusals of `chopen` come in the order of its tests. -/
theorem timelineWords : Obligations.TimelineWords := by
  intro w d a b c seq n t i cl id x y adv v q s k sa sb own slot frame asked inRect unfenced
  refine ⟨fun hi ha hany hb hb4 hr => ?tlnew, fun hi ha hr => ?tlfree, fun hi => ?promise, fun hi htl ha hrank hb hr => ?chopen,
    fun hi ha htl hv hst hown => ?chclose, fun hq hans hwhat hf => ⟨exec_tlnewAtCluster_full hq hans hwhat hf,
      exec_tlnewAtCluster_places hq hans hwhat hf⟩, fun hq hans hwhat => exec_tlnewResult hq hans hwhat,
    fun hq hans hwhat hf => ?atTarget, fun hq hans hwhat => exec_chopenResult_refused hq hans hwhat,
    fun hq hans hwhat hcode => ⟨exec_chopenResult_opened hq hans hwhat hcode, exec_chopenResult_timelineEnded hq hans hwhat hcode⟩,
    fun hq hans hwhat => exec_chopenResult_noSlot hq hans hwhat, fun f => exec_tlfreeArrival_fenced,
    fun hf => ⟨exec_tlfreeArrival_otherLife hf,
      fun hgen => ⟨exec_tlfreeArrival_frees hf hgen, exec_tlfreeArrival_running hf hgen⟩⟩⟩
  case tlnew =>
    obtain ⟨hframe, hasked⟩ := State.frame_asked (s := s) (d := d) rfl rfl rfl
    exact ⟨_, exec_tlnew hi ha hany hb hb4 hr, hframe, hasked, rfl, State.mem_agenda_post _ _⟩
  case tlfree =>
    exact ⟨_, exec_tlfree hi ha hr, State.onlyCore_modMe (s.post _) _, State.me_modMe (s.post _) _, s.mem_agenda_post _⟩
  case promise =>
    refine ⟨fun htl => ?_, fun htl hbad => ?_, fun htl hlow hhigh => ?_⟩
    · rw [exec_promise hi, if_pos htl]
    · rw [exec_promise hi, if_neg htl, if_pos hbad]
    · have hfine : ¬(sa.toNat < k.term.toNat ∨ END * 65536 < sa.toNat) := by omega
      obtain ⟨hframe, hme⟩ := s.frame_promised sa own slot
      exact ⟨_, by rw [exec_promise hi, if_neg htl, if_neg hfine], hframe, hme⟩
  case chopen =>
    have he := exec_chopen hi htl ha hrank hb hr
    obtain ⟨hframe, hasked⟩ := State.frame_asked (s := s) (d := d) rfl rfl rfl
    refine ⟨fun hfree => ?_, fun hfull => ?_⟩
    · rw [hfree] at he
      exact ⟨_, he, hframe, hasked, State.outs_modCluster_set _ own n _ fun k => k.disown n, State.mem_agenda_post _ _⟩
    · rw [hfull] at he
      exact ⟨_, he, hframe, hasked, rfl⟩
  case chclose =>
    obtain ⟨hother, hme⟩ := State.frame_advance (s := s) rfl rfl fun _ _ => rfl
    exact ⟨_, exec_chclose hi ha htl rfl hv hst hown, ⟨rfl, hother⟩, hme,
      congrArg OutSlot.st (State.outs_modCluster_set _ own sa.toNat _ fun k => k), State.mem_agenda_post _ _⟩
  case atTarget =>
    have he := exec_chopenAtTarget hq hans hwhat hf
    refine ⟨fun hgone => ?_, fun hlive htaken => ?_, fun hlive hfree hnone => ?_, fun hlive hfree hsome hlate => ?_,
      fun hlive hfree hsome hearly => ?_⟩
    · exact he.trans (congrArg _ (if_pos hgone))
    · exact he.trans (congrArg _ ((if_neg hlive).trans (if_pos htaken)))
    · rw [hnone] at he
      exact he.trans (congrArg _ ((if_neg hlive).trans (if_neg hfree)))
    · rw [hsome] at he
      exact he.trans (congrArg _ ((if_neg hlive).trans ((if_neg hfree).trans (if_pos hlate))))
    · rw [hsome] at he
      exact he.trans (congrArg _ ((if_neg hlive).trans ((if_neg hfree).trans (if_neg hearly))))

end Sys2Proof.Machine
end

section
/-! ## Horizons: promises, asks, transits, events, entry into the dispatcher, the survey (R178 to R194, R206) -/

namespace Sys2Proof.Machine

open Sys2Proof

/-! ### Arrivals of a frozen context (R378) -/

section
variable {s : State} {cl x : Nat} (hb : s.backed cl = some x)
include hb

theorem exec_promiseArrival_backed (c : Nat) (n : BitVec 8) (v : Word) :
    exec (.promiseArrival cl c n v) s = .next (s.toBacking x (.flit (.promiseArrival cl c n v))) := by
  show execPromiseArrival cl c n v s = _
  simp only [execPromiseArrival, hb]

theorem exec_askArrival_backed (n : Nat) :
    exec (.askArrival cl n) s = .next (s.toBacking x (.flit (.askArrival cl n))) := by
  show execAskArrival cl n s = _
  simp only [execAskArrival, hb]

theorem exec_eventArrival_backed (c : Nat) (n : BitVec 8) (src : BitVec 12) (stamp p0 : Word) :
    exec (.eventArrival cl c n src stamp p0) s = .next (s.toBacking x (.flit (.eventArrival cl c n src stamp p0))) := by
  show execEventArrival cl c n src stamp p0 s = _
  simp only [execEventArrival, hb]

theorem exec_taskEntry_backed : exec (.taskEntry cl) s = .next s := by
  show execTaskEntry cl s = _
  simp only [execTaskEntry, hb, Option.isSome_some, if_true]

end

/-! ### Promises (R179) -/

section
variable {i : InSlot} {n : Nat} {v : Word}

theorem InSlot.promised_counted (h : countedUpTo n i.e = true) :
    i.promised n v = { i with h := if i.h.toNat < v.toNat then v else i.h, ended := i.ended || decide (v = atTick END) } :=
  if_pos h

theorem InSlot.promised_parked (h : countedUpTo n i.e = false) (hplace : i.pval = allOnes ∨ countedUpTo n i.pseq = false) :
    i.promised n v = { i with pval := v, pseq := n } := by
  have hp : (decide (i.pval = allOnes) || !countedUpTo n i.pseq) = true := by simpa using hplace
  rw [InSlot.promised, h, if_neg Bool.false_ne_true, if_pos hp]

theorem InSlot.promised_older (h : countedUpTo n i.e = false) (hparked : i.pval ≠ allOnes) (holder : countedUpTo n i.pseq = true) :
    i.promised n v = i := by
  simp only [InSlot.promised, h, hparked, holder, decide_false, Bool.not_true, Bool.or_self, Bool.false_eq_true, if_false]

end

section
variable {s : State} {cl c : Nat} (hb : s.backed cl = none)
include hb

theorem exec_promiseArrival_free (hv : ((s.cluster cl).ins.get c {}).v = false) (n : BitVec 8) (v : Word) :
    exec (.promiseArrival cl c n v) s = .next s := by
  show execPromiseArrival cl c n v s = _
  simp only [execPromiseArrival, hb, hv, Bool.not_false, Bool.true_or, if_true]

theorem exec_promiseArrival_taken {i : InSlot} (hi : (s.cluster cl).ins.get c {} = i) (hv : i.v = true) (hc : c < 112) {n : BitVec 8}
    {v : Word} {j : InSlot} (hj : i.promised (rebuild i.e n) v = j) :
    exec (.promiseArrival cl c n v) s = .next (((s.modCluster cl fun k => { k with ins := k.ins.set c j }).retest cl i.tls).closeIn
      cl c) := by
  show execPromiseArrival cl c n v s = _
  simp only [execPromiseArrival, hb, hi, hv, hj, Nat.not_le.mpr hc, Bool.not_true, decide_false, Bool.or_self, Bool.false_eq_true,
    if_false]

/-! ### Asks and what they cause (R185, R186) -/

theorem exec_askArrival_open {o : OutSlot} (ho : (s.cluster cl).outs.find c = some o) (hst : o.st = 2) :
    exec (.askArrival cl c) s = .next ((s.modCluster cl fun k => { k with outs := k.outs.set c { o with askp := true } }).post
      (.promiseSend cl c)) := by
  show execAskArrival cl c s = _
  simp only [execAskArrival, hb, ho, hst, bne_self_eq_false, Bool.false_eq_true, if_false]

end

section
variable {s : State} {cl n : Nat} {o : OutSlot} (ho : (s.cluster cl).outs.find n = some o)
include ho

theorem exec_promiseSend_closing (hst : o.st = 3) :
    exec (.promiseSend cl n) s = .next (if s.outQueued cl n then s
      else (s.sendPromise cl n o (atTick END)).modCluster cl fun k => { k with outs := k.outs.set n { o with lastp := atTick END } }) := by
  show execPromiseSend cl n s = _
  simp only [execPromiseSend, ho, hst, if_true]

/-- A promise of `a` is due on an out-slot: by the quantum, or for an ask that waits (R185). -/
def OutSlot.Due (o : OutSlot) (a : Word) : Prop := tick o.lastp + o.q ≤ tick a ∨ (o.askp = true ∧ o.lastp.toNat < a.toNat)

theorem exec_promiseSend_due (hst : o.st = 2) (hdue : o.Due (advert (s.floor cl o.own) o.l)) :
    exec (.promiseSend cl n) s = .next ((s.sendPromise cl n o (advert (s.floor cl o.own) o.l)).modCluster cl fun k => { k with
      outs := k.outs.set n { o with lastp := advert (s.floor cl o.own) o.l, askp := false } }) := by
  have hd : (decide (tick o.lastp + o.q ≤ tick (advert (s.floor cl o.own) o.l)) ||
      (o.askp && decide (o.lastp.toNat < (advert (s.floor cl o.own) o.l).toNat))) = true := by
    simpa [OutSlot.Due] using hdue
  show execPromiseSend cl n s = _
  simp only [execPromiseSend, ho, hst, hd, if_true]
  rfl

theorem exec_promiseSend_early (hst : o.st = 2) (hearly : ¬o.Due (advert (s.floor cl o.own) o.l)) :
    exec (.promiseSend cl n) s = .next s := by
  have hd : (decide (tick o.lastp + o.q ≤ tick (advert (s.floor cl o.own) o.l)) ||
      (o.askp && decide (o.lastp.toNat < (advert (s.floor cl o.own) o.l).toNat))) = false := by
    simpa [OutSlot.Due] using hearly
  show execPromiseSend cl n s = _
  simp [execPromiseSend, ho, hst, hd]

end

/-! ### Asks (R186) -/

/-- What a flit to inject leaves of what an ask looks at. -/
theorem State.inject_frame (s : State) (cl : Nat) (fs : List Flit) :
    (∃ l, (s.inject cl fs).cluster cl = { s.cluster cl with inject := l }) ∧ (s.inject cl fs).abroad = s.abroad ∧
      (s.inject cl fs).cycle = s.cycle := by
  have hpost : ∀ t : State, (t.postOnce 0 (.flitInject cl)).cluster cl = t.cluster cl ∧
      (t.postOnce 0 (.flitInject cl)).abroad = t.abroad ∧ (t.postOnce 0 (.flitInject cl)).cycle = t.cycle := by
    intro t
    unfold State.postOnce
    split <;> exact ⟨rfl, rfl, rfl⟩
  unfold State.inject
  split
  · cases fs <;> exact ⟨⟨_, rfl⟩, rfl, rfl⟩
  · obtain ⟨hcl, hab, hcy⟩ := hpost (if cl < 576 then s.modCluster cl fun k => { k with inject := k.inject ++ fs }
      else s.modSlice (cl - 576) fun k => { k with inject := k.inject ++ fs })
    rw [hcl, hab, hcy]
    split
    · exact ⟨⟨_, s.cluster_modCluster_same cl _⟩, rfl, rfl⟩
    · exact ⟨⟨_, rfl⟩, rfl, rfl⟩

section
variable {s : State} {cl t c b : Nat} {i : InSlot} {m : Item}

/-- The one in-slot of a cluster blocks the candidate of its timeline and may be asked. -/
theorem State.toAsk_single (hins : (s.cluster cl).ins = [(c, i)]) (hserves : InSlot.serves (c, i) t = true)
    (hpass : passes (c, i) m = false) (hasks : s.asks cl c i = true) (hsince : i.since = some b) :
    s.toAsk cl t m = [(c, i, i.askAt b)] := by
  simp only [State.toAsk, hins, List.filterMap_cons, List.filterMap_nil, hserves, hpass, hasks, hsince, Bool.not_false,
    Bool.and_self, if_true, Option.map_some]

/-- An ask goes out on an in-slot, which notes the cycle (R186). -/
def State.sendAsk (s : State) (cl c : Nat) (i : InSlot) : State :=
  (s.modCluster cl fun k => { k with ins := k.ins.set c { i with asked := some s.cycle } }).inject cl
    [s.abroadOr cl c { flitTo (cl * 4) i.scl 7 with cslot := BitVec.ofNat 7 i.sout, ctx := (s.cluster cl).ctx.getD 0 }]

theorem State.sendAsk_cycle (s : State) (cl c : Nat) (i : InSlot) : (s.sendAsk cl c i).cycle = s.cycle := by
  obtain ⟨-, -, hcycle⟩ := State.inject_frame (s.modCluster cl fun k => { k with ins := k.ins.set c { i with asked := some s.cycle } })
    cl [s.abroadOr cl c { flitTo (cl * 4) i.scl 7 with cslot := BitVec.ofNat 7 i.sout, ctx := (s.cluster cl).ctx.getD 0 }]
  exact hcycle

/-- The in-slot just asked still blocks, and may be asked again 256 cycles on. -/
theorem State.toAsk_sendAsk (hins : (s.cluster cl).ins = [(c, i)]) (hserves : InSlot.serves (c, i) t = true)
    (hpass : passes (c, i) m = false) (hasks : s.asks cl c i = true) (hsince : i.since = some b) :
    (s.sendAsk cl c i).toAsk cl t m = [(c, { i with asked := some s.cycle }, max (b + 64) (s.cycle + 256))] := by
  obtain ⟨⟨l, hcluster⟩, habroad, -⟩ := State.inject_frame
    (s.modCluster cl fun k => { k with ins := k.ins.set c { i with asked := some s.cycle } }) cl
    [s.abroadOr cl c { flitTo (cl * 4) i.scl 7 with cslot := BitVec.ofNat 7 i.sout, ctx := (s.cluster cl).ctx.getD 0 }]
  rw [State.cluster_modCluster_same] at hcluster
  have hset : (Map.set (s.cluster cl).ins c { i with asked := some s.cycle } : Map InSlot) = [(c, { i with asked := some s.cycle })] := by
    simp only [hins, Map.set, Nat.lt_irrefl, if_true, if_false]
  refine State.toAsk_single ?_ hserves hpass ?_ hsince
  · rw [State.sendAsk, hcluster]
    exact hset
  · rw [State.asks, State.sendAsk, hcluster, habroad]
    exact hasks

section
variable {j : Nat} (hcand : (s.cluster cl).candidate t = some (j, m)) (hst : ((s.cluster cl).tls.get t {}).st = .wait)
  (hwho : ((s.cluster cl).tls.get t {}).who = some j) (hins : (s.cluster cl).ins = [(c, i)])
  (hserves : InSlot.serves (c, i) t = true) (hpass : passes (c, i) m = false) (hasks : s.asks cl c i = true) (hsince : i.since = some b)
include hcand hst hwho hins hserves hpass hasks hsince

theorem exec_askSend_early (hearly : s.cycle < i.askAt b) :
    exec (.askSend cl t) s = .next (s.postOnce (i.askAt b - s.cycle) (.askSend cl t)) := by
  show execAskSend cl t s = _
  simp only [execAskSend, hcand, hst, hwho, State.toAsk_single hins hserves hpass hasks hsince, bne_self_eq_false, Bool.or_self,
    Bool.false_eq_true, if_false, List.filter_cons, List.filter_nil, Nat.not_le.mpr hearly, decide_false, List.foldl_cons, List.foldl_nil]

theorem exec_askSend_due (hdue : i.askAt b ≤ s.cycle) :
    exec (.askSend cl t) s = .next ((s.sendAsk cl c i).postOnce (max (b + 64) (s.cycle + 256) - s.cycle) (.askSend cl t)) := by
  have hagain := State.toAsk_sendAsk hins hserves hpass hasks hsince
  have hcycle := s.sendAsk_cycle cl c i
  unfold State.sendAsk at hagain hcycle ⊢
  show execAskSend cl t s = _
  simp only [execAskSend, hcand, hst, hwho, State.toAsk_single hins hserves hpass hasks hsince, bne_self_eq_false, Bool.or_self,
    Bool.false_eq_true, if_false, List.filter_cons, List.filter_nil, hdue, decide_true, if_true, List.foldl_cons, List.foldl_nil,
    hagain, hcycle]

end

end

/-! ### Transit (R180, R181) -/

section
variable {s : State} {cl t j : Nat} {m : Item}

/-- The test of a timeline's candidate holds (R180). -/
def State.TransitHolds (s : State) (cl t : Nat) (m : Item) : Prop :=
  ((s.cluster cl).tls.get t {}).st = .wait ∧ m.divert = false ∧ s.backed cl = none ∧
    m.r.stamp.toNat < (s.ovMin cl t).toNat ∧ ∀ c ∈ (s.cluster cl).inSlots t, passes c m = true

theorem State.transitHolds_iff (s : State) (cl t : Nat) (m : Item) : s.TransitHolds cl t m ↔
    (decide (((s.cluster cl).tls.get t {}).st = .wait) && !m.divert && (s.backed cl).isNone &&
      decide (m.r.stamp.toNat < (s.ovMin cl t).toNat) && ((s.cluster cl).inSlots t).all fun c => passes c m) = true := by
  simp only [State.TransitHolds, Bool.and_eq_true, decide_eq_true_eq, Bool.not_eq_true', Option.isNone_iff_eq_none,
    List.all_eq_true, and_assoc]

variable (hcand : (s.cluster cl).candidate t = some (j, m))
include hcand

theorem exec_transit_holds (h : s.TransitHolds cl t m) :
    exec (.transit cl t) s = .next (((((s.modCluster cl fun k => { k with tls := k.tls.set t { (s.cluster cl).tls.get t {} with
      st := .head, last := m.r.stamp, intake := allOnes, blocked := none, who := none } }).enterEntry cl t j m).closeIn cl
        m.inSlot).refloor cl t)) := by
  show execTransit cl t s = _
  simp only [execTransit, hcand, (s.transitHolds_iff cl t m).mp h, if_true]

theorem exec_transit_fails (h : ¬s.TransitHolds cl t m) : exec (.transit cl t) s = .next s := by
  rw [State.transitHolds_iff] at h
  show execTransit cl t s = _
  simp only [execTransit, hcand, h, Bool.false_eq_true, if_false]

end

/-! ### Events (R194) -/

/-- A message of a ranked in-slot whose cluster stands where its context has it. -/
theorem State.addressed_ranked (s : State) {cl : Nat} {f : Flit} (m : Item) (htimed : f.untimed = false) {c : Nat}
    (hc : f.cslot.toNat = c) (hranked : c < 112) (himage : (s.ctx f.ctx).images.find cl = none) :
    s.addressed cl f m =
      let i := (s.cluster cl).ins.get c {}
      { m with tl := some (i.tls, i.gen), inSlot := c, rank := i.rank, bulk := i.bulk, seq := rebuild i.e f.cseq } := by
  simp only [State.addressed, htimed, hc, Nat.not_le.mpr hranked, State.unitFor, himage, Option.getD_none, Bool.false_eq_true,
    if_false]

/-- The record that an event makes at in-slot `c`, where the in-slot is `i`. -/
def InSlot.event (i : InSlot) (c x : Nat) (n : BitVec 8) (src : BitVec 12) (stamp p0 : Word) : Item where
  ev := true
  src := src.toNat
  mask := 15
  r := eventRec stamp p0
  ctx := x
  tl := some (i.tls, i.gen)
  inSlot := c
  rank := i.rank
  seq := rebuild i.e n
  bulk := i.bulk

/-- Where an event says it goes: what `exec (.eventArrival …)` makes of its flit. -/
theorem State.addressed_event (s : State) {cl c x : Nat} (hc : c < 112) (himage : (s.ctx x).images.find cl = none) (n : BitVec 8)
    (src : BitVec 12) (stamp p0 : Word) :
    s.addressed cl { src := src.toNat, dr := 0, dp := 0, fk := 5, ctx := x, cslot := BitVec.ofNat 7 c, cseq := n }
      { ev := true, src := src.toNat, mask := 15, r := eventRec stamp p0, ctx := x } =
        ((s.cluster cl).ins.get c {}).event c x n src stamp p0 :=
  s.addressed_ranked _ rfl ((BitVec.toNat_ofNat c 7).trans (Nat.mod_eq_of_lt (by omega))) hc himage

theorem exec_eventArrival_ranked {s : State} {cl c x : Nat} (hb : s.backed cl = none) (hx : (s.cluster cl).ctx = some x)
    (himage : (s.ctx x).images.find cl = none) (hc : c < 112) {i : InSlot} (hi : (s.cluster cl).ins.get c {} = i) (hv : i.v = true)
    (hst : i.st = 1) (hrank : i.rank < 8) (n : BitVec 8) (src : BitVec 12) (stamp p0 : Word) :
    let u := s.countReceived (routerOfCluster cl) x
    exec (.eventArrival cl c n src stamp p0) s = .next (
      if 256 ≤ (s.cluster cl).events then u.dropEvent cl (i.event c x n src stamp p0) i.tls
      else (({ u with nextId := s.nextId + 1 } : State).setItem cl s.nextId
        { i.event c x n src stamp p0 with order := s.nextId }).deliver cl s.nextId) := by
  intro u
  have hevent := u.addressed_event hc himage n src stamp p0
  rw [show (u.cluster cl).ins.get c {} = i from hi] at hevent
  have hr : (i.event c x n src stamp p0).rank < 8 := hrank
  show execEventArrival cl c n src stamp p0 s = _
  simp only [execEventArrival, hb, hx, Option.getD_some]
  rw [hevent]
  simp only [hr, if_true, hi, hv, hst, decide_true, Bool.and_self, Bool.true_and, decide_eq_true_eq]
  rfl

/-! ### Entry into the dispatcher (R206) -/

theorem exec_taskEntry_single {s : State} {cl j tag : Nat} {m : Item} (hb : s.backed cl = none)
    (hinbox : (s.cluster cl).inbox = [(j, m)]) (htl : m.tl = none) (hst : m.st = .pending) (hdivert : m.divert = false)
    (htag : s.tagFor cl m = some tag) :
    exec (.taskEntry cl) s = .next ((s.enterEntry cl tag j m).post (.taskEntry cl)) := by
  show execTaskEntry cl s = _
  simp only [execTaskEntry, hb, hinbox, List.filter_cons, List.filter_nil, htl, hst, hdivert, htag, Option.isNone_none,
    Option.isSome_none, Option.isSome_some, decide_true, Bool.not_false, Bool.and_self, Bool.false_eq_true, if_true, if_false,
    List.foldl_cons, List.foldl_nil]

/-! ### The survey (R187 to R191) -/

section
variable {s : State} {x : Nat}

theorem exec_tokenStart_unwanted (hwant : s.tokenWanted x = false) : exec (.tokenStart x) s = .next s := by
  show execTokenStart x s = _
  simp only [execTokenStart, hwant, Bool.not_false, Bool.or_true, if_true]

theorem exec_tokenStart (hon : (s.ctx x).tokOn = false) (hst : (s.ctx x).st = .running) (hwant : s.tokenWanted x = true) :
    exec (.tokenStart x) s = .next (if 16 ≤ (s.ctxs.filter fun p => p.2.tokOn).length then s
      else (s.beginCircuit x).postIn 4 (.surveyVisit x)) := by
  show execTokenStart x s = _
  simp only [execTokenStart, hon, hst, hwant, bne_self_eq_false, Bool.not_true, Bool.or_self, Bool.false_eq_true, if_false]

theorem exec_surveyVisit_held (hon : (s.ctx x).tokOn = true) (hst : (s.ctx x).st ≠ .running) :
    exec (.surveyVisit x) s = .next (s.modCtx x fun c => { c with tokHeld := true }) := by
  show execSurveyVisit x s = _
  simp only [execSurveyVisit, hon, bne_iff_ne.mpr hst, Bool.not_true, Bool.false_eq_true, if_true, if_false]

/-- A token that has nothing to publish has taken the values of its interface, and its next visit is the next. -/
def State.tokenVisited (s : State) (x : Nat) : State :=
  (s.tokenTakes x (visitRouter (s.ctx x).tokPos) (s.mhere x (visitRouter (s.ctx x).tokPos))).modCtx x fun c =>
    { c with tokPos := c.tokPos + 1 }

theorem exec_surveyVisit_passes (hon : (s.ctx x).tokOn = true) (hst : (s.ctx x).st = .running) (hpub : (s.ctx x).publishing = none)
    (hpos : (s.ctx x).tokPos < 191) :
    exec (.surveyVisit x) s = .next ((s.tokenVisited x).sendToken x (visitRouter (s.ctx x).tokPos)) := by
  show execSurveyVisit x s = _
  simp only [execSurveyVisit, hon, hst, hpub, Nat.not_le.mpr hpos, bne_self_eq_false, Bool.not_true, Bool.false_eq_true, if_false]
  rfl

theorem exec_survstall_late (hon : (s.ctx x).tokOn = true) (hlate : (s.ctx x).tokStart + 65536 ≤ s.cycle)
    (hnew : (s.ctx x).tokStalled = false) :
    exec (.survstall x) s = .next ((s.modCtx x fun c => { c with tokStalled := true }).note (visitRouter (min (s.ctx x).tokPos 191)) x 5
      (Word.of (visitRouter (min (s.ctx x).tokPos 191))) 0 0) := by
  show execSurvstall x s = _
  simp only [execSurvstall, hon, hlate, hnew, decide_true, Bool.not_false, Bool.and_self, if_true]

theorem exec_survstall_early (h : ¬((s.ctx x).tokOn = true ∧ (s.ctx x).tokStart + 65536 ≤ s.cycle ∧ (s.ctx x).tokStalled = false)) :
    exec (.survstall x) s = .next s := by
  have hfalse : ¬((s.ctx x).tokOn && decide ((s.ctx x).tokStart + 65536 ≤ s.cycle) && !(s.ctx x).tokStalled) = true := by
    simpa [and_assoc] using h
  show execSurvstall x s = _
  simp only [execSurvstall, hfalse, Bool.false_eq_true, if_false]

end

theorem visitRouter_lt {n : Nat} (h : n < 192) : visitRouter n < 192 := by
  unfold visitRouter
  split <;> omega

/-- A router is its own place as a source (R145). -/
theorem routerOfSrc_router {r : Nat} (h : r < 192) : routerOfSrc (0xE00 + r) = r := by
  rw [routerOfSrc, if_neg (by omega), if_neg (by simp; omega), if_neg (by simp; omega), if_pos (by simp; omega)]
  omega

theorem State.router_modRouter_same (s : State) (r : Nat) (f : Router → Router) : (s.modRouter r f).router r = f (s.router r) :=
  Map.get_set_same ..

section
variable (s : State) (x : Nat)

theorem State.surv_modSurv_same (r : Nat) (f : Surv → Surv) :
    ((s.modSurv r x f).router r).surv.get x {} = f ((s.router r).surv.get x {}) := by
  rw [State.modSurv, State.router_modRouter_same]
  exact Map.get_set_same ..

theorem State.ctx_modSurv (r y : Nat) (f : Surv → Surv) : (s.modSurv r x f).ctx y = s.ctx y := rfl

theorem State.ctx_tokenVisited :
    let r := visitRouter (s.ctx x).tokPos
    let v := (s.router r).surv.get x {}
    (s.tokenVisited x).ctx x = { s.ctx x with
      tokSum := (s.ctx x).tokSum + v.cnt, tokMin := stampMin (s.ctx x).tokMin (stampMin (s.mhere x r) v.msent)
      tokBlack := (s.ctx x).tokBlack || v.blk, tokPos := (s.ctx x).tokPos + 1 } := by
  intro r v
  rw [State.tokenVisited, State.ctx_modCtx_same, State.tokenTakes, State.ctx_modSurv, State.ctx_modCtx_same]

theorem State.surv_tokenVisited :
    let r := visitRouter (s.ctx x).tokPos
    ((s.tokenVisited x).router r).surv.get x {} = { (s.router r).surv.get x {} with cnt := 0, blk := false, msent := allOnes } := by
  intro r
  have hctx : ∀ (t : State) f, (t.modCtx x f).router r = t.router r := fun _ _ => rfl
  rw [State.tokenVisited, hctx, State.tokenTakes, State.surv_modSurv_same, hctx]

end

/-- The token as a flit that router `r` offers itself. -/
def State.tokenFlit (s : State) (x r : Nat) : Flit :=
  { src := 0xE00 + r, dr := visitRouter (s.ctx x).tokPos, dp := 0, fk := 10, ctx := x, pay := (s.ctx x).tokenPay
    port := outsidePort (0xE00 + r), due := s.cycle + 1, ev := some (.surveyVisit x) }

theorem State.router_sendToken (s : State) (x : Nat) {r : Nat} (h : r < 192) :
    (s.sendToken x r).router r = { s.router r with flits := (s.router r).flits ++ [s.tokenFlit x r] } := by
  have hsend : (s.sendToken x r).router r = (s.modRouter (routerOfSrc (0xE00 + r)) fun y => { y with
    flits := y.flits ++ [s.tokenFlit x r] }).router r := rfl
  rw [hsend, routerOfSrc_router h, State.router_modRouter_same]

/-- Settles O55: one lemma above for each step; the states they name are those of the statement. -/
theorem horizonSteps : Obligations.HorizonSteps := by
  intro cluster slot ctx tag j x cseq src v stamp p0 m o s C I T X
  refine ⟨fun hb => ⟨exec_promiseArrival_backed hb slot cseq v, exec_askArrival_backed hb slot,
      exec_eventArrival_backed hb slot cseq src stamp p0⟩,
    fun hb => ?promise, fun ho => ?outSlot, fun b c i hcand hst hwho hins hc hv hopen htls hpass hasks hsince => ?ask,
    fun hcand => ⟨exec_transit_holds hcand, exec_transit_fails hcand⟩, fun hb hx himage hslot hv hst hrank => ?event,
    ⟨fun q => exec_taskEntry_backed, exec_taskEntry_single⟩, fun hon hst => ⟨exec_tokenStart_unwanted, fun hwant => ?tokenStart⟩,
    exec_surveyVisit_held, fun hon hst hpub hpos => ?visit, fun ⟨hon, hlate, hnew⟩ => exec_survstall_late hon hlate hnew,
    exec_survstall_early⟩
  case promise =>
    refine ⟨fun hv => exec_promiseArrival_free hb hv cseq v, fun hv hslot => ?_⟩
    have htakes : ∀ {i}, I.promised (rebuild I.e cseq) v = i → _ := exec_promiseArrival_taken hb rfl hv hslot
    exact ⟨fun hn => htakes (InSlot.promised_counted hn), fun hn hempty => htakes (InSlot.promised_parked hn (.inl hempty)),
      fun hn hnewer => htakes (InSlot.promised_parked hn (.inr hnewer)),
      fun hn hparked holder => htakes (InSlot.promised_older hn hparked holder)⟩
  case outSlot =>
    refine ⟨fun hst hqueued => ?_, fun hst hsent => ?_, fun hst => ⟨exec_promiseSend_due ho hst, exec_promiseSend_early ho hst⟩,
      fun hb hst => exec_askArrival_open hb ho hst⟩
    · rw [exec_promiseSend_closing ho hst, if_pos hqueued]
    · rw [exec_promiseSend_closing ho hst, hsent, if_neg Bool.false_ne_true]
  case ask =>
    intro at_
    have hserves : InSlot.serves (c, i) slot = true := by simp [InSlot.serves, hc, hv, hopen, htls]
    have hat : at_ = i.askAt b := by
      show max (b + 64) _ = max (b + 64) _
      cases i.asked <;> rfl
    rw [hat]
    exact ⟨exec_askSend_early hcand hst hwho hins hserves hpass hasks hsince,
      exec_askSend_due hcand hst hwho hins hserves hpass hasks hsince⟩
  case event =>
    have he := exec_eventArrival_ranked hb hx himage hslot rfl hv hst hrank cseq src stamp p0
    exact ⟨fun hroom => he.trans (congrArg _ (if_neg (Nat.not_le.mpr hroom))), fun hfull => he.trans (congrArg _ (if_pos hfull))⟩
  case tokenStart =>
    have he := exec_tokenStart hon hst hwant
    exact ⟨fun hmany => he.trans (congrArg _ (if_pos hmany)), fun hfew => he.trans (congrArg _ (if_neg (Nat.not_le.mpr hfew)))⟩
  case visit =>
    intro r V
    have hr : r < 192 := visitRouter_lt (Nat.lt_succ_of_lt hpos)
    have hrouter := (s.tokenVisited ctx).router_sendToken ctx hr
    have hctx : (s.tokenVisited ctx).ctx ctx = _ := s.ctx_tokenVisited ctx
    refine ⟨_, exec_surveyVisit_passes hon hst hpub hpos, rfl, ⟨(s.tokenVisited ctx).tokenFlit ctx r, ?_, rfl, ?_, rfl, rfl⟩, hctx,
      ?_⟩
    · rw [routerOfSrc_router hr, hrouter]
      exact List.mem_append_right _ (List.mem_singleton.mpr rfl)
    · rw [State.tokenFlit, hctx]
    · rw [hrouter]
      exact s.surv_tokenVisited ctx

end Sys2Proof.Machine
end

section
/-! ## Traps whose handler cannot be entered (R224, R249, R369, R373) -/

namespace Sys2Proof.Machine

open Sys2Proof

/-! ### What a trap at rest does (R368, R369) -/

section
variable {s : State} {c : Nat} (hdeferred : (s.core c).deferred = []) (t : Trap)
include hdeferred

theorem State.enterTrap_double (hin : (s.core c).intrap = true) :
    s.enterTrap c t = (s.note (routerOfSrc c) (s.core c).ctx 16 (Word.of ((s.core c).cause.toNat % 256))
      (Word.of t.code.toNat) t.epcOf).endTrapped c t.code.toNat := by
  have hcause : (s.core c).cause.fld 7 0 = (s.core c).cause.toNat % 256 := Word.fld_low _ 7
  simp only [State.enterTrap, hdeferred, Trap.replaced, firstDeferred, hin, if_true, hcause]

theorem State.enterTrap_noVector (hin : (s.core c).intrap = false) (hvec : (s.ctx (s.core c).ctx).tvec = 0) :
    s.enterTrap c t = (s.note (routerOfSrc c) (s.core c).ctx 15 (Word.of t.code.toNat) t.epcOf t.tval).endTrapped c
      t.code.toNat := by
  simp only [State.enterTrap, hdeferred, Trap.replaced, firstDeferred, hin, hvec, Bool.false_eq_true, if_true, if_false]

end

theorem State.takeTrap_idle {s : State} {c : Nat} (hidle : (s.core c).waiting = false) (t : Trap) :
    s.takeTrap c t = s.enterTrap c t := if_neg (Bool.eq_false_iff.mp hidle)

/-! ### trap and sysc (R373) -/

section
variable {w : Bool} {n : BitVec 14} {s : State}

/-- The trap that `trap` and, where `sc` is set, `sysc` raise. -/
def State.trapWord (s : State) (n : BitVec 14) (sc : Bool) : Trap where
  code := 0x10
  pc := s.me.pc
  tval := Word.of n.toNat
  sc := sc

theorem exec_trap_idle (hi : Issues (.trap w n) s) (hidle : s.me.waiting = false) :
    exec (.trap w n) s = .next (s.enterTrap s.cur (s.trapWord n false)) :=
  (word_of_issues hi _).trans (congrArg _ (State.takeTrap_idle hidle _))

theorem exec_sysc_idle (hi : Issues (.sysc w n) s) (hidle : s.me.waiting = false) :
    exec (.sysc w n) s = .next (s.enterTrap s.cur (s.trapWord n true)) :=
  (word_of_issues hi _).trans (congrArg _ (State.takeTrap_idle hidle _))

end

/-- Settles O31: `trap` and `sysc` enter their trap at once, which finds a handler running or no vector. What stands third in
the note TRAP2 (log 15) and the cause in the GKILL of a gang (log 152) are the model's choices. -/
theorem trapWithoutHandler : Obligations.TrapWithoutHandler := by
  intro w n s k hidle hdeferred
  refine ⟨fun hin => ?double, fun hin hvec => ?noVector⟩
  case double =>
    have henter := fun sc => State.enterTrap_double hdeferred (s.trapWord n sc) hin
    exact ⟨fun hi => (exec_trap_idle hi hidle).trans (congrArg _ (henter false)),
      fun hi => (exec_sysc_idle hi hidle).trans (congrArg _ (henter true))⟩
  case noVector =>
    have henter := fun sc => State.enterTrap_noVector hdeferred (s.trapWord n sc) hin hvec
    rw [← (BitVec.ofNat_toNat 64 n : _ = n.setWidth 64)]
    exact ⟨fun hi => (exec_trap_idle hi hidle).trans (congrArg _ (henter false)),
      fun hi => (exec_sysc_idle hi hidle).trans (congrArg _ (henter true))⟩

end Sys2Proof.Machine
end

section
/-! ## Reserve desks, keys and conditions at the dispatcher (R215 to R217, R221 to R223, R226, R231, R428) -/

namespace Sys2Proof.Machine

open Sys2Proof

/-! ### Reserve desks (R216, R226, R428) -/

/-- A desk's refusal of a key. -/
def State.refuseKey (s : State) (slice ctx cluster tag : Nat) (key : BitVec 16) : State :=
  s.deskAnswers slice ctx cluster tag key.toNat .krefuse (.krefuseArrival cluster tag key)

/-- A desk's grant of a key to its holder. -/
def State.sendGrant (s : State) (slice : Nat) (E : KeyEntry) : State :=
  s.deskAnswers slice E.ctx E.hcl E.htag E.key.toNat .kgrant (.kgrantArrival E.hcl E.htag E.key)

/-- A desk with a key entry written. -/
def State.putKey (s : State) (slice : Nat) (E : KeyEntry) : State := s.modSlice slice fun v => v.putKey E

theorem State.grant_running {s : State} {E : KeyEntry} (h : s.mayStart E.ctx = true) (slice : Nat) :
    s.grant slice E = s.sendGrant slice E := if_pos h

/-- The entry of a key that is passed on to the first in its queue. -/
def KeyEntry.passed (E : KeyEntry) (p : Nat × Nat) (q : List (Nat × Nat)) : KeyEntry :=
  { E with hcl := p.1, htag := p.2, hrun := false, park := false, queue := q }

section
variable {s : State} {slice ctx : Nat} {key : BitVec 16}

section
variable (hnone : (s.slice slice).keyEntry ctx key = none) (cluster tag : Nat)
include hnone

theorem exec_deskKreq_tableFull (hfull : 4096 ≤ (s.slice slice).keys.length) :
    exec (.deskKreq slice ctx cluster tag key) s = .next (s.refuseKey slice ctx cluster tag key) := by
  show execDeskKreq slice ctx cluster tag key s = _
  simp only [execDeskKreq, hnone, hfull, if_true, State.refuseKey]

theorem exec_deskKreq_free (hroom : (s.slice slice).keys.length < 4096) (hstart : s.mayStart ctx = true) :
    let E : KeyEntry := { ctx := ctx, key := key, hcl := cluster, htag := tag }
    exec (.deskKreq slice ctx cluster tag key) s = .next
      ((s.modSlice slice fun v => { v with keys := v.keys ++ [E] }).sendGrant slice E) := by
  intro E
  show execDeskKreq slice ctx cluster tag key s = _
  simp only [execDeskKreq, hnone, Nat.not_le.mpr hroom, if_false]
  exact congrArg _ (State.grant_running hstart slice)

theorem exec_deskKrel_none : exec (.deskKrel slice ctx cluster tag key) s = .next s := by
  show execDeskKrel slice ctx cluster tag key s = _
  simp only [execDeskKrel, hnone]

theorem exec_deskKcancel_none : exec (.deskKcancel slice ctx cluster tag key) s = .next s := by
  show execDeskKcancel slice ctx cluster tag key s = _
  simp only [execDeskKcancel, hnone]

theorem exec_krunAtDesk_none : exec (.krunAtDesk slice ctx cluster tag key) s = .next s := by
  show execKrunAtDesk slice ctx cluster tag key s = _
  simp only [execKrunAtDesk, hnone]

end

section
variable {E : KeyEntry} (hentry : (s.slice slice).keyEntry ctx key = some E) {cluster tag : Nat}
include hentry

theorem exec_deskKreq_holdsFull (hfull : 512 ≤ (s.slice slice).holds) :
    exec (.deskKreq slice ctx cluster tag key) s = .next (s.refuseKey slice ctx cluster tag key) := by
  show execDeskKreq slice ctx cluster tag key s = _
  simp only [execDeskKreq, hentry, hfull, if_true, State.refuseKey]

theorem exec_deskKreq_queues (hroom : (s.slice slice).holds < 512) :
    exec (.deskKreq slice ctx cluster tag key) s = .next (s.putKey slice { E with queue := E.queue ++ [(cluster, tag)] }) := by
  show execDeskKreq slice ctx cluster tag key s = _
  simp only [execDeskKreq, hentry, Nat.not_le.mpr hroom, if_false, State.putKey]

section
variable (hother : (E.hcl = cluster && E.htag = tag) = false)
include hother

theorem exec_deskKrel_other : exec (.deskKrel slice ctx cluster tag key) s = .next s := by
  show execDeskKrel slice ctx cluster tag key s = _
  simp only [execDeskKrel, hentry, hother, Bool.false_eq_true, if_false]

theorem exec_krunAtDesk_other : exec (.krunAtDesk slice ctx cluster tag key) s = .next s := by
  show execKrunAtDesk slice ctx cluster tag key s = _
  simp only [execKrunAtDesk, hentry, hother, Bool.false_eq_true, if_false]

theorem exec_deskKcancel_other : exec (.deskKcancel slice ctx cluster tag key) s = .next
    (s.putKey slice { E with queue := E.queue.filter (· != (cluster, tag)) }) := by
  show execDeskKcancel slice ctx cluster tag key s = _
  simp only [execDeskKcancel, hentry, hother, Bool.false_eq_true, if_false, State.putKey]

end

section
variable (hholder : (E.hcl = cluster && E.htag = tag) = true)
include hholder

theorem exec_krunAtDesk_holder :
    exec (.krunAtDesk slice ctx cluster tag key) s = .next (s.putKey slice { E with hrun := true }) := by
  show execKrunAtDesk slice ctx cluster tag key s = _
  simp only [execKrunAtDesk, hentry, hholder, if_true, State.putKey]

theorem exec_deskKrel_holder : exec (.deskKrel slice ctx cluster tag key) s = .next (s.passKey slice E) := by
  show execDeskKrel slice ctx cluster tag key s = _
  simp only [execDeskKrel, hentry, hholder, if_true]

theorem exec_deskKcancel_holder : exec (.deskKcancel slice ctx cluster tag key) s = .next (s.passKey slice E) := by
  show execDeskKcancel slice ctx cluster tag key s = _
  simp only [execDeskKcancel, hentry, hholder, if_true]

end

end

end

theorem State.passKey_last (s : State) (slice : Nat) {E : KeyEntry} (h : E.queue = []) :
    s.passKey slice E = s.modSlice slice fun v => v.dropKey E := by
  simp only [State.passKey, h]

theorem State.passKey_next {s : State} (slice : Nat) {E : KeyEntry} {p : Nat × Nat} {q : List (Nat × Nat)} (h : E.queue = p :: q)
    (hstart : s.mayStart E.ctx = true) : s.passKey slice E = (s.putKey slice (E.passed p q)).sendGrant slice (E.passed p q) := by
  simp only [State.passKey, h]
  exact State.grant_running (s := s.putKey slice (E.passed p q)) (E := E.passed p q) hstart slice

/-! ### Grants and refusals at the dispatcher (R215, R217, R231) -/

theorem State.item_setEntry (s : State) (cl tag : Nat) (e : TEntry) (i : Nat) : (s.setEntry cl tag e).item cl i = s.item cl i := by
  simp only [State.item, State.setEntry, State.cluster_modCluster_same]

theorem State.registerConds_unconditional (s : State) (cl tag : Nat) (e : TEntry) {m : Item} (h : recCond m.r[0] = 0) :
    s.registerConds cl tag e m = s.makeReady cl tag e := by
  simp only [State.registerConds, h, List.range_zero, State.registerFrom, List.all_nil, if_true]

/-- An entry that holds one key more. -/
def TEntry.keyTaken (e : TEntry) : TEntry := { e with granted := e.granted + 1, tries := 0, retryAt := none }

/-- An entry whose key request was refused at a cycle. -/
def TEntry.keyRefused (e : TEntry) (cyc : Nat) : TEntry :=
  { e with tries := e.tries + 1, retryAt := some (cyc + 128 * 2 ^ min e.tries 4) }

theorem exec_kgrantArrival_unawaited {s : State} {cl tag : Nat} (hb : s.backed cl = none)
    (hfind : (s.cluster cl).entries.find tag = none) (key : BitVec 16) :
    exec (.kgrantArrival cl tag key) s = .next (s.sendKrel ((s.cluster cl).ctx.getD 0) cl tag key) := by
  show execKgrantArrival cl tag key s = _
  simp only [execKgrantArrival, hb, hfind]

/-- An entry asks for the key. -/
def TEntry.Awaits (e : TEntry) (key : BitVec 16) : Prop := e.phase = .acq ∧ e.keys[e.granted]? = some key

theorem TEntry.Awaits.guard {e : TEntry} {key : BitVec 16} (h : e.Awaits key) :
    (e.phase != .acq || e.keys[e.granted]? != some key) = false := by
  rw [h.1, h.2, bne_self_eq_false, bne_self_eq_false, Bool.or_self]

section
variable {s : State} {cl tag : Nat} {e : TEntry} (hfind : (s.cluster cl).entries.find tag = some e)
include hfind

section
variable {key : BitVec 16} (hawaits : e.Awaits key)
include hawaits

section
variable (hb : s.backed cl = none)
include hb

section
variable {since : Nat} (hsince : e.since = some since)
include hsince

theorem exec_kgrantArrival_nextKey {k : BitVec 16} (hnext : e.keys[e.granted + 1]? = some k) :
    exec (.kgrantArrival cl tag key) s = .next ((s.setEntry cl tag e.keyTaken).sendKreq e.ctx cl tag k) := by
  have hset : e.since.isNone = false := by rw [hsince, Option.isNone_some]
  have hkept : some (e.since.getD s.cycle) = e.since := by rw [hsince, Option.getD_some]
  show execKgrantArrival cl tag key s = _
  simp only [execKgrantArrival, hb, hfind, hawaits.guard, hset, hkept, hnext, Bool.false_eq_true, if_false]
  rfl

theorem exec_kgrantArrival_lastKey {m : Item} (hnext : e.keys[e.granted + 1]? = none) (hitem : s.item cl e.item = some m)
    (hcond : recCond m.r[0] = 0) :
    exec (.kgrantArrival cl tag key) s = .next ((s.setEntry cl tag e.keyTaken).makeReady cl tag e.keyTaken) := by
  have hset : e.since.isNone = false := by rw [hsince, Option.isNone_some]
  have hkept : some (e.since.getD s.cycle) = e.since := by rw [hsince, Option.getD_some]
  show execKgrantArrival cl tag key s = _
  simp only [execKgrantArrival, hb, hfind, hawaits.guard, hset, hkept, hnext, State.item_setEntry, hitem,
    State.registerConds_unconditional _ _ _ _ hcond, Bool.false_eq_true, if_false]
  rfl

end

theorem exec_keyRetry_due {since : Nat} (hretry : e.retryAt = some since) (hdue : since ≤ s.cycle) :
    exec (.keyRetry cl tag) s = .next ((s.setEntry cl tag { e with retryAt := none }).sendKreq e.ctx cl tag key) := by
  show execKeyRetry cl tag s = _
  simp only [execKeyRetry, hfind, hretry, hdue, hawaits.1, hawaits.2, hb, decide_true, Bool.not_true, bne_self_eq_false,
    Option.isSome_none, Bool.or_self, Bool.false_eq_true, if_false]

end

theorem exec_krefuseArrival_awaited :
    exec (.krefuseArrival cl tag key) s = .next ((s.setEntry cl tag (e.keyRefused s.cycle)).postIn (128 * 2 ^ min e.tries 4)
      (.keyRetry cl tag)) := by
  show execKrefuseArrival cl tag key s = _
  simp only [execKrefuseArrival, hfind, hawaits.guard, Bool.false_eq_true, if_false]
  rfl

end

theorem exec_keyRetry_early {since : Nat} (hretry : e.retryAt = some since) (hearly : s.cycle < since) :
    exec (.keyRetry cl tag) s = .next s := by
  show execKeyRetry cl tag s = _
  simp only [execKeyRetry, hfind, hretry, Nat.not_le.mpr hearly, decide_false, Bool.not_false, Bool.true_or, if_true]

theorem exec_keyRetry_withdrawn (hretry : e.retryAt = none) : exec (.keyRetry cl tag) s = .next s := by
  show execKeyRetry cl tag s = _
  simp only [execKeyRetry, hfind, hretry, Bool.not_false, Bool.true_or, if_true]

end

/-! ### Conditions (R221 to R223) -/

theorem State.correct_of_noErrors {s : State} (h : s.soft = []) (pa n : Nat) (whole : Bool) : s.correct pa n whole = s := by
  have hsame : ({ s with soft := [] } : State) = s := by rw [← h]
  simp only [State.correct, h, List.filter_nil, List.foldl_nil]
  exact hsame

/-- The watch of condition `j` of a task's record, of the word at `pa`. -/
def Item.watchOf (m : Item) (ctx cl tag j pa : Nat) : Watch where
  ctx := ctx
  pa := pa
  target := BitVec.ofNat 32 ((recCondWord m.r j).fld 47 16)
  handle := BitVec.ofNat 16 ((recCondWord m.r j).fld 15 0)
  cluster := cl
  tag := tag
  cond := j

/-- Whether condition `j` of a task of a context is watched at a slice. -/
def Slice.watching (v : Slice) (ctx cl tag j : Nat) : Bool :=
  v.watches.any fun q => q.ctx = ctx && q.cluster = cl && q.tag = tag && q.cond = j

/-- An entry that has latched condition `j`. -/
def TEntry.condMet (e : TEntry) (j : Nat) : TEntry :=
  { e with met := e.met ||| BitVec.ofNat 2 (2 ^ j), poll := e.poll &&& ~~~(BitVec.ofNat 2 (2 ^ j)) }

section
variable {s : State} {cl tag : Nat} {e : TEntry} {m : Item} (hfind : (s.cluster cl).entries.find tag = some e)
  (hphase : e.phase = .cond) (hitem : s.item cl e.item = some m)
include hfind hphase hitem

/-- What a slice makes of a condition not yet met whose word it may read. -/
theorem exec_wregAtSlice {j pa : Nat} (hmet : e.met.getLsbD j = false) (hwatch : (e.watch[j]?).getD none = some pa)
    (hwin : s.slwinNew = []) (hsoft : s.soft = []) :
    let w := m.watchOf e.ctx cl tag j pa
    let h := s.homeOf pa
    let handle := (recCondWord m.r j).fld 15 0
    exec (.wregAtSlice cl tag j) s = .next (
      if s.poisoned pa 8 then s.abandon cl tag 6 e
      else if condHolds (s.readMem pa 8) w.target then s.deskAnswers h e.ctx cl tag handle .wmet (.wmetArrival cl tag j)
      else if (s.slice h).watching e.ctx cl tag j then s
      else if (s.slice h).watches.length < 64 then
        (s.modSlice h fun v => { v with watches := v.watches ++ [w] }).setEntry cl tag
          { e with poll := e.poll &&& ~~~(BitVec.ofNat 2 (2 ^ j)) }
      else s.deskAnswers h e.ctx cl tag handle .wrefuse (.wrefuseArrival cl tag j)) := by
  intro w h handle
  show execWregAtSlice cl tag j s = _
  simp only [execWregAtSlice, hfind, hitem, hphase, hmet, hwatch, hwin, Map.has, State.correct_of_noErrors hsoft, bne_self_eq_false,
    Bool.or_self, Bool.false_eq_true, if_false]
  rfl

theorem exec_wmetArrival (hb : s.backed cl = none) (j : Nat) :
    exec (.wmetArrival cl tag j) s = .next (
      if (List.range (recCond m.r[0])).all fun i => (e.condMet j).met.getLsbD i then s.makeReady cl tag (e.condMet j)
      else s.setEntry cl tag (e.condMet j)) := by
  have hcond : (e.phase != .cond) = false := by rw [hphase, bne_self_eq_false]
  show execWmetArrival cl tag j s = _
  simp only [execWmetArrival, hb, hfind, hitem, hcond, Bool.false_eq_true, if_false]
  rfl

omit hitem in
theorem exec_wrefuseArrival (hb : s.backed cl = none) (j : Nat) :
    exec (.wrefuseArrival cl tag j) s = .next ((s.setEntry cl tag { e with poll := e.poll ||| BitVec.ofNat 2 (2 ^ j) }).postIn 512
      (.watchPoll cl tag j)) := by
  show execWrefuseArrival cl tag j s = _
  simp only [execWrefuseArrival, hb, hfind, hphase, bne_self_eq_false, Bool.false_eq_true, if_false]

theorem exec_watchPoll_polling {j : Nat} (hpoll : e.poll.getLsbD j = true) (hb : s.backed cl = none) :
    exec (.watchPoll cl tag j) s = .next (s.sendWreg cl tag j e m) := by
  show execWatchPoll cl tag j s = _
  simp only [execWatchPoll, hfind, hitem, hphase, hpoll, hb, decide_true, Option.isNone_none, Bool.and_self, if_true]

omit hphase in
theorem exec_watchPoll_ended {j : Nat} (hpoll : e.poll.getLsbD j = false) : exec (.watchPoll cl tag j) s = .next s := by
  show execWatchPoll cl tag j s = _
  simp only [execWatchPoll, hfind, hitem, hpoll, Bool.and_false, Bool.false_and, Bool.false_eq_true, if_false]

end

/-! ### The note of a long wait (R223, R363) -/

section
variable {s : State} {cl tag since : Nat} {e : TEntry} {m : Item} (hfind : (s.cluster cl).entries.find tag = some e)
  (hitem : s.item cl e.item = some m) (hsince : e.since = some since)
include hfind hitem hsince

theorem exec_dwait_quiet (h : e.noted = true ∨ s.cycle < since + 2 ^ 20) : exec (.dwait cl tag) s = .next s := by
  show execDwait cl tag s = _
  have hquiet : (e.noted || s.cycle < since + 2 ^ 20 || !(e.phase = .acq || e.phase = .cond)) = true := by
    rw [Bool.or_eq_true, Bool.or_eq_true, decide_eq_true_iff]
    exact .inl h
  simp only [execDwait, hfind, hitem, hsince, hquiet, if_true]

theorem exec_dwait_notes (hnoted : e.noted = false) (hlate : since + 2 ^ 20 ≤ s.cycle) (hphase : e.phase = .acq) :
    exec (.dwait cl tag) s = .next ((s.setEntry cl tag { e with noted := true }).note (routerOfCluster cl) e.ctx 7
      (Word.of (cl * 64 + tag)) (pack16 ((e.keys.take e.granted).map BitVec.toNat))
      (pack16 ((List.range (recCond m.r[0])).map fun _ => 0xFFFF))) := by
  show execDwait cl tag s = _
  have hloud : (e.noted || s.cycle < since + 2 ^ 20 || !(e.phase = .acq || e.phase = .cond)) = false := by
    simp only [hnoted, hphase, Nat.not_lt.mpr hlate, decide_false, decide_true, Bool.true_or, Bool.not_true, Bool.or_self]
  simp only [execDwait, hfind, hitem, hsince, hloud, Bool.false_eq_true, if_false]
  simp only [hphase, reduceCtorEq, decide_false, Bool.false_and, Bool.false_eq_true, if_false]

end

end Sys2Proof.Machine
end

section
/-! ## The choice of a task and the hold of a quad (R209 to R211, R237) -/

namespace Sys2Proof.Machine

open Sys2Proof

/-! ### The first in the order of R209 -/

theorem firstTask_mem {cyc rr : Nat} {l : List (Nat × TEntry × Item)} {p : Nat × TEntry × Item}
    (h : firstTask cyc rr l = some p) : p ∈ l := by
  refine List.foldlRecOn (motive := fun b => ∀ q, b = some q → q ∈ l) l _ (fun q (hq : none = some q) => nomatch hq) ?_ p h
  intro b hb a ha q hq
  cases b with
  | none => exact Option.some.inj hq ▸ ha
  | some c =>
    dsimp only at hq
    split at hq
    · exact Option.some.inj hq ▸ ha
    · exact hb q hq

/-! ### A dispatch in which nothing is held, bound or deferred -/

theorem State.unhold_none {s : State} {cl : Nat} (h : (s.cluster cl).gang4 = none) : s.unhold cl = s := by
  simp only [State.unhold, h, Option.isNone_none, if_true]

/-- Every READY task of a cluster may start on any core, and none is deferred as bulk. -/
def State.Unbound (s : State) (cl : Nat) : Prop :=
  ∀ p ∈ s.readyTasks cl, p.2.2.core = none ∧ p.2.2.isBulk = false ∧ p.2.1.defAt = none

section
variable {s : State} {cl : Nat} (hunbound : s.Unbound cl)
include hunbound

theorem State.Unbound.deferBulk : s.deferBulk cl = s := by
  refine List.foldlRecOn (motive := fun u => u = s) (s.readyTasks cl) _ rfl fun u hu p hp => ?_
  obtain ⟨-, hbulk, -⟩ := hunbound p hp
  simp only [hbulk, Bool.not_false, if_true, hu]

theorem State.Unbound.startable (free : List Nat) : s.startable cl free = s.readyTasks cl := by
  have hall : (s.readyTasks cl).filter (fun p => !s.deferredNow cl p.2.1 p.2.2 && (match p.2.2.core with
      | none => true
      | some c => free.contains c)) = s.readyTasks cl := by
    refine List.filter_eq_self.mpr fun p hp => ?_
    obtain ⟨hcore, hbulk, -⟩ := hunbound p hp
    simp only [State.deferredNow, hcore, hbulk, Bool.false_and, Bool.not_false, Bool.and_self]
  have hsettled : ∀ p ∈ s.readyTasks cl, (p.1, p.2.1.settled s.cycle, p.2.2) = p := by
    intro p hp
    obtain ⟨-, -, hdef⟩ := hunbound p hp
    simp only [TEntry.settled, hdef]
  exact (congrArg _ hall).trans ((List.map_congr_left hsettled).trans (List.map_id _))

/-- What the dispatcher does with the first READY task where `c` is the lowest free core and `rest` are the others. -/
theorem exec_dispatch_first {x c tag : Nat} {rest : List Nat} {e : TEntry} {m : Item} (hctx : (s.cluster cl).ctx = some x)
    (hstart : s.mayStart x = true) (hgang : (s.cluster cl).gang4 = none) (hquad : (s.router (routerOfCluster cl)).quadHeld = false)
    (hfirst : firstTask s.cycle (s.cluster cl).rr (s.readyTasks cl) = some (tag, e, m))
    (hfree : ((coresOf cl).filter fun c => (s.core c).run = .free) = c :: rest) :
    exec (.dispatch cl) s = .next (
      if recKind m.r[0] = 4 && !m.ev then
        (s.setEntry cl tag { e with phase := .quad }).posts [.quadHoldRequest cl tag, .dispatch cl]
      else if recKind m.r[0] = 3 && !m.ev then
        if (c :: rest).length = 4 then s.startTask cl tag e m 1 cl ((List.range 4).map fun i => (cl * 4 + i, i))
        else (c :: rest).foldl (fun s c => s.modCore c fun k => { k with run := .held })
          (s.modCluster cl fun k => { k with gang4 := some tag })
      else (s.startTask cl tag e m 0 0 [(c, 0)]).post (.dispatch cl)) := by
  have hcore : m.core.getD c = c := by rw [(hunbound _ (firstTask_mem hfirst)).1, Option.getD_none]
  show execDispatch cl s = _
  simp only [execDispatch, hctx, Option.isNone_some, Option.getD_some, hstart, Bool.not_true, Bool.or_self, Bool.false_eq_true, if_false,
    State.unhold_none hgang, hunbound.deferBulk, hquad, hunbound.startable, hfree, hfirst, hcore]

end

/-! ### Promotions and the hold of a quad (R210, R237) -/

section
variable {s : State} {cl tag : Nat} {e : TEntry} (hfind : (s.cluster cl).entries.find tag = some e)
include hfind

theorem exec_priorityPromotion_entered : exec (.priorityPromotion cl tag) s = .next (s.post (.dispatch cl)) := by
  show execPriorityPromotion cl tag s = _
  simp only [execPriorityPromotion, hfind]

theorem exec_quadHoldRequest_new (hphase : e.phase = .quad)
    (hnew : (s.router (routerOfCluster cl)).holds.contains (cl, tag) = false) :
    exec (.quadHoldRequest cl tag) s = .next
      ((s.modRouter (routerOfCluster cl) fun x => { x with holds := x.holds ++ [(cl, tag)], quadHeld := true }).posts
        ((List.range 4).map fun p => .dispatch (cl / 4 * 4 + p))) := by
  show execQuadHoldRequest cl tag s = _
  simp only [execQuadHoldRequest, hfind, hphase, hnew, bne_self_eq_false, Bool.or_self, Bool.false_eq_true, if_false]

theorem exec_quadGangStart_held {quad : Nat} {rest : List (Nat × Nat)} {m : Item}
    (hholds : (s.router (routerOfCompute quad)).holds = (cl, tag) :: rest)
    (hquad : (s.router (routerOfCompute quad)).quadHeld = true) (hheld : ∀ i < 16, (s.core (quad * 16 + i)).run = .held)
    (hstart : s.mayStart ((s.cluster cl).ctx.getD 0) = true) (hitem : s.item cl e.item = some m) :
    exec (.quadGangStart quad) s = .next
      ((s.modRouter (routerOfCompute quad) fun x => { x with holds := rest, quadHeld := !rest.isEmpty }).startTask cl tag e m 2
        (quad * 4) ((List.range 16).map fun i => (quad * 16 + i, i))) := by
  have hall : (((List.range 16).map (quad * 16 + ·)).all fun c => (s.core c).run = .held) = true := by
    rw [List.all_map, List.all_eq_true]
    exact fun i hi => decide_eq_true (hheld i (List.mem_range.mp hi))
  show execQuadGangStart quad s = _
  simp only [execQuadGangStart, hholds, hquad, hall, hstart, hfind, hitem, Bool.and_self, Bool.not_true, Bool.false_eq_true, if_false]

end

end Sys2Proof.Machine
end

section
/-! ## Barrier words and the barrier unit (R239 to R246) -/

namespace Sys2Proof.Machine

open Sys2Proof

/-! ### A gang's barrier entry -/

@[simp] theorem State.barrierOf_setBarrier (s : State) (g : BitVec 16) (b : Barrier) : (s.setBarrier g b).barrierOf g = b := by
  simp only [State.setBarrier, State.barrierOf]
  split
  · exact congrArg Router.barrier (s.router_modRouter_same _ _)
  · exact congrArg Cluster.barrier (s.cluster_modCluster_same _ _)

@[simp] theorem State.setBarrier_cores (s : State) (g : BitVec 16) (b : Barrier) : (s.setBarrier g b).cores = s.cores := by
  simp only [State.setBarrier]
  split <;> rfl

@[simp] theorem State.setBarrier_cur (s : State) (g : BitVec 16) (b : Barrier) : (s.setBarrier g b).cur = s.cur := by
  simp only [State.setBarrier]
  split <;> rfl

@[simp] theorem State.setBarrier_mem (s : State) (g : BitVec 16) (b : Barrier) : (s.setBarrier g b).mem = s.mem := by
  simp only [State.setBarrier]
  split <;> rfl

@[simp] theorem State.core_setBarrier (s : State) (g : BitVec 16) (b : Barrier) (c : Nat) : (s.setBarrier g b).core c = s.core c := by
  rw [State.core, State.setBarrier_cores, State.core]

/-- Cores and agenda apart, nothing differs. -/
def CoresOnly (s t : State) : Prop := { t with cores := s.cores, agenda := s.agenda } = s

section
variable {s t u : State}

theorem CoresOnly.refl (s : State) : CoresOnly s s := rfl

theorem CoresOnly.modCore (h : CoresOnly s t) (c : Nat) (f : Core → Core) : CoresOnly s (t.modCore c f) := h

theorem CoresOnly.postIn (h : CoresOnly s t) (d : Nat) (e : Event) : CoresOnly s (t.postIn d e) := h

theorem CoresOnly.trans (h : CoresOnly s t) (h' : CoresOnly t u) : CoresOnly s u := by
  have hu : { u with cores := s.cores, agenda := s.agenda } = { t with cores := s.cores, agenda := s.agenda } :=
    congrArg (fun v : State => { v with cores := s.cores, agenda := s.agenda }) h'
  exact hu.trans h

theorem CoresOnly.mem_eq (h : CoresOnly s t) : t.mem = s.mem := (congrArg State.mem h :)

theorem CoresOnly.barrierOf_eq (h : CoresOnly s t) (g : BitVec 16) : t.barrierOf g = s.barrierOf g :=
  (congrArg (fun v : State => v.barrierOf g) h :)

theorem AgendaOnly.coresOnly (h : AgendaOnly s t) : CoresOnly s t := (congrArg (fun v : State => { v with cores := s.cores }) h :)

theorem AgendaOnly.barrierOf_eq (h : AgendaOnly s t) (g : BitVec 16) : t.barrierOf g = s.barrierOf g := h.coresOnly.barrierOf_eq g

end

/-! ### Barrier words (R243, R244) -/

/-- No byte of memory and no core but the one whose word runs differs, and of that core what `k` says. -/
def MeBecomes (s t : State) (k : Core) : Prop := (t.mem = s.mem ∧ ∀ j, j ≠ s.cur → t.core j = s.core j) ∧ t.me = k

theorem State.meBecomes_modMe (s : State) (f : Core → Core) : MeBecomes s (s.modMe f) (f s.me) :=
  ⟨⟨rfl, fun _ hj => s.core_setCore_ne _ hj⟩, s.me_modMe f⟩

theorem MeBecomes.trans {s t u : State} {k l : Core} (h : MeBecomes s t k) (hcur : t.cur = s.cur) (h' : MeBecomes t u l) :
    MeBecomes s u l :=
  ⟨⟨h'.1.1.trans h.1.1, fun j hj => (h'.1.2 j (hcur ▸ hj)).trans (h.1.2 j hj)⟩, h'.2⟩

/-- A member that has arrived once more: PEND, and the arrival that waits for its release condition. -/
def Core.arriving (k : Core) (mask : BitVec 5) : Core :=
  { k with pend := k.pend + 1, seq := k.seq + 1, held := k.held.set k.seq (k.holding .arrival mask) }

section
variable (s : State) (mask : BitVec 5)

theorem State.agendaOnly_arrive : AgendaOnly (s.modMe fun k => k.arriving mask) (s.arrive mask) := State.agendaOnly_kick _ _

theorem State.cur_arrive : (s.arrive mask).cur = s.cur := (s.agendaOnly_arrive mask).cur_eq

theorem State.meBecomes_arrive : MeBecomes s (s.arrive mask) (s.me.arriving mask) := by
  obtain ⟨hme, hothers, hmem⟩ := s.modMe_kick fun k => k.arriving mask
  exact ⟨⟨hmem, hothers⟩, hme⟩

theorem State.barrierOf_arrive (g : BitVec 16) : (s.arrive mask).barrierOf g = s.barrierOf g :=
  (s.agendaOnly_arrive mask).barrierOf_eq g

end

section
variable {s : State} (hidle : s.me.waiting = false) (hdeferred : s.me.deferred = [])
include hidle hdeferred

theorem State.waited_idle (body : State → State) : s.waited body = body s := by
  simp only [State.waited, hidle, hdeferred, List.isEmpty_nil, Bool.false_eq_true, if_false, if_true]

theorem State.meBecomes_barWait_passes (hpend : s.me.pend = 0) :
    MeBecomes s s.barWait { s.me with arrived := none, pc := s.me.pc + 4 } := by
  rw [State.barWait, State.waited_idle hidle hdeferred]
  dsimp only
  rw [if_pos hpend]
  have h := (s.meBecomes_modMe fun q => { q with arrived := none }).trans rfl (State.meBecomes_modMe _ fun k => { k with pc := k.pc + 4 })
  rwa [State.me_modMe] at h

theorem State.meBecomes_barWait_parks (hpend : s.me.pend ≠ 0) :
    MeBecomes s s.barWait { s.me with run := .parked (s.me.pc + 4) } ∧
    (s.barWait.barrierOf s.me.gang).wt = (s.barrierOf s.me.gang).wt ||| memberBit s.me.gang := by
  rw [State.barWait, State.waited_idle hidle hdeferred]
  dsimp only
  rw [if_neg hpend]
  generalize hb : ({ s.barrierOf s.me.gang with wt := (s.barrierOf s.me.gang).wt ||| memberBit s.me.gang } : Barrier) = b
  have hcur : (s.setBarrier s.me.gang b).cur = s.cur := s.setBarrier_cur _ _
  have hset : MeBecomes s (s.setBarrier s.me.gang b) s.me :=
    ⟨⟨s.setBarrier_mem _ _, fun j _ => s.core_setBarrier _ _ j⟩, by rw [State.me, hcur, State.core_setBarrier, State.me]⟩
  have h := hset.trans hcur (State.meBecomes_modMe _ fun q => { q with run := .parked (q.pc + 4) })
  rw [hset.2] at h
  refine ⟨h, (congrArg Barrier.wt (State.barrierOf_setBarrier s s.me.gang b)).trans ?_⟩
  rw [← hb]

end

section
variable {w : Bool} {mask : BitVec 5} {s : State}

section
variable (hi : Issues (.bara w mask) s)
include hi

theorem exec_bara_outside (hgang : s.me.gang = 0) : exec (.bara w mask) s = .next (s.trap 0x0F 0) :=
  (word_of_issues hi _).trans (congrArg _ (if_pos hgang))

variable (hgang : s.me.gang ≠ 0)
include hgang

theorem exec_bara_full (hfull : 2 ≤ s.me.pend) : exec (.bara w mask) s = .next s.stall :=
  (word_of_issues hi _).trans (congrArg _ ((if_neg hgang).trans (if_pos hfull)))

theorem exec_bara_arrives (hroom : s.me.pend < 2) : exec (.bara w mask) s = .next (s.arrive mask).advance :=
  (word_of_issues hi _).trans (congrArg _ ((if_neg hgang).trans (if_neg (Nat.not_le.mpr hroom))))

end

theorem State.meBecomes_arrive_advance (s : State) (mask : BitVec 5) :
    MeBecomes s (s.arrive mask).advance { s.me.arriving mask with pc := s.me.pc + 4 } := by
  have h := (s.meBecomes_arrive mask).trans (s.cur_arrive mask) (State.meBecomes_modMe _ fun k => { k with pc := k.pc + 4 })
  rwa [(s.meBecomes_arrive mask).2] at h

theorem exec_barw_outside (hi : Issues (.barw w) s) (hgang : s.me.gang = 0) : exec (.barw w) s = .next (s.trap 0x0F 0) :=
  (word_of_issues hi _).trans (congrArg _ (if_pos hgang))

theorem exec_barw_member (hi : Issues (.barw w) s) (hgang : s.me.gang ≠ 0) : exec (.barw w) s = .next s.barWait :=
  (word_of_issues hi _).trans (congrArg _ (if_neg hgang))

section
variable (hi : Issues (.bar w mask) s)
include hi

theorem exec_bar_outside (hgang : s.me.gang = 0) : exec (.bar w mask) s = .next (s.trap 0x0F 0) :=
  (word_of_issues hi _).trans (congrArg _ (if_pos hgang))

variable (hgang : s.me.gang ≠ 0)
include hgang

theorem exec_bar_arrivedBefore (harrived : s.me.arrived = some s.me.pc) : exec (.bar w mask) s = .next s.barWait :=
  (word_of_issues hi _).trans (congrArg _ ((if_neg hgang).trans (if_pos harrived)))

variable (harrived : s.me.arrived ≠ some s.me.pc)
include harrived

theorem exec_bar_full (hfull : 2 ≤ s.me.pend) : exec (.bar w mask) s = .next s.stall :=
  (word_of_issues hi _).trans (congrArg _ ((if_neg hgang).trans ((if_neg harrived).trans (if_pos hfull))))

theorem exec_bar_arrives (hroom : s.me.pend < 2) :
    exec (.bar w mask) s = .next ((s.arrive mask).modMe fun q => { q with arrived := some q.pc }).barWait :=
  (word_of_issues hi _).trans
    (congrArg _ ((if_neg hgang).trans ((if_neg harrived).trans (if_neg (Nat.not_le.mpr hroom)))))

end

/-- The whole of a `bar` that arrives: its own arrival is still to be completed, so it parks. -/
theorem State.meBecomes_bar_arrives (hidle : s.me.waiting = false) (hdeferred : s.me.deferred = []) (mask : BitVec 5) :
    let t := ((s.arrive mask).modMe fun q => { q with arrived := some q.pc }).barWait
    MeBecomes s t { s.me.arriving mask with arrived := some s.me.pc, run := .parked (s.me.pc + 4) } ∧
    (t.barrierOf s.me.gang).wt = (s.barrierOf s.me.gang).wt ||| memberBit s.me.gang := by
  intro t
  have harrive := s.meBecomes_arrive mask
  have hmark := harrive.trans (s.cur_arrive mask) (State.meBecomes_modMe _ fun q => { q with arrived := some q.pc })
  rw [harrive.2] at hmark
  generalize hv : (s.arrive mask).modMe (fun q => { q with arrived := some q.pc }) = v at hmark
  have hcur : v.cur = s.cur := hv ▸ s.cur_arrive mask
  have hpark := State.meBecomes_barWait_parks (s := v) (by rw [hmark.2]; exact hidle) (by rw [hmark.2]; exact hdeferred)
    (by rw [hmark.2]; exact Nat.succ_ne_zero s.me.pend)
  have hbarrier : v.barrierOf s.me.gang = s.barrierOf s.me.gang := hv ▸ s.barrierOf_arrive mask s.me.gang
  rw [hmark.2] at hpark
  obtain ⟨hme, hwt⟩ := hpark
  have ht : t = v.barWait := congrArg State.barWait hv
  rw [ht]
  refine ⟨hmark.trans hcur hme, hwt.trans ?_⟩
  exact congrArg (fun b : Barrier => b.wt ||| memberBit s.me.gang) hbarrier

end

/-! ### An arrival leaves its core (R241, R243, R246) -/

/-- A kick only posts: what every posting keeps, it keeps. -/
theorem State.kick_induction {P : State → Prop} {s : State} (hs : P s) (hpost : ∀ t d e, P t → P (t.postIn d e)) (c : Nat) :
    P (s.kick c) := by
  have hite : ∀ {p : Prop} [Decidable p] {t : State} (d : Nat) (e : Event), P t → P (if p then t.postIn d e else t) := by
    intro p _ t d e ht
    split
    · exact hpost t d e ht
    · exact ht
  have hheld := List.foldlRecOn (motive := P) (s.core c).held
    (fun t p => if p.2.free (s.core c) then t.post (heldEvent c p) else t) hs fun t ht p _ => hite 0 _ ht
  have hsend : ∀ {t}, P t → P (match (s.core c).sendQ with
      | [] => t
      | e :: _ => if e.free (s.core c) then t.post (if e.host then .hostReplyWrite c else .sendInject c) else t) := by
    intro t ht
    split
    · exact ht
    · exact hite 0 _ ht
  simp only [State.kick]
  split
  · split
    · exact hsend hheld
    · exact hpost _ _ _ (hsend hheld)
  · exact hite 4 _ (hsend hheld)
  · exact hite 0 _ (hsend hheld)
  · exact hsend hheld

theorem State.mem_agenda_kick {s : State} {p : Nat × Event} (h : p ∈ s.agenda) (c : Nat) : p ∈ (s.kick c).agenda :=
  State.kick_induction (P := fun t => p ∈ t.agenda) h (fun _ _ _ ht => List.mem_append_left _ ht) c

section
variable {s : State} {c seq : Nat} {h : HeldEntry} (hfind : (s.core c).held.find seq = some h) (hwhat : h.what = .arrival)
  (hfree : h.free (s.core c) = true) (hfirst : ∀ p ∈ (s.core c).held, p.1 < seq → p.2.what ≠ .arrival)
include hfind hwhat hfree hfirst

theorem exec_barArrivalSent_leaves : exec (.barArrivalSent c seq) s = .next (((s.setCore c { s.core c with
    held := (s.core c).held.erase seq, arrivals := (s.core c).arrivals ++ [(s.core c).gang] }).postIn (barrierWay (s.core c).gang)
      (.barrierArrival c)).kick c) := by
  obtain ⟨what, bound, mask, fence⟩ := h
  obtain rfl : what = .arrival := hwhat
  have hfree : (s.core c).mayLeave bound mask fence = true := hfree
  have hfirst : ((s.core c).held.any fun p => p.1 < seq && p.2.what = .arrival) = false := by
    rw [List.any_eq_false]
    intro p hp
    rw [Bool.and_eq_true, decide_eq_true_iff, decide_eq_true_iff]
    exact fun ⟨hlt, harrival⟩ => hfirst p hp hlt harrival
  show execBarArrivalSent c seq s = _
  simp only [execBarArrivalSent, hfind, hfree, hfirst, Bool.not_true, Bool.or_self, Bool.false_eq_true, if_false]

/-- An arrival that leaves is under way to the entry of its gang, 3 or 6 cycles away. -/
theorem barArrivalSent_underWay : ∃ t, exec (.barArrivalSent c seq) s = .next t ∧ t.mem = s.mem ∧
    t.core c = { s.core c with held := (s.core c).held.erase seq, arrivals := (s.core c).arrivals ++ [(s.core c).gang] } ∧
    (s.cycle + barrierWay (s.core c).gang, Event.barrierArrival c) ∈ t.agenda := by
  refine ⟨_, exec_barArrivalSent_leaves hfind hwhat hfree hfirst, (State.agendaOnly_kick _ c).mem_eq,
    ((State.agendaOnly_kick _ c).core_eq c).trans (s.core_setCore_same c _), State.mem_agenda_kick ?_ c⟩
  exact List.mem_append_right _ (List.mem_singleton.mpr rfl)

end

/-! ### A completed phase (R241) -/

/-- A phase completed for member `i` of a gang: what `State.completePhase` does for each member that had arrived. -/
def State.memberPhase (s : State) (g : BitVec 16) (i : Nat) : State :=
  let c := g.toNat / 64 * 4 + i
  if (s.core c).gang.toNat / 16 != g.toNat / 16 then s
  else
    let s := s.modCore c fun k => { k with pend := k.pend - 1 }
    match (s.core c).run with
    | .parked _ => if (s.core c).pend = 0 then s.postIn (1 + barrierWay g) (.barrierWake c) else s
    | _ => s

theorem State.completePhase_eq_foldl (s : State) (g : BitVec 16) (b : Barrier) :
    s.completePhase g b = ((List.range 16).filter fun i => b.arr.getLsbD i).foldl (fun s i => s.memberPhase g i) s := rfl

section
variable (s : State) (g : BitVec 16)

/-- A phase lowers the member's PEND, and the agenda may grow. -/
theorem State.agendaOnly_memberPhase {i : Nat} (hgang : (s.core (g.toNat / 64 * 4 + i)).gang.toNat / 16 = g.toNat / 16) :
    AgendaOnly (s.modCore (g.toNat / 64 * 4 + i) fun k => { k with pend := k.pend - 1 }) (s.memberPhase g i) := by
  have hmember : ((s.core (g.toNat / 64 * 4 + i)).gang.toNat / 16 != g.toNat / 16) = false := by rw [hgang, bne_self_eq_false]
  simp only [State.memberPhase, hmember, Bool.false_eq_true, if_false]
  split
  · exact .ite ((AgendaOnly.refl _).postIn _ _) (.refl _)
  · exact .refl _

theorem State.memberPhase_stranger {i : Nat} (hgang : (s.core (g.toNat / 64 * 4 + i)).gang.toNat / 16 ≠ g.toNat / 16) :
    s.memberPhase g i = s := if_pos (bne_iff_ne.mpr hgang)

theorem State.coresOnly_memberPhase (i : Nat) : CoresOnly s (s.memberPhase g i) := by
  by_cases hgang : (s.core (g.toNat / 64 * 4 + i)).gang.toNat / 16 = g.toNat / 16
  · exact (congrArg (fun v : State => { v with cores := s.cores, agenda := s.agenda }) (s.agendaOnly_memberPhase g hgang) :)
  · rw [s.memberPhase_stranger g hgang]
    exact .refl s

theorem State.core_memberPhase_same {i : Nat} (hgang : (s.core (g.toNat / 64 * 4 + i)).gang.toNat / 16 = g.toNat / 16) :
    (s.memberPhase g i).core (g.toNat / 64 * 4 + i) =
      { s.core (g.toNat / 64 * 4 + i) with pend := (s.core (g.toNat / 64 * 4 + i)).pend - 1 } :=
  ((s.agendaOnly_memberPhase g hgang).core_eq _).trans (s.core_setCore_same _ _)

theorem State.core_memberPhase_ne {i c : Nat} (hc : c ≠ g.toNat / 64 * 4 + i) : (s.memberPhase g i).core c = s.core c := by
  by_cases hgang : (s.core (g.toNat / 64 * 4 + i)).gang.toNat / 16 = g.toNat / 16
  · exact ((s.agendaOnly_memberPhase g hgang).core_eq c).trans (s.core_setCore_ne _ hc)
  · rw [s.memberPhase_stranger g hgang]

end

section
variable (g : BitVec 16) {i : Nat}

theorem State.core_memberPhases_out {l : List Nat} (hi : i ∉ l) (s : State) :
    (l.foldl (fun s i => s.memberPhase g i) s).core (g.toNat / 64 * 4 + i) = s.core (g.toNat / 64 * 4 + i) := by
  induction l generalizing s with
  | nil => rfl
  | cons j l ih =>
    have hj : i ≠ j := List.ne_of_not_mem_cons hi
    exact (ih (List.not_mem_of_not_mem_cons hi) _).trans (s.core_memberPhase_ne g (by omega))

theorem State.core_memberPhases_in {l : List Nat} (hnodup : l.Nodup) (hi : i ∈ l) (s : State)
    (hgang : (s.core (g.toNat / 64 * 4 + i)).gang.toNat / 16 = g.toNat / 16) :
    (l.foldl (fun s i => s.memberPhase g i) s).core (g.toNat / 64 * 4 + i) =
      { s.core (g.toNat / 64 * 4 + i) with pend := (s.core (g.toNat / 64 * 4 + i)).pend - 1 } := by
  induction l generalizing s with
  | nil => exact absurd hi List.not_mem_nil
  | cons j l ih =>
    obtain ⟨hj, hl⟩ := List.nodup_cons.mp hnodup
    rcases List.mem_cons.mp hi with rfl | hi
    · exact (State.core_memberPhases_out g hj _).trans (s.core_memberPhase_same g hgang)
    · have hother : (s.memberPhase g j).core (g.toNat / 64 * 4 + i) = s.core (g.toNat / 64 * 4 + i) :=
        s.core_memberPhase_ne g (by have : i ≠ j := fun h => hj (h ▸ hi); omega)
      rw [← hother] at hgang ⊢
      exact ih hl hi _ hgang

end

theorem State.coresOnly_completePhase (s : State) (g : BitVec 16) (b : Barrier) : CoresOnly s (s.completePhase g b) := by
  rw [s.completePhase_eq_foldl]
  exact List.foldlRecOn (motive := CoresOnly s) _ _ (.refl s) fun t h i _ => h.trans (t.coresOnly_memberPhase g i)

theorem State.core_completePhase (s : State) {g : BitVec 16} {b : Barrier} {i : Nat} (hi : i < 16) (harr : b.arr.getLsbD i = true)
    (hgang : (s.core (g.toNat / 64 * 4 + i)).gang.toNat / 16 = g.toNat / 16) :
    (s.completePhase g b).core (g.toNat / 64 * 4 + i) =
      { s.core (g.toNat / 64 * 4 + i) with pend := (s.core (g.toNat / 64 * 4 + i)).pend - 1 } :=
  State.core_memberPhases_in g (List.nodup_range.filter _) (List.mem_filter.mpr ⟨List.mem_range.mpr hi, harr⟩) s hgang

/-! ### The loop of R241 -/

theorem State.settleBarrier_incomplete (s : State) (g : BitVec 16) {b : Barrier} (h : b.arr ||| b.exit ≠ b.full ∨ b.exit = b.full)
    (n : Nat) : s.settleBarrier g b n = (b, s) := by
  have hno : (b.arr ||| b.exit = b.full && b.exit != b.full) = false := by
    rcases h with h | h <;> simp [h]
  cases n with
  | zero => rfl
  | succ n => simp only [State.settleBarrier, hno, Bool.false_eq_true, if_false]

/-- A barrier entry whose phase is complete and whose members have not arrived for the next one. -/
def Barrier.completed (b : Barrier) : Barrier := { b with ph := !b.ph, nph := b.nph + 1, arr := 0, nxt := 0 }

theorem State.settleBarrier_completes (s : State) (g : BitVec 16) {b : Barrier} (hfull : b.arr ||| b.exit = b.full)
    (hexit : b.exit ≠ b.full) (hnxt : b.nxt = 0) (n : Nat) :
    s.settleBarrier g b (n + 1) = (b.completed, s.completePhase g b) := by
  have hyes : (b.arr ||| b.exit = b.full && b.exit != b.full) = true := by simp [hfull, hexit]
  have hzero : b.completed.arr ||| b.completed.exit = b.exit := BitVec.zero_or
  have hnext : b.completed.arr ||| b.completed.exit ≠ b.completed.full := hzero.symm ▸ hexit
  simp only [State.settleBarrier, hyes, if_true, hnxt]
  exact State.settleBarrier_incomplete _ g (.inl hnext) n

/-! ### An arrival at the entry (R241) -/

/-- An arrival's member counted: for the phase at hand, or for the next one if it has arrived for that. -/
def Barrier.arrival (b : Barrier) (bit : BitVec 16) : Barrier :=
  if b.arr &&& bit = 0 then { b with arr := b.arr ||| bit } else { b with nxt := b.nxt ||| bit }

/-- An arrival at the entry of a gang. -/
def State.arriveAt (s : State) (g : BitVec 16) : State :=
  if !(s.barrierOf g).v then s
  else
    let r := s.settleBarrier g ((s.barrierOf g).arrival (memberBit g)) 3
    r.2.setBarrier g r.1

section
variable {s : State} {c : Nat}

theorem exec_barrierArrival_none (h : (s.core c).arrivals = []) : exec (.barrierArrival c) s = .next s := by
  show execBarrierArrival c s = _
  simp only [execBarrierArrival, h]

/-- An arrival is counted; the core's end is tried again only where it waits for its arrivals. -/
theorem exec_barrierArrival {g : BitVec 16} {later : List (BitVec 16)} (h : (s.core c).arrivals = g :: later) :
    let v := (s.modCore c fun q => { q with arrivals := later }).arriveAt g
    ∃ t, exec (.barrierArrival c) s = .next t ∧ AgendaOnly v t ∧ ((v.core c).run ≠ .exiting → t = v) := by
  intro v
  refine ⟨match (v.core c).run with
    | .exiting => if later.isEmpty then v.post (.barrierExit c) else v
    | _ => v, ?_, ?_⟩
  · show execBarrierArrival c s = _
    simp only [execBarrierArrival, h]
    rfl
  · split
    · next hrun => exact ⟨.ite ((AgendaOnly.refl _).post _) (.refl _), fun hne => absurd hrun hne⟩
    · exact ⟨.refl v, fun _ => rfl⟩

/-- An arrival of a member whose core waits for no end. -/
theorem exec_barrierArrival_running {g : BitVec 16} {later : List (BitVec 16)} (h : (s.core c).arrivals = g :: later) {v : State}
    (hv : (s.modCore c fun q => { q with arrivals := later }).arriveAt g = v) (hrun : (v.core c).run ≠ .exiting) :
    exec (.barrierArrival c) s = .next v := by
  obtain ⟨t, ht, -, hsame⟩ := exec_barrierArrival h
  rw [hv] at hsame
  rw [ht, hsame hrun]

end

section
variable {s : State} {g : BitVec 16} {b : Barrier} (hb : s.barrierOf g = b)
include hb

theorem State.arriveAt_invalid (hvalid : b.v = false) : s.arriveAt g = s := by
  rw [State.arriveAt, hb, hvalid]
  rfl

variable (hvalid : b.v = true)
include hvalid

theorem State.arriveAt_eq {n : Barrier} (hn : b.arrival (memberBit g) = n) :
    s.arriveAt g = (s.settleBarrier g n 3).2.setBarrier g (s.settleBarrier g n 3).1 := by
  rw [State.arriveAt, hb, hvalid, hn]
  rfl

theorem State.arriveAt_again (harr : b.arr &&& memberBit g ≠ 0) (hopen : b.arr ||| b.exit ≠ b.full) :
    s.arriveAt g = s.setBarrier g { b with nxt := b.nxt ||| memberBit g } := by
  rw [State.arriveAt_eq hb hvalid (if_neg harr),
    State.settleBarrier_incomplete s g (b := { b with nxt := b.nxt ||| memberBit g }) (.inl hopen)]

section
variable (harr : b.arr &&& memberBit g = 0)
include harr

theorem State.arriveAt_counts (hopen : b.arr ||| memberBit g ||| b.exit ≠ b.full) :
    s.arriveAt g = s.setBarrier g { b with arr := b.arr ||| memberBit g } := by
  rw [State.arriveAt_eq hb hvalid (if_pos harr), State.settleBarrier_incomplete s g (.inl hopen)]

theorem State.arriveAt_completes (hfull : b.arr ||| memberBit g ||| b.exit = b.full) (hexit : b.exit ≠ b.full) (hnxt : b.nxt = 0) :
    let n : Barrier := { b with arr := b.arr ||| memberBit g }
    s.arriveAt g = (s.completePhase g n).setBarrier g n.completed := by
  intro n
  rw [State.arriveAt_eq hb hvalid (if_pos harr), State.settleBarrier_completes s g (b := n) hfull hexit hnxt]

end

end

/-- An arrival that completes a phase, in whose entry no member has arrived for the next one. -/
theorem barrierArrival_completes {s : State} {c : Nat} {g : BitVec 16} {later : List (BitVec 16)}
    (harrivals : (s.core c).arrivals = g :: later) {b : Barrier} (hb : s.barrierOf g = b) (hvalid : b.v = true)
    (harr : b.arr &&& memberBit g = 0) (hfull : b.arr ||| memberBit g ||| b.exit = b.full) (hexit : b.exit ≠ b.full) (hnxt : b.nxt = 0) :
    let u := s.modCore c fun q => { q with arrivals := later }
    ∃ t, exec (.barrierArrival c) s = .next t ∧ t.mem = s.mem ∧
      t.barrierOf g = ({ b with arr := b.arr ||| memberBit g } : Barrier).completed ∧
      ∀ i < 16, let j := g.toNat / 64 * 4 + i
        (b.arr ||| memberBit g).getLsbD i = true → (u.core j).gang.toNat / 16 = g.toNat / 16 →
          t.core j = { u.core j with pend := (u.core j).pend - 1 } := by
  intro u
  obtain ⟨t, ht, hrest, -⟩ := exec_barrierArrival harrivals
  rw [State.arriveAt_completes (s := u) hb hvalid harr hfull hexit hnxt] at hrest
  refine ⟨t, ht, ?_, ?_, fun i hi => ?_⟩
  · exact hrest.mem_eq.trans ((State.setBarrier_mem _ _ _).trans (u.coresOnly_completePhase g _).mem_eq)
  · exact (hrest.barrierOf_eq g).trans (State.barrierOf_setBarrier _ _ _)
  · intro j hbit hgang
    exact (hrest.core_eq j).trans ((State.core_setBarrier _ _ _ j).trans
      (u.core_completePhase (b := { b with arr := b.arr ||| memberBit g }) hi hbit hgang))

/-! ### Members that end or go on (R239, R241, R244, R246) -/

/-- A barrier entry that counts a member as arrived from now on. -/
def Barrier.ended (b : Barrier) (bit : BitVec 16) : Barrier := { b with exit := b.exit ||| bit }

section
variable {s : State} {c : Nat}

section
variable (hrun : (s.core c).run = .exiting) (hgang : (s.core c).gang ≠ 0) (harrivals : (s.core c).arrivals = [])
include hrun hgang harrivals

/-- A member's end where no phase is complete with it. -/
theorem exec_barrierExit_settled {b : Barrier} (hb : (s.barrierOf (s.core c).gang).ended (memberBit (s.core c).gang) = b)
    (hsettled : b.arr ||| b.exit ≠ b.full ∨ b.exit = b.full) :
    exec (.barrierExit c) s = .next (
      if b.exit = b.full then
        (((s.releaseKeys (s.core c)).setBarrier (s.core c).gang {}).freeCore c).timelineEnds (s.core c).tl
      else
        let t := (s.setBarrier (s.core c).gang b).freeCore c
        if (s.core c).tl = 0xFFFF then t else t.refloor ((s.core c).tl.toNat % 1024) ((s.core c).tl.toNat / 1024 % 16)) := by
  rw [Barrier.ended] at hb
  show execBarrierExit c s = _
  simp only [execBarrierExit, hrun, hgang, harrivals, hb, State.settleBarrier_incomplete s _ hsettled, decide_false, List.isEmpty_nil,
    Bool.not_true, Bool.or_self, Bool.false_eq_true, if_false]

theorem exec_barrierExit_last {b : Barrier} (hb : s.barrierOf (s.core c).gang = b)
    (hlast : b.exit ||| memberBit (s.core c).gang = b.full) :
    exec (.barrierExit c) s = .next ((((s.releaseKeys (s.core c)).setBarrier (s.core c).gang {}).freeCore c).timelineEnds
      (s.core c).tl) :=
  (exec_barrierExit_settled hrun hgang harrivals (congrArg (Barrier.ended · _) hb) (.inr hlast)).trans (congrArg _ (if_pos hlast))

theorem exec_barrierExit_leaves {b : Barrier} (hb : s.barrierOf (s.core c).gang = b)
    (hopen : b.arr ||| (b.exit ||| memberBit (s.core c).gang) ≠ b.full) (hothers : b.exit ||| memberBit (s.core c).gang ≠ b.full)
    (htl : (s.core c).tl = 0xFFFF) :
    exec (.barrierExit c) s = .next ((s.setBarrier (s.core c).gang (b.ended (memberBit (s.core c).gang))).freeCore c) :=
  (exec_barrierExit_settled hrun hgang harrivals (congrArg (Barrier.ended · _) hb) (.inl hopen)).trans
    (congrArg _ ((if_neg hothers).trans (if_pos htl)))

end

theorem exec_barrierWake_goesOn {n : Word} (hrun : (s.core c).run = .parked n) (hpend : (s.core c).pend = 0) :
    let b := s.barrierOf (s.core c).gang
    exec (.barrierWake c) s = .next ((s.setBarrier (s.core c).gang { b with wt := b.wt &&& ~~~(memberBit (s.core c).gang) }).setCore c
      { s.core c with run := .running, pc := n, arrived := none, ready := s.cycle + 1 }) := by
  intro b
  have hdone : ((s.core c).pend != 0) = false := by rw [hpend, bne_self_eq_false]
  show execBarrierWake c s = _
  simp only [execBarrierWake, hrun, hdone, Bool.false_eq_true, if_false]
  rfl

end

end Sys2Proof.Machine
end

section
/-! ## The steps of desks, dispatcher and barrier unit together -/

namespace Sys2Proof.Machine

open Sys2Proof

/-- Settles O56: one lemma above for each step and word, in the statement's order. Four points are the model's choices: a `bar`
that has arrived only waits (log 42), the cycles an arrival is under way (log 110), the order of watches (log 136), and that a
GANG16 is chosen only while a core is free (log 151). -/
theorem dispatcherSteps : Obligations.DispatcherSteps := by
  intro w mask slice ctx cluster tag cond core seq pa x key E e m h s D C home putKey refused
  refine ⟨fun hnone => ?newKey, fun hentry => ?heldKey, fun hfind hb => exec_kgrantArrival_unawaited hb hfind key,
    fun hfind hphase hkey => ?keys, fun hfind hphase hitem => ?conditions, rfl, fun since hfind hitem hsince => ?longWait,
    fun hctx hstart hgang hquad hunbound hfirst => ?choice, fun hfind => ?hold, ?words, ?unit⟩
  case newKey =>
    exact ⟨exec_deskKreq_tableFull hnone cluster tag, exec_deskKreq_free hnone cluster tag, exec_deskKrel_none hnone cluster tag,
      exec_deskKcancel_none hnone cluster tag, exec_krunAtDesk_none hnone cluster tag⟩
  case heldKey =>
    refine ⟨exec_deskKreq_holdsFull hentry, exec_deskKreq_queues hentry, fun hne => ?_, fun hcl htag => ?_⟩
    · have hother : (E.hcl = cluster && E.htag = tag) = false := by
        rw [Bool.and_eq_false_iff, decide_eq_false_iff_not, decide_eq_false_iff_not]
        exact hne
      exact ⟨exec_deskKrel_other hentry hother, exec_krunAtDesk_other hentry hother, exec_deskKcancel_other hentry hother⟩
    · have hholder : (E.hcl = cluster && E.htag = tag) = true := by
        rw [Bool.and_eq_true, decide_eq_true_iff, decide_eq_true_iff]
        exact ⟨hcl, htag⟩
      have hrel := exec_deskKrel_holder hentry hholder
      refine ⟨exec_krunAtDesk_holder hentry hholder, (exec_deskKcancel_holder hentry hholder).trans hrel.symm, fun hempty => ?_,
        fun c n q hqueue hstart => ?_⟩
      · rw [hrel, s.passKey_last slice hempty]
        rfl
      · rw [hrel, State.passKey_next slice hqueue hstart]
        rfl
  case keys =>
    have hawaits : e.Awaits key := ⟨hphase, hkey⟩
    exact ⟨fun k since hb hsince hnext => exec_kgrantArrival_nextKey hfind hawaits hb hsince hnext,
      fun since hb hsince hnext hitem hcond => exec_kgrantArrival_lastKey hfind hawaits hb hsince hnext hitem hcond,
      exec_krefuseArrival_awaited hfind hawaits,
      fun since hb hretry => ⟨exec_keyRetry_due hfind hawaits hb hretry, exec_keyRetry_early hfind hretry⟩,
      exec_keyRetry_withdrawn hfind⟩
  case conditions =>
    intro t met bit handle h
    refine ⟨fun hmet hwatch hwin hsoft => ?_, fun hb => ⟨exec_wmetArrival hfind hphase hitem hb cond,
      exec_wrefuseArrival hfind hphase hb cond⟩, exec_watchPoll_polling hfind hphase hitem, exec_watchPoll_ended hfind hitem⟩
    have hreg := exec_wregAtSlice hfind hphase hitem hmet hwatch hwin hsoft
    refine ⟨fun hpoison => hreg.trans (congrArg _ (if_pos hpoison)), fun hsound hholds => ?_, fun hsound hfails => ?_⟩
    · exact hreg.trans (congrArg _ ((if_neg (Bool.eq_false_iff.mp hsound)).trans (if_pos hholds)))
    · intro standing
      have hunmet := hreg.trans (congrArg _ ((if_neg (Bool.eq_false_iff.mp hsound)).trans (if_neg (Bool.eq_false_iff.mp hfails))))
      refine ⟨fun hstands => hunmet.trans (congrArg _ (if_pos hstands)), fun hnew hroom => ?_, fun hnew hfull => ?_⟩
      · exact hunmet.trans (congrArg _ ((if_neg (Bool.eq_false_iff.mp hnew)).trans (if_pos hroom)))
      · exact hunmet.trans (congrArg _ ((if_neg (Bool.eq_false_iff.mp hnew)).trans (if_neg (Nat.not_lt.mpr hfull))))
  case longWait => exact ⟨exec_dwait_quiet hfind hitem hsince, exec_dwait_notes hfind hitem hsince⟩
  case choice =>
    intro free
    have hdispatch : ∀ {c rest}, free = c :: rest → _ := exec_dispatch_first hunbound hctx hstart hgang hquad hfirst
    have hgang4 : ∀ {c rest}, m.ev = false → recKind m.r[0] = 3 → free = c :: rest → _ := fun hev hkind hfree =>
      (hdispatch hfree).trans (congrArg _ ((if_neg (by simp [hkind])).trans (if_pos (by simp [hkind, hev]))))
    refine ⟨fun hhead hkind => ?_, fun hev hkind hlen => ?_, fun hev hkind hfree => ?_, fun hev hkind hhead => ?_⟩
    · obtain ⟨rest, hfree⟩ := List.head?_eq_some_iff.mp hhead
      have hnotQuad : ¬(recKind m.r[0] = 4 && !m.ev) = true := by
        rcases hkind with hev | ⟨-, h4⟩
        · simp [hev]
        · simp [h4]
      have hnotGang : ¬(recKind m.r[0] = 3 && !m.ev) = true := by
        rcases hkind with hev | ⟨h3, -⟩
        · simp [hev]
        · simp [h3]
      exact (hdispatch hfree).trans (congrArg _ ((if_neg hnotQuad).trans (if_neg hnotGang)))
    · obtain ⟨c, rest, hfree⟩ := List.exists_cons_of_length_pos (l := free) (by omega)
      exact (hgang4 hev hkind hfree).trans (congrArg _ (if_pos (hfree ▸ hlen)))
    · exact (hgang4 hev hkind hfree).trans (congrArg _ (if_neg (by simp)))
    · obtain ⟨rest, hfree⟩ := List.head?_eq_some_iff.mp hhead
      exact (hdispatch hfree).trans (congrArg _ (if_pos (by simp [hkind, hev])))
  case hold =>
    exact ⟨exec_priorityPromotion_entered hfind, exec_quadHoldRequest_new hfind,
      fun quad rest hholds hquad hheld hstart hitem => exec_quadGangStart_held hfind hholds hquad hheld hstart hitem⟩
  case words =>
    intro k frame arrived
    refine ⟨fun hi => ⟨exec_bara_outside hi, exec_bara_full hi,
        fun hg hroom => ⟨_, exec_bara_arrives hi hg hroom, s.meBecomes_arrive_advance mask⟩⟩, exec_barw_outside,
      fun ⟨hi, hidle, hdef⟩ hg => ⟨fun hpend => ?_, fun hpend => ?_⟩, exec_bar_outside,
      fun ⟨hi, hidle, hdef⟩ hg hat => ⟨fun hpend => ?_, fun hpend => ?_⟩,
      fun ⟨hi, hidle, hdef⟩ hg hat => ⟨exec_bar_full hi hg hat, fun hroom => ?_⟩⟩
    · exact ⟨_, exec_barw_member hi hg, State.meBecomes_barWait_passes hidle hdef hpend⟩
    · obtain ⟨⟨hframe, hme⟩, hwt⟩ := State.meBecomes_barWait_parks hidle hdef hpend
      exact ⟨_, exec_barw_member hi hg, hframe, hme, hwt⟩
    · exact ⟨_, exec_bar_arrivedBefore hi hg hat, State.meBecomes_barWait_passes hidle hdef hpend⟩
    · exact ⟨_, exec_bar_arrivedBefore hi hg hat, (State.meBecomes_barWait_parks hidle hdef hpend).1⟩
    · obtain ⟨⟨hframe, hme⟩, hwt⟩ := State.meBecomes_bar_arrives hidle hdef mask
      exact ⟨_, exec_bar_arrives hi hg hat hroom, hframe, hme, hwt⟩
  case unit =>
    intro k g b bit
    refine ⟨barArrivalSent_underWay, exec_barrierArrival_none, fun later harrivals hrun => ?_, fun hrun hg harrivals => ?_,
      fun n hrun hpend => exec_barrierWake_goesOn hrun hpend⟩
    · intro u
      have hu : u.barrierOf g = b := rfl
      have hcore : u.core core = { k with arrivals := later } := s.core_setCore_same core _
      have hgoes : ∀ {n : Barrier}, u.arriveAt g = u.setBarrier g n → exec (.barrierArrival core) s = .next (u.setBarrier g n) :=
        fun h => exec_barrierArrival_running harrivals h (by rwa [State.core_setBarrier, hcore])
      refine ⟨fun hv => exec_barrierArrival_running harrivals (State.arriveAt_invalid hu hv) (by rwa [hcore]), fun hv harr =>
        ⟨fun hopen => hgoes (State.arriveAt_counts hu hv harr hopen), barrierArrival_completes harrivals hu hv harr⟩,
        fun hv harr hopen => hgoes (State.arriveAt_again hu hv harr hopen)⟩
    · exact ⟨exec_barrierExit_last hrun hg harrivals rfl, exec_barrierExit_leaves hrun hg harrivals rfl⟩

end Sys2Proof.Machine
end
